-- ==== Sys2Proof/Word.lean ====
section
/-! DEFINITION. The word types of the block and their plainest arithmetic (00, Numbers, sizes and bits). -/

namespace Sys2Proof

/-- A control-window register value (R12). -/
abbrev Word := BitVec 32
/-- A Zaell word: a general register, a bay-memory word (08, Program-visible state). -/
abbrev Half := BitVec 16
/-- A byte. -/
abbrev Byte := BitVec 8
/-- The 64 data bytes of a line; byte i is bits [8i + 7 : 8i]. -/
abbrev Line := BitVec 512
/-- A stored codeword of 40 symbols of 16 bits; symbol i is bits [16i + 15 : 16i]. -/
abbrev Codeword := BitVec 640
/-- The eight interface beats of a line, beat m in [80 m + 79 : 80 m] (R121). -/
abbrev LineBeats := BitVec 640
/-- A pool byte address. -/
abbrev PAddr := BitVec 48
/-- A frame index (R41). -/
abbrev FrameIx := BitVec 36

end Sys2Proof
end

