-- ==== Sys2Proof/Syntax.lean ====
section
/-! DEFINITION. The commands of the block, one constructor per row of spec/opcode_table.json, and their operand
types.  A command that is a write of a register carries the requester and the word written; a command that is an
event in time carries `dt`, the CLK_B cycles that pass before it (R7). -/

namespace Sys2Proof

/-- Host port HPp (00, Names and indices). -/
abbrev Port := Fin 4
/-- Media channel MCc and its slice. -/
abbrev Chan := Fin 32
/-- Bay b. -/
abbrev Bay := Fin 32

/-- The requesters of the control window (17, Requesters and ordering). -/
inductive Req where
  | mailbox
  | i3c
  | engine (b : Bay)
  | monitor
  deriving DecidableEq, Repr

/-- Who writes an owner register: a requester of the control window, or by hardware port-B agent `agent`, `dt` cycles from now, with the line
transfer that it then asks port B for: write or read, Exchange line, data (R411, R412; log 161). -/
inductive XbufBy where
  | window (req : Req)
  | portB (dt : Nat) (agent : Fin 6) (xfer : Option (Bool × BitVec 10 × BitVec 512))
  deriving DecidableEq, Repr

/-- A context: logical engine and context number (00, Names and indices). -/
structure CtxRef where
  eng : Fin 256
  ctx : Fin 8
  deriving DecidableEq, Repr

/-- The fields of a Zaell instruction in its format (R284), all but the bits that the mnemonic fixes. -/
inductive ZFmt where
  /-- S-RR -/
  | srr (ra rb : BitVec 4)
  /-- S-RI -/
  | sri (ra : BitVec 4) (imm : BitVec 8)
  /-- S-M -/
  | sm (ra rb disp : BitVec 4)
  /-- S-B -/
  | sb (cond : BitVec 4) (disp : BitVec 8)
  /-- S-N: w0[11:8], w0[7:4] and w0[3:0] -/
  | sn (g n ra : BitVec 4)
  /-- L-RRR, `z` being word 0 bit [0] -/
  | lrrr (minor : BitVec 6) (ra : BitVec 5) (z : Bool) (rb rc : BitVec 5) (fn : BitVec 6)
  /-- L-RI -/
  | lri (minor : BitVec 6) (ra : BitVec 5) (z : Bool) (imm : BitVec 16)
  /-- L-M -/
  | lm (minor : BitVec 6) (ra : BitVec 5) (z : Bool) (rb : BitVec 5) (disp : BitVec 11)
  /-- L-J -/
  | lj (minor : BitVec 6) (cls tb : BitVec 3) (off : BitVec 16)
  /-- L-CP, `z5` being word 1 bit [5] -/
  | lcp (unit : BitVec 3) (op : BitVec 8) (ra : BitVec 5) (z : Bool) (rb rc : BitVec 5) (z5 : Bool)
  deriving DecidableEq, Repr

/-- One copy of the fuse fields (R486): UDS, UNITID, LIFE, OWNKEYHASH, PWDHASH, PSEC, PREVOKE, and the repair entries, 7 bits each,
entry i of array a of bay b at 7 (20 b + 4 a + i): COL in [5:0], VALID in [6]. -/
structure FuseCopy where
  uds    : BitVec 384
  unitid : BitVec 64
  life   : BitVec 2
  own    : BitVec 384
  pwd    : BitVec 384
  psec   : BitVec 256
  revoke : BitVec 4
  rep    : BitVec 4480
  deriving DecidableEq, Repr

/-- The fuses as the loader reads them: both copies, and by field number the fields whose CRC fails (R486). -/
structure FuseImage where
  a   : FuseCopy
  b   : FuseCopy
  bad : BitVec 8
  deriving DecidableEq, Repr

/-- A halt domain (R503), as a monitor command names it; `other` stands for a kind that is none. -/
inductive Domain where
  | engine (n : Nat)
  | bay (n : Nat)
  | block
  | other
  deriving DecidableEq, Repr

/-- The arguments of XT_CFG (R499): engine mask words 0 to 7, bay mask, BLOCK, break-bay mask. -/
structure XtCfg where
  eng   : BitVec 256
  bay   : Word
  block : Bool
  brk   : Word
  deriving DecidableEq, Repr

/-- VPP_FUSE: within its programming limits, outside them but within the ratings, beyond the ratings (R542, R543). -/
inductive Vpp where
  | programming | outside | beyond
  deriving DecidableEq, Repr

/-- An I3C common command code (R470), with the address that it names. -/
inductive I3cCcc where
  | entdaa (dyn : BitVec 7)
  | setdasa (static dyn : BitVec 7)
  | rstdaa
  | getpid (addr : BitVec 7)
  | getbcr (addr : BitVec 7)
  | getdcr (addr : BitVec 7)
  | getstatus (addr : BitVec 7)
  | getmwl (addr : BitVec 7)
  | getmrl (addr : BitVec 7)
  | other (code : Byte)
  deriving DecidableEq, Repr

/-- The kinds of line access (R80). -/
inductive MemOp where
  | rd | wr | ptl
  deriving DecidableEq, Repr

/-- An M2S message (R80 to R82): line address, Tag, MetaField (`some v` Meta0-State with MetaValue v, `none` No-Op), the
ledger entry at or after which the port takes the first FREE one, and the segment-entry words in which the lookup's ECC
finds an uncorrectable error (R88). -/
structure M2S where
  addr : PAddr
  tag  : BitVec 16
  mta  : Option (BitVec 2)
  hint : Fin 8192
  ecc  : List (Fin 4)
  deriving DecidableEq, Repr

/-- A request to a segment homed on another chip (R158, R19): the origin's reference, 8192 p + i for entry i of port p,
the access, and the line with its check value (R21). -/
structure RemReq where
  ref  : Nat
  op   : MemOp
  addr : PAddr
  pois : Bool
  mval : BitVec 2
  data : Line
  mask : BitVec 64
  chk  : BitVec 24
  deriving DecidableEq, Repr

/-- The answer to a request forwarded: completion, or a line with its metadata. -/
structure RemRsp where
  ref  : Nat
  line : Option (Line × Word)
  bad  : Bool
  deriving DecidableEq, Repr

/-- A message of a fabric port (R21). -/
inductive FabMsg where
  | req (r : RemReq)
  | rsp (r : RemRsp)
  deriving DecidableEq, Repr

/-- A reference to the origin of a mirrored write: whether the chip that sends the reference is the origin, the port and
the ledger index, or the number of the line access of the primary, where no ledger entry is the origin. -/
structure OriginRef where
  mine : Bool
  port : Port
  idx  : Fin 8192
  eng  : Option Nat
  deriving DecidableEq, Repr

/-- The ledger entry that an LCPY carries (R160): its access, its segment number's line address and class, and for a
write the data, mask and check value. -/
structure LedCopy where
  port : Port
  idx  : Fin 8192
  op   : MemOp
  cls  : BitVec 3
  mirr : Bool
  tag  : BitVec 16
  addr : PAddr
  pois : Bool
  mval : BitVec 2
  chk  : BitVec 24
  data : Line
  mask : BitVec 64
  deriving DecidableEq, Repr

/-- The content of a HELLO (05, Messages on the twin link). -/
structure HelloMsg where
  side   : Bool
  pairId : BitVec 4
  join   : Bool
  ver    : Word
  frame  : FrameIx
  segsum : Word
  state  : BitVec 3
  deriving DecidableEq, Repr

/-- A message received on the twin link carries its reference in the sender's stream, and whether the receiver finds a
link error in it (R159). -/
structure TwHdr where
  ref : Nat
  err : Bool
  deriving DecidableEq, Repr

/-- The messages of the twin link (05, Messages on the twin link). -/
inductive TwMsg where
  | hello (m : HelloMsg)
  | bcn (frame : FrameIx) (ver : Word) (state : BitVec 3)
  | keep
  | lcpy (c : LedCopy)
  | lack (port : Port) (idx : Fin 8192)
  | lfree (port : Port) (idx : Fin 8192)
  | wrq (addr : PAddr) (ref : OriginRef) (stamp : FrameIx) (mta : Word) (merged : Option Line)
  | ack (ref : OriginRef) (stamp : FrameIx)
  | nakLate (ref : OriginRef) (frame : FrameIx)
  | nakLink (msg : Nat)
  | mrd (addr : PAddr) (copy : Bool)
  | mrs (addr : PAddr) (copy : Option (Line × Word))
  | rcp (addr : PAddr) (data : Line) (mta : Word)
  | vrq (addr : PAddr) (mta crc : Word)
  | fwd (r : RemReq)
  | fwr (r : RemRsp)
  | bye
  deriving DecidableEq, Repr

/-- The levels at the Twin Port's single-ended pins: TW_PRES_N asserted, TW_FAIL_N asserted by the partner, TW_SYNC released by the partner. -/
structure TwPins where
  pres : Bool
  fail : Bool
  sync : Bool
  deriving DecidableEq, Repr

/-- The tier operations (R147). -/
inductive TierKind where
  | read | put | zero | store | fetch
  deriving DecidableEq, Repr

/-- What an engine supplies with a tier operation (R147): segment, KEYGEN, page index; share line offset of a frame or form
and its stream lines; a page entry. -/
structure TierOp where
  seg   : BitVec 12
  key   : Byte
  pj    : BitVec 24
  loc   : BitVec 30
  slen  : BitVec 6
  entry : BitVec 64
  deriving DecidableEq, Repr


/-- The commands of the block. -/
inductive Instr where
  /-- REGISTER_WRITE (R8): a control-window write of any width at any byte offset -/
  | registerWrite (req : Req) (off : BitVec 22) (width : Nat) (v : Word)
  /-- CAPTURE_READ (R519): a control-window read -/
  | captureRead (req : Req) (off : BitVec 22) (width : Nat)
  /-- RESET_ASSERT (R547): a recognised assertion of BLK_RST_N -/
  | resetAssert (dt : Nat)
  /-- RESET_RELEASE (R548): the release of BLK_RST_N, with TW_ROLE, the socket straps and the Twin Port's pins as sampled, and whether the part is one of life state BLANK -/
  | resetRelease (dt : Nat) (role : Bool) (straps : BitVec 4) (pin : TwPins) (blank : Bool)
  /-- PLL_LOCK (R546): the block PLL locks -/
  | pllLock (dt : Nat)
  /-- PLL_LOCK_LOSS (R549): the block PLL loses lock -/
  | pllLockLoss (dt : Nat)
  /-- FUSE_LOAD_COMPLETE (R486): the fuse image read, with each field's CRC verdict, and the first nonce -/
  | fuseLoadComplete (dt : Nat) (img : FuseImage) (nonce : BitVec 384)
  /-- KEY_DERIVATION_COMPLETE (R488): the identity keys are derived -/
  | keyDerivationComplete (dt : Nat)
  /-- TB_STEP_EDGE (R33): synchronised rising edges on TB_A and TB_B, and TB_B's level -/
  | tbStepEdge (dt : Nat) (a b bLevel : Bool)
  /-- INDEX_EDGE (R47): a rising edge of TB_IDX -/
  | indexEdge (dt : Nat)
  /-- TB_LOSS_TIMEOUT (R572): LOSS cycles have passed without an accepted edge -/
  | tbLossTimeout (dt : Nat)
  /-- HOLDOVER_STEP (R46): the phase accumulator reaches P -/
  | holdoverStep (dt : Nat)
  /-- TB_ENABLE (R43): a write of SC_TB_CTRL -/
  | tbEnable (req : Req) (v : Word)
  /-- TB_ACQ (R573): a write of SC_TB_CTRL with ACQ 1 -/
  | tbAcq (req : Req) (v : Word)
  /-- TB_REALIGN_REQUEST (R45): a write of SC_TB_CTRL with REALIGN 1 -/
  | tbRealignRequest (req : Req) (v : Word)
  /-- TB_TIMING_WRITE (R572): a write of SC_TB_TIMING -/
  | tbTimingWrite (req : Req) (v : Word)
  /-- SLOT_BOUNDARY (R41): compare channel 0 hits -/
  | slotBoundary (dt : Nat)
  /-- FRAME_BOUNDARY (R25): compare channel 1 hits -/
  | frameBoundary (dt : Nat)
  /-- COMPARE_HIT (R52): an armed compare channel 2 to 7 hits -/
  | compareHit (dt : Nat) (n : Fin 8)
  /-- CMP_OWN_WRITE (R53): a write of SC_CMP_OWN -/
  | cmpOwnWrite (req : Req) (n : Fin 8) (v : Word)
  /-- CMP_LO_WRITE (R54): a write of SC_CMP_LO -/
  | cmpLoWrite (req : Req) (n : Fin 8) (v : Word)
  /-- CMP_HI_WRITE (R54): a write of SC_CMP_HI -/
  | cmpHiWrite (req : Req) (n : Fin 8) (v : Word)
  /-- TABLE_ARM (R71): a write of SC_TBL_CTRL with ARM 1 -/
  | tableArm (req : Req) (v : Word)
  /-- TABLE_CHECK_COMPLETE (R574): the check of the shadow copy completes; whether it finds a parity error -/
  | tableCheckComplete (dt : Nat) (parity : Bool)
  /-- TABLE_CANCEL (R74): a write of SC_TBL_CTRL with CANCEL 1 -/
  | tableCancel (req : Req) (v : Word)
  /-- SLOT_TABLE_WRITE (R75): a write to a slot-table copy or a budget set -/
  | slotTableWrite (req : Req) (off : BitVec 22) (v : Word)
  /-- ISSUE_WINDOW (R66): an issue window opens on a channel whose controller accepts so many commands; whether the lookup finds a parity error -/
  | issueWindow (dt : Nat) (ch : Chan) (accept : Nat) (parity : Bool)
  /-- MEMRD (R80): an M2S MemRd -/
  | memRd (dt : Nat) (p : Port) (m : M2S)
  /-- MEMWR (R80): an M2S MemWr -/
  | memWr (dt : Nat) (p : Port) (m : M2S) (poison : Bool) (data : Line)
  /-- MEMWRPTL (R93): an M2S MemWrPtl -/
  | memWrPtl (dt : Nat) (p : Port) (m : M2S) (poison : Bool) (data : Line) (mask : BitVec 64)
  /-- HELD_RELEASE (R95): a HELD entry is released -/
  | heldRelease (dt : Nat) (p : Port) (idx : Fin 8192)
  /-- RESPONSE_HANDOVER (R95): a response enters the boundary queue -/
  | responseHandover (dt : Nat) (p : Port) (idx : Fin 8192)
  /-- TXN_LIMIT_EXPIRY (R104): an entry's transaction limit expires -/
  | txnLimitExpiry (dt : Nat) (p : Port) (idx : Fin 8192)
  /-- TXN_FAIL (R105): an entry is failed -/
  | txnFail (dt : Nat) (p : Port) (idx : Fin 8192)
  /-- LEDGER_SCAN (R97): the port reads every open entry; the entries with a correctable upset, and those with an uncorrectable one and the
  bits that it has flipped -/
  | ledgerScan (dt : Nat) (p : Port) (ce : List (Fin 8192)) (ue : List (Fin 8192 × BitVec 128))
  /-- LEDGER_CAPTURE (R114): a write of HP_LED_IDX -/
  | ledgerCapture (req : Req) (p : Port) (v : Word)
  /-- TXN_LIMIT_WRITE (R104): a write of HP_TXN_LIMIT -/
  | txnLimitWrite (req : Req) (p : Port) (v : Word)
  /-- SEGMENT_TABLE_WRITE (R90): a write of a segment-table word -/
  | segmentTableWrite (req : Req) (seg : BitVec 12) (word : Fin 4) (v : Word)
  /-- SEGSUM_COMPUTE_DONE (R566): the recomputation of TW_SEGSUM ends -/
  | segsumComputeDone (dt : Nat)
  /-- OPERATOR_CONTROL_WORK (R112): the bay's engine takes a posted doorbell, with the command-segment lines it reads (none = uncorrectable) -/
  | operatorControlWork (dt : Nat) (bay : Bay) (lines : List (Option Line))
  /-- CHANNEL_READ_COMPLETE (R126): the last beat of a line read: its command tag and the eight interface beats -/
  | channelReadComplete (dt : Nat) (ch : Chan) (tag : BitVec 6) (beats : LineBeats)
  /-- FIRST_FAILURE_LOCATION (R129): the ten erasure trials give a result -/
  | firstFailureLocation (dt : Nat) (ch : Chan)
  /-- CHANNEL_WRITE_ACK (R102): the controller acknowledges a line write -/
  | channelWriteAck (dt : Nat) (ch : Chan) (tag : BitVec 6)
  /-- CHANNEL_CONTROLLER_ERROR (R134): the controller reports an error for a line command -/
  | channelControllerError (dt : Nat) (ch : Chan) (tag : BitVec 6)
  /-- MU_GEOM_WRITE (R119): a write of MU_GEOM -/
  | muGeomWrite (req : Req) (ch : Chan) (v : Word)
  /-- DFM_WRITE (R133): a write of a device-failure map entry -/
  | dfmWrite (req : Req) (ch : Chan) (n : Fin 16) (v : Word)
  /-- POISON_LIST_CAPTURE (R153): a write of MU_PL_IDX -/
  | poisonListCapture (req : Req) (ch : Chan) (v : Word)
  /-- POISON_LIST_REMOVE (R153): a write of MU_PL_HI -/
  | poisonListRemove (req : Req) (ch : Chan) (v : Word)
  /-- FENCE_SET (R136): a write of MU_CTRL with FENCE 1 -/
  | fenceSet (req : Req) (ch : Chan) (v : Word)
  /-- FENCE_CLEAR (R136): a write of MU_CTRL with FENCE 0 -/
  | fenceClear (req : Req) (ch : Chan) (v : Word)
  /-- MNT_GO (R137): a write of MU_MNT_CTRL with GO 1 -/
  | mntGo (req : Req) (ch : Chan) (v : Word)
  /-- MNT_ABORT (R137): a write of MU_MNT_CTRL with ABORT 1 -/
  | mntAbort (req : Req) (ch : Chan) (v : Word)
  /-- TREAD (R147): tier operation TREAD -/
  | tread (c : CtxRef) (op : TierOp)
  /-- TPUT (R147): tier operation TPUT -/
  | tput (c : CtxRef) (op : TierOp)
  /-- TZERO (R147): tier operation TZERO -/
  | tzero (c : CtxRef) (op : TierOp)
  /-- TSTORE (R148): tier operation TSTORE -/
  | tstore (c : CtxRef) (op : TierOp)
  /-- TFETCH (R149): tier operation TFETCH -/
  | tfetch (c : CtxRef) (op : TierOp)
  /-- COMPRESSOR_RESULT (R402): a compressor lane answers the tier operation of data-mover command k: whether its verification failed, and the bytes
  of the stream it made -/
  | compressorResult (dt : Nat) (k : Nat) (bad : Bool) (stream : List Byte)
  /-- DECOMPRESSOR_RESULT (R403): a decompressor lane answers the tier operation of data-mover command k with the page (`res` 0) or with the
  tier result of the first stream error -/
  | decompressorResult (dt : Nat) (k : Nat) (res : Nat) (page : List Byte)
  /-- CRYPTO_RESULT (R405): the crypto engine returns a line and its status -/
  | cryptoResult (dt : Nat) (id : Nat) (status : BitVec 4) (data : Line)
  /-- FABRIC_MESSAGE (R21): a message from a fabric port -/
  | fabricMessage (dt : Nat) (fport : BitVec 4) (m : FabMsg)
  /-- HELLO (R181): a HELLO from the partner -/
  | hello (dt : Nat) (h : TwHdr) (m : HelloMsg)
  /-- BCN (R182): a beacon from the partner -/
  | bcn (dt : Nat) (h : TwHdr) (frame : FrameIx) (ver : Word) (state : BitVec 3)
  /-- KEEP (R177): a KEEP message -/
  | keep (dt : Nat) (h : TwHdr)
  /-- LCPY (R160): a ledger copy from the partner -/
  | lcpy (dt : Nat) (h : TwHdr) (c : LedCopy)
  /-- LACK (R160): the partner has the copy of an entry -/
  | lack (dt : Nat) (h : TwHdr) (p : Port) (idx : Fin 8192)
  /-- LFREE (R160): the partner freed an entry -/
  | lfree (dt : Nat) (h : TwHdr) (p : Port) (idx : Fin 8192)
  /-- WRQ (R165): a commit request from the primary -/
  | wrq (dt : Nat) (h : TwHdr) (addr : PAddr) (ref : OriginRef) (stamp : FrameIx) (mta : Word) (merged : Option Line)
  /-- ACK (R167): the secondary has staged a write -/
  | ack (dt : Nat) (h : TwHdr) (ref : OriginRef) (stamp : FrameIx)
  /-- NAK_LATE (R166): a stamp was too old -/
  | nakLate (dt : Nat) (h : TwHdr) (ref : OriginRef) (frame : FrameIx)
  /-- NAK_LINK (R159): the partner rejected a message -/
  | nakLink (dt : Nat) (h : TwHdr) (msg : Nat)
  /-- MRD (R174): a mirror read of the partner, or its request for an RCP (log) -/
  | mrd (dt : Nat) (h : TwHdr) (addr : PAddr) (copy : Bool)
  /-- MRS (R174): the answer to a mirror read, none where the copy is not intact -/
  | mrs (dt : Nat) (h : TwHdr) (addr : PAddr) (copy : Option (Line × Word))
  /-- RCP (R172): a reconciliation or resync copy -/
  | rcp (dt : Nat) (h : TwHdr) (addr : PAddr) (data : Line) (mta : Word)
  /-- VRQ (R175): a verify-walk digest -/
  | vrq (dt : Nat) (h : TwHdr) (addr : PAddr) (mta crc : Word)
  /-- FWD (R158): a request forwarded from the partner -/
  | fwd (dt : Nat) (h : TwHdr) (r : RemReq)
  /-- FWR (R158): the answer to a forwarded request -/
  | fwr (dt : Nat) (h : TwHdr) (r : RemRsp)
  /-- BYE (R188): a BYE message -/
  | bye (dt : Nat) (h : TwHdr)
  /-- MIRROR_GEN_READ_COMPLETE (R164): the generation read of a mirrored write, by its number, has completed -/
  | mirrorGenReadComplete (dt : Nat) (id : Nat)
  /-- TW_HB_PULSE (R176): a heartbeat pulse of the partner -/
  | twHbPulse (dt : Nat)
  /-- TWIN_SILENCE (R177): sixteen slots with no pulse and no message -/
  | twinSilence (dt : Nat)
  /-- HEARTBEAT_LINE_FAULT (R178): sixteen slots without pulses while messages arrive -/
  | heartbeatLineFault (dt : Nat)
  /-- MESSAGE_SILENCE (R178): sixteen slots without a message while pulses arrive -/
  | messageSilence (dt : Nat)
  /-- TW_FAIL_N_ASSERT (R177): TW_FAIL_N asserted by the partner -/
  | twFailNAssert (dt : Nat)
  /-- TW_PRES_N_DEASSERT (R177): TW_PRES_N deasserted -/
  | twPresNDeassert (dt : Nat)
  /-- TWIN_LINK_DOWN (R178): the twin link goes down -/
  | twinLinkDown (dt : Nat)
  /-- TW_PAIR (R180): a write of TW_CTRL, with the levels at the Twin Port's pins -/
  | twPair (req : Req) (v : Word) (pin : TwPins)
  /-- TW_LEAVE (R188): a write of TW_CTRL with LEAVE 1 -/
  | twLeave (req : Req) (v : Word)
  /-- LEAVE_DRAINED (R188): the leaving chip has drained -/
  | leaveDrained (dt : Nat)
  /-- TW_FAIL (R179): a write of TW_CTRL with FAIL 1 -/
  | twFail (req : Req) (v : Word)
  /-- VERIFY_WALK_START (R175): a write of TW_CTRL with VFYGO 1 -/
  | verifyWalkStart (req : Req) (v : Word)
  /-- RESYNC_DONE (R189): the joiner has written every resync copy -/
  | resyncDone (dt : Nat)
  /-- INTERRUPT_ENTRY (R209): an eligible interrupt of the context runs the entry -/
  | interruptEntry (dt : Nat) (c : CtxRef)
  /-- DEFERRED_POOL_DATA (R334): the deferred fault of the context is raised -/
  | deferredPoolData (dt : Nat) (c : CtxRef)
  /-- MICROWORD_EXECUTE (R232): the context executes one microword: the ROM word and parity at its microaddress, the bits in error of the word
  fetched, and whether the dispatch entry that it reads has a parity error (R239) -/
  | microwordExecute (dt : Nat) (c : CtxRef) (rom flip : BitVec 161) (dpar : Bool)
  /-- MOVE_COMPLETE (R217): the move of a bay completes, or its receiver fails the control-store check; contexts with an uncorrectable register -/
  | moveComplete (dt : Nat) (bay : Bay) (bad : Bool) (regs : List (Fin 8))
  /-- ENGINE_RETIRE (R216): a write of EA_ENG_CTRL with RETIRE 1 -/
  | engineRetire (req : Req) (bay : Bay) (e : Fin 9) (v : Word)
  /-- PLANNED_SWAP_ARM (R222): a write of EA_SWAP with ARM 1 -/
  | plannedSwapArm (req : Req) (bay : Bay) (v : Word)
  /-- ERROR_INJECT (R224): a write of EA_ENG_CTRL with INJ 1 -/
  | errorInject (req : Req) (bay : Bay) (e : Fin 9) (v : Word)
  /-- LIRQ_SET (R224): a write of EA_CTX_LIRQ -/
  | lirqSet (req : Req) (bay : Bay) (e : Fin 9) (n : Fin 8) (v : Word)
  /-- BAY_ENABLE (R240): a write of EA_BAY_CTRL -/
  | bayEnable (req : Req) (bay : Bay) (v : Word)
  /-- CONTEXT_TIMER_EXPIRY (R252): a context timer counts to zero -/
  | contextTimerExpiry (dt : Nat) (c : CtxRef)
  /-- COPROCESSOR_RESULT (R388): operation k writes its result; for a socket, its answer and flags; whether the transfer had a parity error -/
  | coprocessorResult (dt : Nat) (k : Nat) (ans : BitVec 64) (flags : BitVec 5) (par : Bool)
  /-- SOCKET_TIMEOUT (R401): the socket has not answered operation k in 4096 cycles -/
  | socketTimeout (dt : Nat) (k : Nat)
  /-- DATA_MOVER_COMPLETE (R293): data-mover command k completes -/
  | dataMoverComplete (dt : Nat) (k : Nat)
  /-- POOL_WINDOW_COMPLETE (R283): pool-window access k completes -/
  | poolWindowComplete (dt : Nat) (k : Nat)
  /-- MOV (R299): Zaell instruction -/
  | zMov (c : CtxRef) (f : ZFmt)
  /-- ADD (R299): Zaell instruction -/
  | zAdd (c : CtxRef) (f : ZFmt)
  /-- ADC (R299): Zaell instruction -/
  | zAdc (c : CtxRef) (f : ZFmt)
  /-- SUB (R299): Zaell instruction -/
  | zSub (c : CtxRef) (f : ZFmt)
  /-- SBB (R299): Zaell instruction -/
  | zSbb (c : CtxRef) (f : ZFmt)
  /-- CMP (R299): Zaell instruction -/
  | zCmp (c : CtxRef) (f : ZFmt)
  /-- AND (R299): Zaell instruction -/
  | zAnd (c : CtxRef) (f : ZFmt)
  /-- OR (R299): Zaell instruction -/
  | zOr (c : CtxRef) (f : ZFmt)
  /-- XOR (R299): Zaell instruction -/
  | zXor (c : CtxRef) (f : ZFmt)
  /-- ANDN (R299): Zaell instruction -/
  | zAndn (c : CtxRef) (f : ZFmt)
  /-- TST (R299): Zaell instruction -/
  | zTst (c : CtxRef) (f : ZFmt)
  /-- NEG (R299): Zaell instruction -/
  | zNeg (c : CtxRef) (f : ZFmt)
  /-- NOT (R299): Zaell instruction -/
  | zNot (c : CtxRef) (f : ZFmt)
  /-- SEXB (R299): Zaell instruction -/
  | zSexb (c : CtxRef) (f : ZFmt)
  /-- ZEXB (R299): Zaell instruction -/
  | zZexb (c : CtxRef) (f : ZFmt)
  /-- SWAB (R299): Zaell instruction -/
  | zSwab (c : CtxRef) (f : ZFmt)
  /-- MIN (R302): Zaell instruction -/
  | zMin (c : CtxRef) (f : ZFmt)
  /-- MAX (R302): Zaell instruction -/
  | zMax (c : CtxRef) (f : ZFmt)
  /-- MINU (R302): Zaell instruction -/
  | zMinu (c : CtxRef) (f : ZFmt)
  /-- MAXU (R302): Zaell instruction -/
  | zMaxu (c : CtxRef) (f : ZFmt)
  /-- ABS (R302): Zaell instruction -/
  | zAbs (c : CtxRef) (f : ZFmt)
  /-- MOVI (R300): Zaell instruction -/
  | zMovi (c : CtxRef) (f : ZFmt)
  /-- ADDI (R300): Zaell instruction -/
  | zAddi (c : CtxRef) (f : ZFmt)
  /-- CMPI (R300): Zaell instruction -/
  | zCmpi (c : CtxRef) (f : ZFmt)
  /-- LD (R300): Zaell instruction -/
  | zLd (c : CtxRef) (f : ZFmt)
  /-- ST (R300): Zaell instruction -/
  | zSt (c : CtxRef) (f : ZFmt)
  /-- BCC (R300): Zaell instruction -/
  | zBcc (c : CtxRef) (f : ZFmt)
  /-- NOP (R301): Zaell instruction -/
  | zNop (c : CtxRef) (f : ZFmt)
  /-- YIELD (R301): Zaell instruction -/
  | zYield (c : CtxRef) (f : ZFmt)
  /-- RET (R289): Zaell instruction -/
  | zRet (c : CtxRef) (f : ZFmt)
  /-- END (R301): Zaell instruction -/
  | zEnd (c : CtxRef) (f : ZFmt)
  /-- UNLK (R325): Zaell instruction -/
  | zUnlk (c : CtxRef) (f : ZFmt)
  /-- INC (R301): Zaell instruction -/
  | zInc (c : CtxRef) (f : ZFmt)
  /-- DEC (R301): Zaell instruction -/
  | zDec (c : CtxRef) (f : ZFmt)
  /-- CLR (R301): Zaell instruction -/
  | zClr (c : CtxRef) (f : ZFmt)
  /-- LSLI (R301): Zaell instruction -/
  | zLsli (c : CtxRef) (f : ZFmt)
  /-- LSRI (R301): Zaell instruction -/
  | zLsri (c : CtxRef) (f : ZFmt)
  /-- ASRI (R301): Zaell instruction -/
  | zAsri (c : CtxRef) (f : ZFmt)
  /-- RORI (R301): Zaell instruction -/
  | zRori (c : CtxRef) (f : ZFmt)
  /-- MOVS (R317): Zaell instruction; `stop` = the elements after which an interrupt entry stops it (R210) -/
  | zMovs (c : CtxRef) (f : ZFmt) (stop : Option Nat)
  /-- FILLS (R317): Zaell instruction; `stop` = the elements after which an interrupt entry stops it (R210) -/
  | zFills (c : CtxRef) (f : ZFmt) (stop : Option Nat)
  /-- CMPS (R317): Zaell instruction; `stop` = the elements after which an interrupt entry stops it (R210) -/
  | zCmps (c : CtxRef) (f : ZFmt) (stop : Option Nat)
  /-- SCNS (R317): Zaell instruction; `stop` = the elements after which an interrupt entry stops it (R210) -/
  | zScns (c : CtxRef) (f : ZFmt) (stop : Option Nat)
  /-- CRCS (R314): Zaell instruction; `stop` = the elements after which an interrupt entry stops it (R210) -/
  | zCrcs (c : CtxRef) (f : ZFmt) (stop : Option Nat)
  /-- MOVW (R304): Zaell instruction -/
  | zMovw (c : CtxRef) (f : ZFmt)
  /-- ADDW (R304): Zaell instruction -/
  | zAddw (c : CtxRef) (f : ZFmt)
  /-- CMPW (R304): Zaell instruction -/
  | zCmpw (c : CtxRef) (f : ZFmt)
  /-- ANDW (R304): Zaell instruction -/
  | zAndw (c : CtxRef) (f : ZFmt)
  /-- ORW (R304): Zaell instruction -/
  | zOrw (c : CtxRef) (f : ZFmt)
  /-- XORW (R304): Zaell instruction -/
  | zXorw (c : CtxRef) (f : ZFmt)
  /-- TSTW (R304): Zaell instruction -/
  | zTstw (c : CtxRef) (f : ZFmt)
  /-- ADDP (R304): Zaell instruction -/
  | zAddp (c : CtxRef) (f : ZFmt)
  /-- CMPP (R304): Zaell instruction -/
  | zCmpp (c : CtxRef) (f : ZFmt)
  /-- MOVP (R304): Zaell instruction -/
  | zMovp (c : CtxRef) (f : ZFmt)
  /-- MOVH (R304): Zaell instruction -/
  | zMovh (c : CtxRef) (f : ZFmt)
  /-- LDW (R305): Zaell instruction -/
  | zLdw (c : CtxRef) (f : ZFmt)
  /-- STW (R305): Zaell instruction -/
  | zStw (c : CtxRef) (f : ZFmt)
  /-- LDP (R305): Zaell instruction -/
  | zLdp (c : CtxRef) (f : ZFmt)
  /-- STP (R305): Zaell instruction -/
  | zStp (c : CtxRef) (f : ZFmt)
  /-- LDQ (R305): Zaell instruction -/
  | zLdq (c : CtxRef) (f : ZFmt)
  /-- STQ (R305): Zaell instruction -/
  | zStq (c : CtxRef) (f : ZFmt)
  /-- LDLK (R322): Zaell instruction -/
  | zLdlk (c : CtxRef) (f : ZFmt)
  /-- STUL (R325): Zaell instruction -/
  | zStul (c : CtxRef) (f : ZFmt)
  /-- LEA (R305): Zaell instruction -/
  | zLea (c : CtxRef) (f : ZFmt)
  /-- JMP (R307): Zaell instruction -/
  | zJmp (c : CtxRef) (f : ZFmt)
  /-- CALL (R307): Zaell instruction -/
  | zCall (c : CtxRef) (f : ZFmt)
  /-- EXT (R308): Zaell instruction -/
  | zExt (c : CtxRef) (f : ZFmt)
  /-- EXTS (R308): Zaell instruction -/
  | zExts (c : CtxRef) (f : ZFmt)
  /-- INS (R308): Zaell instruction -/
  | zIns (c : CtxRef) (f : ZFmt)
  /-- EXTP (R308): Zaell instruction -/
  | zExtp (c : CtxRef) (f : ZFmt)
  /-- EXTSP (R308): Zaell instruction -/
  | zExtsp (c : CtxRef) (f : ZFmt)
  /-- INSP (R308): Zaell instruction -/
  | zInsp (c : CtxRef) (f : ZFmt)
  /-- CRCW (R314): Zaell instruction -/
  | zCrcw (c : CtxRef) (f : ZFmt)
  /-- PARW (R308): Zaell instruction -/
  | zParw (c : CtxRef) (f : ZFmt)
  /-- BREV (R308): Zaell instruction -/
  | zBrev (c : CtxRef) (f : ZFmt)
  /-- SHR (R309): Zaell instruction -/
  | zShr (c : CtxRef) (f : ZFmt)
  /-- CLZ (R308): Zaell instruction -/
  | zClz (c : CtxRef) (f : ZFmt)
  /-- DMV (R292): Zaell instruction -/
  | zDmv (c : CtxRef) (f : ZFmt)
  /-- DMVM (R292): Zaell instruction -/
  | zDmvm (c : CtxRef) (f : ZFmt)
  /-- MULU16 (R392): Zaell instruction -/
  | zMulu16 (c : CtxRef) (f : ZFmt)
  /-- MULS16 (R392): Zaell instruction -/
  | zMuls16 (c : CtxRef) (f : ZFmt)
  /-- MULU32 (R392): Zaell instruction -/
  | zMulu32 (c : CtxRef) (f : ZFmt)
  /-- MULS32 (R392): Zaell instruction -/
  | zMuls32 (c : CtxRef) (f : ZFmt)
  /-- DIVU16 (R393): Zaell instruction -/
  | zDivu16 (c : CtxRef) (f : ZFmt)
  /-- DIVS16 (R393): Zaell instruction -/
  | zDivs16 (c : CtxRef) (f : ZFmt)
  /-- DIVU32 (R393): Zaell instruction -/
  | zDivu32 (c : CtxRef) (f : ZFmt)
  /-- DIVS32 (R393): Zaell instruction -/
  | zDivs32 (c : CtxRef) (f : ZFmt)
  /-- FADD (R396): Zaell instruction -/
  | zFadd (c : CtxRef) (f : ZFmt)
  /-- FSUB (R396): Zaell instruction -/
  | zFsub (c : CtxRef) (f : ZFmt)
  /-- FMUL (R396): Zaell instruction -/
  | zFmul (c : CtxRef) (f : ZFmt)
  /-- FDIV (R396): Zaell instruction -/
  | zFdiv (c : CtxRef) (f : ZFmt)
  /-- FCMP (R397): Zaell instruction -/
  | zFcmp (c : CtxRef) (f : ZFmt)
  /-- FMIN (R397): Zaell instruction -/
  | zFmin (c : CtxRef) (f : ZFmt)
  /-- FMAX (R397): Zaell instruction -/
  | zFmax (c : CtxRef) (f : ZFmt)
  /-- FCVT_D_S (R398): Zaell instruction -/
  | zFcvtDS (c : CtxRef) (f : ZFmt)
  /-- FCVT_S_D (R398): Zaell instruction -/
  | zFcvtSD (c : CtxRef) (f : ZFmt)
  /-- FCVT_D_W (R398): Zaell instruction -/
  | zFcvtDW (c : CtxRef) (f : ZFmt)
  /-- FCVT_W_D (R398): Zaell instruction -/
  | zFcvtWD (c : CtxRef) (f : ZFmt)
  /-- SOCKET_OP (R400): Zaell instruction -/
  | zSocketOp (c : CtxRef) (f : ZFmt)
  /-- MFS (R312): Zaell instruction -/
  | zMfs (c : CtxRef) (f : ZFmt)
  /-- MTS (R273): Zaell instruction -/
  | zMts (c : CtxRef) (f : ZFmt)
  /-- SETBK (R312): Zaell instruction -/
  | zSetbk (c : CtxRef) (f : ZFmt)
  /-- SRM (R312): Zaell instruction -/
  | zSrm (c : CtxRef) (f : ZFmt)
  /-- EI (R312): Zaell instruction -/
  | zEi (c : CtxRef) (f : ZFmt)
  /-- DI (R312): Zaell instruction -/
  | zDi (c : CtxRef) (f : ZFmt)
  /-- TRAP (R331): Zaell instruction -/
  | zTrap (c : CtxRef) (f : ZFmt)
  /-- CALL_GATE (R345): Zaell instruction -/
  | zCallGate (c : CtxRef) (f : ZFmt)
  /-- CREATE_GATE (R346): Zaell instruction -/
  | zCreateGate (c : CtxRef) (f : ZFmt)
  /-- CLEAR_GATE (R347): Zaell instruction -/
  | zClearGate (c : CtxRef) (f : ZFmt)
  /-- RTE (R341): Zaell instruction -/
  | zRte (c : CtxRef) (f : ZFmt)
  /-- PATCH_GO (R259): a write of CS_PATCH_CTRL with GO 1 -/
  | patchGo (req : Req) (v : Word)
  /-- PATCH_LOAD_COMPLETE (R260): the loader has checked the image -/
  | patchLoadComplete (dt : Nat)
  /-- PATCH_ACT (R260): a write of CS_PATCH_CTRL with ACT 1 -/
  | patchAct (req : Req) (v : Word)
  /-- MATCH_REGISTER_WRITE (R257): a write of CS_MATCH_ADDR or CS_MATCH_TGT -/
  | matchRegisterWrite (req : Req) (bay : Bay) (n : Fin 64) (tgt : Bool) (v : Word)
  /-- CHAIN_START (R371): a chain of submission sub starts on its units -/
  | chainStart (dt : Nat) (sub chain : Nat)
  /-- SIEVE_LINE (R382): the line that the Sieve unit of a bay awaits enters it -/
  | sieveLine (dt : Nat) (bay : Bay)
  /-- SUBMISSION_COMPLETE (R113): the result lines of a submission have completed -/
  | submissionComplete (dt : Nat) (sub : Nat)
  /-- SIEVE_ABORT (R377): a write of SV_CTRL with ABORT 1 -/
  | sieveAbort (req : Req) (v : Word)
  /-- SIEVE_ENABLE (R378): a write of SV_CTRL -/
  | sieveEnable (req : Req) (v : Word)
  /-- XBUF_OWN_WRITE (R412): a write of BM_XBUF_OWN -/
  | xbufOwnWrite (by_ : XbufBy) (bay : Bay) (n : Fin 64) (v : Word)
  /-- BM_CORRECTION_WRITEBACK (R416): the corrected word at a bay word address is written back -/
  | bmCorrectionWriteback (dt : Nat) (bay : Bay) (w : BitVec 19)
  /-- BIST_START (R419): a write of BM_CTRL with BIST 1 -/
  | bistStart (req : Req) (bay : Bay) (v : Word)
  /-- BIST_COMPLETE (R420): self-test ends, with the failing columns by array -/
  | bistComplete (dt : Nat) (bay : Bay) (bad : List (Fin 5 × Fin 44))
  /-- CLEARING_COMPLETE (R421): clearing ends -/
  | clearingComplete (dt : Nat) (bay : Bay)
  /-- MEMORY_OFF (R422): a write of BM_CTRL with OFF 1 -/
  | memoryOff (req : Req) (bay : Bay) (v : Word)
  /-- MEMORY_WAKE (R422): a write of BM_CTRL with OFF 0 -/
  | memoryWake (req : Req) (bay : Bay) (v : Word)
  /-- OFFER_ASSIGN (R431): the controller assigns offers; `bad` lists the entries whose parity error it finds, by source and kind: 0 pending,
  1 mask, 2 route (R452) -/
  | offerAssign (dt : Nat) (bad : List (Fin 250 × Fin 3))
  /-- OFFER_RELEASE (R435): a held offer meets a moderation condition -/
  | offerRelease (dt : Nat) (t : Fin 34)
  /-- EVENT_CLAIM (R432): a normal read of EV_CLAIM -/
  | eventClaim (req : Req) (t : Fin 34)
  /-- EVENT_DONE (R433): a write of EV_DONE -/
  | eventDone (req : Req) (t : Fin 34) (v : Word)
  /-- FREEZE_START (R430): a write of EV_FRZ with FRZ 1 -/
  | freezeStart (req : Req) (v : Word)
  /-- FREEZE_END (R430): a write of EV_FRZ with FRZ 0 -/
  | freezeEnd (req : Req) (v : Word)
  /-- FREEZE_TIMEOUT (R430): the freeze limit passes -/
  | freezeTimeout (dt : Nat)
  /-- EV_PEND_MASK_WRITE (R429): a write of EV_PEND or EV_MASK -/
  | evPendMaskWrite (req : Req) (mask : Bool) (n : Fin 8) (v : Word)
  /-- EV_BAYCLK_WRITE (R439): a write of EV_BAYCLK -/
  | evBayclkWrite (req : Req) (v : Word)
  /-- BAY_CLOCK_STOP (R437): a bay's clocks stop -/
  | bayClockStop (dt : Nat) (bay : Bay)
  /-- BAY_CLOCK_WAKE (R438): a stopped bay whose latches have caught an edge runs again -/
  | bayClockWake (dt : Nat) (bay : Bay)
  /-- CONTEXT_WATCHDOG_EXPIRY (R442): a context watchdog expires -/
  | contextWatchdogExpiry (dt : Nat) (c : CtxRef)
  /-- ENGINE_WATCHDOG_EXPIRY (R443): an engine watchdog expires -/
  | engineWatchdogExpiry (dt : Nat) (bay : Bay) (e : Fin 9)
  /-- BAY_WATCHDOG_EXPIRY (R444): a bay watchdog expires -/
  | bayWatchdogExpiry (dt : Nat) (bay : Bay)
  /-- BLOCK_WATCHDOG_EXPIRY (R445): the block watchdog expires -/
  | blockWatchdogExpiry (dt : Nat)
  /-- BAY_WATCHDOG_KICK (R445): a write of EV_BWD_KICK -/
  | bayWatchdogKick (req : Req) (bay : Bay) (v : Word)
  /-- BLOCK_WATCHDOG_KICK (R445): a write of EV_BLK_KICK -/
  | blockWatchdogKick (req : Req) (v : Word)
  /-- BLOCK_WATCHDOG_ARM (R445): a write of EV_BLK_WD with ARM 1 -/
  | blockWatchdogArm (req : Req) (v : Word)
  /-- BR (R457): pin-engine BR -/
  | peBr (dt : Nat) (n : Fin 32) (pads : BitVec 128)
  /-- HOLD (R457): pin-engine HOLD -/
  | peHold (dt : Nat) (n : Fin 32) (pads : BitVec 128)
  /-- PAUSE (R455): pin-engine PAUSE -/
  | pePause (dt : Nat) (n : Fin 32) (pads : BitVec 128)
  /-- SHIN (R458): pin-engine SHIN -/
  | peShin (dt : Nat) (n : Fin 32) (pads : BitVec 128)
  /-- SHOUT (R458): pin-engine SHOUT -/
  | peShout (dt : Nat) (n : Fin 32) (pads : BitVec 128)
  /-- FIFO_LOAD (R459): pin-engine FIFO LOAD -/
  | peFifoLoad (dt : Nat) (n : Fin 32) (pads : BitVec 128)
  /-- FIFO_STORE (R459): pin-engine FIFO STORE -/
  | peFifoStore (dt : Nat) (n : Fin 32) (pads : BitVec 128)
  /-- FIFO_LOADIF (R459): pin-engine FIFO LOADIF -/
  | peFifoLoadif (dt : Nat) (n : Fin 32) (pads : BitVec 128)
  /-- FIFO_STOREIF (R459): pin-engine FIFO STOREIF -/
  | peFifoStoreif (dt : Nat) (n : Fin 32) (pads : BitVec 128)
  /-- PUT (R457): pin-engine PUT -/
  | pePut (dt : Nat) (n : Fin 32) (pads : BitVec 128)
  /-- COPY (R457): pin-engine COPY -/
  | peCopy (dt : Nat) (n : Fin 32) (pads : BitVec 128)
  /-- SIGNAL (R457): pin-engine SIGNAL -/
  | peSignal (dt : Nat) (n : Fin 32) (pads : BitVec 128)
  /-- SWAP (R458): pin-engine SWAP -/
  | peSwap (dt : Nat) (n : Fin 32) (pads : BitVec 128)
  /-- PE_NOP (R457): pin-engine NOP -/
  | peNop (dt : Nat) (n : Fin 32) (pads : BitVec 128)
  /-- STOP (R460): pin-engine STOP -/
  | peStop (dt : Nat) (n : Fin 32) (pads : BitVec 128)
  /-- PE_START (R461): a write of SB_PE_CTRL with EN 1 -/
  | peStart (req : Req) (n : Fin 32) (v : Word)
  /-- PE_STOP_WRITE (R462): a write of SB_PE_CTRL with EN 0 -/
  | peStopWrite (req : Req) (n : Fin 32) (v : Word)
  /-- PE_GROUP_START (R461): a write of SB_PE_GSTART -/
  | peGroupStart (req : Req) (v : Word)
  /-- PE_PROGRAM_WRITE (R462): a write of a program-memory word -/
  | peProgramWrite (req : Req) (n : Fin 32) (k : Fin 16) (v : Word)
  /-- FLAG_SET (R463): a write of SB_PE_FSET -/
  | flagSet (req : Req) (v : Word)
  /-- FLAG_CLEAR (R463): a write of SB_PE_FCLR -/
  | flagClear (req : Req) (v : Word)
  /-- PE_TX_WRITE (R467): a write of SB_PE_TX -/
  | peTxWrite (req : Req) (n : Fin 32) (v : Word)
  /-- PE_RX_READ (R467): a normal read of SB_PE_RX -/
  | peRxRead (req : Req) (n : Fin 32)
  /-- PE_FARB_WRITE (R468): a write of SB_PE_CTRL that changes FARB -/
  | peFarbWrite (req : Req) (n : Fin 32) (v : Word)
  /-- PAD_OWN_WRITE (R465): a write of SB_PAD_OWN -/
  | padOwnWrite (req : Req) (n : Fin 128) (v : Word)
  /-- PMBUS_POLL (R478): the 10 ms poll starts -/
  | pmbusPoll (dt : Nat)
  /-- PMBUS_ANSWER (R478): the arbiter takes an answer from the receive FIFO of its engine -/
  | pmbusAnswer (dt : Nat)
  /-- PMBUS_TIMEOUT (R478): no answer in 2 000 000 cycles -/
  | pmbusTimeout (dt : Nat)
  /-- PWR_ALERT_N_ASSERT (R479): an assertion of PWR_ALERT_N -/
  | pwrAlertNAssert (dt : Nat)
  /-- PWR_GOOD_CHANGE (R479): PWR_GOOD changes -/
  | pwrGoodChange (dt : Nat) (level : Bool)
  /-- SLOT_REQUEST (R480): a write of SB_SLOT_REQ -/
  | slotRequest (req : Req) (v : Word)
  /-- SLOT_OFF (R480): a write of SB_SLOT_OFF -/
  | slotOff (req : Req) (v : Word)
  /-- SLOT_START (R482): it is the turn of queued power slot k -/
  | slotStart (dt : Nat) (k : Fin 16)
  /-- ENERGY_LIMIT_WRITE (R481): a write of SB_SLOT_CFG, SB_SLOT_ELIM or SB_PWR_VLIM -/
  | energyLimitWrite (req : Req) (off : BitVec 22) (v : Word)
  /-- CERT_LOAD (R489): a write of TD_CERT_CTRL with LOAD 1 -/
  | certLoad (req : Req) (v : Word)
  /-- GET_VERSION (R490): an SPDM request -/
  | getVersion (dt : Nat)
  /-- GET_CAPABILITIES (R490): an SPDM request -/
  | getCapabilities (dt : Nat)
  /-- NEGOTIATE_ALGORITHMS (R490): an SPDM request -/
  | negotiateAlgorithms (dt : Nat)
  /-- GET_DIGESTS (R490): an SPDM request -/
  | getDigests (dt : Nat)
  /-- GET_CERTIFICATE (R490): an SPDM request: slot, offset and length of the portion -/
  | getCertificate (dt : Nat) (slot off len : Nat)
  /-- CHALLENGE (R490): an SPDM request: slot, measurement summary type, nonce -/
  | challenge (dt : Nat) (slot : Nat) (meas : Byte) (nonce : BitVec 256)
  /-- GET_MEASUREMENTS (R491): an SPDM request: measurement index, whether signed, nonce -/
  | getMeasurements (dt : Nat) (index : Byte) (sign : Bool) (nonce : BitVec 256)
  /-- SPDM_UNSUPPORTED_REQUEST (R490): any other SPDM request -/
  | spdmUnsupportedRequest (dt : Nat) (code : Byte)
  /-- SPDM_SIGNED_RESPONSE (R490): the signature of the response in progress is ready -/
  | spdmSignedResponse (dt : Nat)
  /-- DEBUG_AUTH_TOKEN (R495): a write of TD_DBG_CTRL with AUTH 1 and MODE 0 -/
  | debugAuthToken (req : Req) (v : Word)
  /-- DEBUG_AUTH_PASSWORD (R495): a write of TD_DBG_CTRL with AUTH 1 and MODE 1 -/
  | debugAuthPassword (req : Req) (v : Word)
  /-- DEBUG_AUTH_RESULT (R496): the attempt ends, and a new nonce is drawn -/
  | debugAuthResult (dt : Nat) (nonce : BitVec 384)
  /-- DEBUG_DROP (R497): a write of TD_DBG_CTRL with DROP 1 -/
  | debugDrop (req : Req) (v : Word)
  /-- RBG_HEALTH_FAIL (R515): the health test fails -/
  | rbgHealthFail (dt : Nat)
  /-- MONITOR_DOOR (R498): a write of TD_MON_DOOR -/
  | monitorDoor (req : Req) (v : Word)
  /-- STATUS (R499): monitor command STATUS -/
  | monStatus (dt : Nat)
  /-- READ_REG (R501): monitor command READ_REG -/
  | monReadReg (dt : Nat) (off : BitVec 22) (count : Nat) (normal : Bool)
  /-- WRITE_REG (R501): monitor command WRITE_REG -/
  | monWriteReg (dt : Nat) (off : BitVec 22) (vals : List Word)
  /-- READ_BM (R502): monitor command READ_BM -/
  | monReadBm (dt : Nat) (bay addr count : Nat)
  /-- WRITE_BM (R502): monitor command WRITE_BM -/
  | monWriteBm (dt : Nat) (bay addr : Nat) (ws : List Half)
  /-- HALT (R505): monitor command HALT -/
  | monHalt (dt : Nat) (d : Domain) (force : Bool)
  /-- RELEASE (R507): monitor command RELEASE -/
  | monRelease (dt : Nat) (d : Domain)
  /-- STEP (R508): monitor command STEP -/
  | monStep (dt : Nat) (e c : Nat) (uword : Bool)
  /-- READ_CTX (R499): monitor command READ_CTX -/
  | monReadCtx (dt : Nat) (e c item count : Nat)
  /-- WRITE_CTX (R499): monitor command WRITE_CTX -/
  | monWriteCtx (dt : Nat) (e c item : Nat) (v : Word)
  /-- BREAK (R499): monitor command BREAK -/
  | monBreak (dt : Nat) (bay n : Nat) (en : Bool) (rom : BitVec 13) (mask : Byte)
  /-- XT_CFG (R504): monitor command XT_CFG -/
  | monXtCfg (dt : Nat) (ch : Nat) (cfg : XtCfg)
  /-- EVENTS (R499): monitor command EVENTS -/
  | monEvents (dt : Nat)
  /-- FUSE_PROG (R512): monitor command FUSE_PROG, with the level of VPP_FUSE and the bits of the entry that do not read back set -/
  | monFuseProg (dt : Nat) (bay arr ent : Nat) (vpp : Vpp) (fail : BitVec 7)
  /-- DEFERRED_HALT_TRIGGER (R506): a deferred halt whose lock is released is performed -/
  | deferredHaltTrigger (dt : Nat)
  /-- TEST_RAISE (R526): a write of PAGE_CTRL with TRAISE 1 -/
  | testRaise (req : Req) (page : BitVec 22) (v : Word)
  /-- PAGE_LOCK_WRITE (R527): a write of PAGE_LOCK -/
  | pageLockWrite (req : Req) (page : BitVec 22) (v : Word)
  /-- ERR_CODE_READ (R524): a normal read of ERR_CODE -/
  | errCodeRead (req : Req) (page : BitVec 22)
  /-- ERR_INFO_READ (R524): a normal read of ERR_INFO -/
  | errInfoRead (req : Req) (page : BitVec 22)
  /-- ATTN_SET (R530): a write of BLK_ATTN_SET -/
  | attnSet (req : Req) (v : Word)
  /-- TAP_RESET (R553): the test port is reset -/
  | tapReset
  /-- IDCODE (R553): test-port instruction IDCODE -/
  | tapIdcode
  /-- SAMPLE_PRELOAD (R553): test-port instruction SAMPLE or PRELOAD, with the levels at the balls by boundary cell and the bits shifted in -/
  | tapSamplePreload (balls shift : BitVec 412)
  /-- EXTEST (R555): test-port instruction EXTEST -/
  | tapExtest
  /-- CLAMP (R555): test-port instruction CLAMP -/
  | tapClamp
  /-- HIGHZ (R555): test-port instruction HIGHZ -/
  | tapHighz
  /-- BYPASS (R553): test-port instruction BYPASS -/
  | tapBypass (code : BitVec 5)
  /-- BOOT_DESCRIPTOR_POLL (R560): the ROM boot program reads BLK_SCRATCH3 -/
  | bootDescriptorPoll (dt : Nat) (bay : Bay)
  /-- BOOT_IMAGE_COPY_COMPLETE (R561): the last line of the boot image has come -/
  | bootImageCopyComplete (dt : Nat) (bay : Bay)
  /-- CHANNEL_RETIRE (R568): a write of MU_RET_CTRL with ARM 1 and MODE 1 -/
  | channelRetire (req : Req) (ch : Chan) (v : Word)
  /-- CHANNEL_RETURN (R568): a write of MU_RET_CTRL with ARM 1 and MODE 0 -/
  | channelReturn (req : Req) (ch : Chan) (v : Word)
  /-- CCC (R470): an I3C common command code addressed to the management port -/
  | ccc (dt : Nat) (c : I3cCcc)
  deriving DecidableEq, Repr

end Sys2Proof
end

