-- ==== Sys2Proof/Config.lean ====
section
/-! DEFINITION. What the spec leaves to the part at hand, and the standard algorithms that it names without giving them: constants
without a body, of which nothing can be proved but that they are one value each. -/

namespace Sys2Proof

/-- The ROM version of CS_VERSION.ROM (R264 gives no value). -/
opaque Config.romVersion : BitVec 16
/-- The dispatch table: the microaddress of each IR[15:6] (R239 gives no contents). -/
opaque Config.dispatch : BitVec 10 → BitVec 13

/-- A boundary queue's depth beyond one entry, and how many entries the neighbour has taken from it by a cycle (R24 gives neither); the queue of
the CXL controller of port p has number p. -/
opaque Config.queueExtra : Nat → Nat
@[inherit_doc Config.queueExtra] opaque Config.queueTaken : Nat → Nat → Nat
/-- The context, of the 64 of its bay, to which the bay supervisor assigns the `n`-th line access (R19 leaves the choice to its program). -/
opaque Config.assigned : Nat → Nat

/-- What chapter 07 leaves open in the `n`-th microword executed, by the place of use: the guard bits above {LIT, 0x0000} (R243), C and V of an
operation without a carry (R249), the words of a destination wider than the data loaded (R250), the vector of DIRQ with no interrupt (R240). -/
opaque Config.microGuard : Nat → Byte
@[inherit_doc Config.microGuard] opaque Config.microCv : Nat → Nat → BitVec 2
@[inherit_doc Config.microGuard] opaque Config.microLoad : Nat → Nat → BitVec 16
@[inherit_doc Config.microGuard] opaque Config.microVector : Nat → BitVec 14
/-- The handler microaddress of an entry that is no interrupt, by its cause (R209 and R332 give none). -/
opaque Config.entryVector : Nat → BitVec 14

/-- SHA-384 of bytes (R486 to R495). -/
opaque Config.sha384 : List Byte → BitVec 384
/-- HMAC-SHA-384 of a message under a key (R488). -/
opaque Config.hmac384 : List Byte → List Byte → BitVec 384
/-- HKDF-SHA-384 with a zero salt: input key, info, number of bytes, as a big-endian integer (R488, R492). -/
opaque Config.hkdf : List Byte → List Byte → Nat → Nat
/-- ECDSA P-384: the public key of a private scalar; whether a signature of a digest verifies under a public key (R488, R492, R495). -/
opaque Config.p384Public : BitVec 384 → BitVec 768
@[inherit_doc Config.p384Public] opaque Config.p384Verify : BitVec 768 → BitVec 384 → BitVec 768 → Bool
/-- AES-256-GCM decryption: key, initialisation vector, additional data, ciphertext, tag; none where the tag fails (R258, R259). -/
opaque Config.gcmOpen : BitVec 256 → List Byte → List Byte → List Byte → List Byte → Option (List Byte)
/-- The vendor keys held in the unit's ROM (R492, R495 give no values). -/
opaque Config.vendorPatchKey : Nat → BitVec 768
@[inherit_doc Config.vendorPatchKey] opaque Config.vendorDebugKey : BitVec 768
/-- Measurements 1 and 3 (R491): the ROM's digest, and that of LIFE, PREVOKE and OWNKEYHASH, whose layout the spec does not give. -/
opaque Config.measurement1 : BitVec 384
@[inherit_doc Config.measurement1] opaque Config.measurement3 : BitVec 2 → BitVec 4 → BitVec 384 → BitVec 384
/-- The subject public key of the DeviceID certificate of a chain, none where the chain cannot be read (R489). -/
opaque Config.deviceIdKey : List Byte → Option (BitVec 768)
/-- The Alias certificate of a DeviceID public key and an Alias private scalar (R489). -/
opaque Config.aliasCert : BitVec 768 → BitVec 384 → List Byte
/-- The measurement summary hash of a CHALLENGE response, by its type and the digests (R490). -/
opaque Config.summary : Byte → List (BitVec 384) → BitVec 384
/-- The `n`-th signature made with the Alias key (R490). -/
opaque Config.signature : BitVec 384 → Nat → BitVec 768

/-- The reading stored for a LINEAR11 word whose value does not fit the register (R478 gives none). -/
opaque Config.linear11 : BitVec 16 → BitVec 16
/-- The answers to GETPID, GETBCR, GETDCR, GETMWL and GETMRL, and the `n`-th to GETSTATUS (R470 gives no values). -/
opaque Config.i3cPid : BitVec 48
@[inherit_doc Config.i3cPid] opaque Config.i3cBcr : Byte
@[inherit_doc Config.i3cPid] opaque Config.i3cDcr : Byte
@[inherit_doc Config.i3cPid] opaque Config.i3cMwl : BitVec 16
@[inherit_doc Config.i3cPid] opaque Config.i3cMrl : BitVec 16
@[inherit_doc Config.i3cPid] opaque Config.i3cStatus : Nat → BitVec 16

/-- The order of the group of P-384 (FIPS 186-5, named by R488). -/
def p384Order : Nat :=
  0xFFFFFFFFFFFFFFFFFFFFFFFFFFFFFFFFFFFFFFFFFFFFFFFFC7634D81F4372DDF581A0DB248B0A77AECEC196ACCC52973

end Sys2Proof
end

