-- ==== Sys2Proof/Machine/RegMap.lean ====
section
/-! DEFINITION. The control window's registers as the spec's register tables give them (R8, R13, R516, R521 and the
tables of R56 to R60, R78, R114, R138, R151 to R153, R193, R223, R224, R264, R265, R350, R351, R384, R385, R423,
R448 to R451, R471 to R473, R483, R484, R513, R514, R529, R570): one row per register with its access masks and its
reset value, and one constant per field.  Offsets are byte offsets in the normal view (R516). -/

namespace Sys2Proof.Machine

/-- A field of a window register: the register's byte offset, its lowest bit and its width (00, Numbers, sizes and
bits). -/
structure Fld where
  off : Nat
  lo  : Nat
  w   : Nat
  deriving DecidableEq, Repr

/-- One register of a page: `count` copies, `stride` bytes apart, from page offset `off`; the bits of each access
code of R8 (bits in none are reserved, R3) and the Reset column (R13). -/
structure RegRow where
  name   : String
  off    : Nat
  stride : Nat
  count  : Nat
  rw     : Nat
  w1c    : Nat
  w1s    : Nat
  rc     : Nat
  ro     : Nat
  wo     : Nat
  reset  : Nat
  deriving DecidableEq, Repr

/-- Registers of the sctb page. -/
def rows_sctb : List RegRow :=
  [⟨"SC_TB_CTRL", 0x20, 0x4, 1, 0xf087, 0x0, 0x60, 0x0, 0x0, 0x0, 0x2000⟩,
   ⟨"SC_TB_STAT", 0x24, 0x4, 1, 0x0, 0x0, 0x0, 0x0, 0xc7, 0x0, 0x0⟩,
   ⟨"SC_TB_TIMING", 0x28, 0x4, 1, 0xffff00ff, 0x0, 0x0, 0x0, 0x0, 0x0, 0x1000010⟩,
   ⟨"SC_TB_EPOCH_LD", 0x2c, 0x4, 1, 0xfffffff, 0x0, 0x0, 0x0, 0x0, 0x0, 0x0⟩,
   ⟨"SC_TB_POS_LO", 0x30, 0x4, 1, 0x0, 0x0, 0x0, 0x0, 0xffffffff, 0x0, 0x0⟩,
   ⟨"SC_TB_POS_HI", 0x34, 0x4, 1, 0x0, 0x0, 0x0, 0x0, 0xffff, 0x0, 0x0⟩,
   ⟨"SC_TB_IDX_LO", 0x38, 0x4, 1, 0x0, 0x0, 0x0, 0x0, 0xffffffff, 0x0, 0x0⟩,
   ⟨"SC_TB_IDX_HI", 0x3c, 0x4, 1, 0x0, 0x0, 0x0, 0x0, 0xffff, 0x0, 0x0⟩,
   ⟨"SC_TB_SPEED", 0x40, 0x4, 1, 0x0, 0x0, 0x0, 0x0, 0xffffffff, 0x0, 0x200000⟩,
   ⟨"SC_TB_DRIFT", 0x44, 0x4, 1, 0x0, 0x0, 0x0, 0x0, 0x800fffff, 0x0, 0x0⟩,
   ⟨"SC_TB_FAULTS", 0x48, 0x4, 1, 0x0, 0x0, 0x0, 0xffffffff, 0x0, 0x0, 0x0⟩,
   ⟨"SC_FRAME_LO", 0x50, 0x4, 1, 0x0, 0x0, 0x0, 0x0, 0xffffffff, 0x0, 0x0⟩,
   ⟨"SC_FRAME_HI", 0x54, 0x4, 1, 0x0, 0x0, 0x0, 0x0, 0x3ff000f, 0x0, 0x0⟩,
   ⟨"SC_CMP_LO", 0x100, 0x20, 8, 0xffffffff, 0x0, 0x0, 0x0, 0x0, 0x0, 0x0⟩,
   ⟨"SC_CMP_HI", 0x104, 0x20, 8, 0xffff, 0x0, 0x0, 0x0, 0x0, 0x0, 0x0⟩,
   ⟨"SC_CMP_SPC", 0x108, 0x20, 8, 0xffffffff, 0x0, 0x0, 0x0, 0x0, 0x0, 0x0⟩,
   ⟨"SC_CMP_OWN", 0x10c, 0x20, 8, 0xdf, 0x0, 0x0, 0x0, 0x0, 0x0, 0x0⟩,
   ⟨"SC_CMP_STAT", 0x110, 0x20, 8, 0x0, 0xc, 0x0, 0x0, 0x3, 0x0, 0x0⟩]

/-- Registers of the sc page. -/
def rows_sc : List RegRow :=
  [⟨"SC_TBL_CTRL", 0x20, 0x4, 1, 0x4, 0x0, 0x3, 0x0, 0x0, 0x0, 0x0⟩,
   ⟨"SC_TBL_TGT_LO", 0x24, 0x4, 1, 0xffffffff, 0x0, 0x0, 0x0, 0x0, 0x0, 0x0⟩,
   ⟨"SC_TBL_TGT_HI", 0x28, 0x4, 1, 0xf, 0x0, 0x0, 0x0, 0x0, 0x0, 0x0⟩,
   ⟨"SC_TBL_SUM", 0x2c, 0x4, 1, 0xffffffff, 0x0, 0x0, 0x0, 0x0, 0x0, 0x0⟩,
   ⟨"SC_TBL_STAT", 0x30, 0x4, 1, 0x0, 0xf00, 0x0, 0x0, 0x7, 0x0, 0x0⟩,
   ⟨"SC_TBL_CALC", 0x34, 0x4, 1, 0x0, 0x0, 0x0, 0x0, 0xffffffff, 0x0, 0x0⟩,
   ⟨"SC_TBL_SWF_LO", 0x38, 0x4, 1, 0x0, 0x0, 0x0, 0x0, 0xffffffff, 0x0, 0x0⟩,
   ⟨"SC_TBL_SWF_HI", 0x3c, 0x4, 1, 0x0, 0x0, 0x0, 0x0, 0xf, 0x0, 0x0⟩,
   ⟨"SC_BUD_ZMAP", 0x40, 0x4, 7, 0x0, 0x0, 0x0, 0x0, 0xffffffff, 0x0, 0x0⟩,
   ⟨"SC_BUD_A0", 0x400, 0x10, 32, 0xffffffff, 0x0, 0x0, 0x0, 0x0, 0x0, 0x0⟩,
   ⟨"SC_BUD_A1", 0x404, 0x10, 32, 0xffffffff, 0x0, 0x0, 0x0, 0x0, 0x0, 0x0⟩,
   ⟨"SC_BUD_A2", 0x408, 0x10, 32, 0xffffffff, 0x0, 0x0, 0x0, 0x0, 0x0, 0x0⟩,
   ⟨"SC_BUD_A3", 0x40c, 0x10, 32, 0xffff, 0x0, 0x0, 0x0, 0x0, 0x0, 0x0⟩,
   ⟨"SC_BUD_B0", 0x600, 0x10, 32, 0xffffffff, 0x0, 0x0, 0x0, 0x0, 0x0, 0x0⟩,
   ⟨"SC_BUD_B1", 0x604, 0x10, 32, 0xffffffff, 0x0, 0x0, 0x0, 0x0, 0x0, 0x0⟩,
   ⟨"SC_BUD_B2", 0x608, 0x10, 32, 0xffffffff, 0x0, 0x0, 0x0, 0x0, 0x0, 0x0⟩,
   ⟨"SC_BUD_B3", 0x60c, 0x10, 32, 0xffff, 0x0, 0x0, 0x0, 0x0, 0x0, 0x0⟩,
   ⟨"SC_BUD_LIVE", 0x800, 0x4, 128, 0x0, 0x0, 0x0, 0x0, 0xffffffff, 0x0, 0x0⟩]

/-- Registers of the hp page. -/
def rows_hp : List RegRow :=
  [⟨"HP_CTRL", 0x20, 0x4, 1, 0x7, 0x0, 0x0, 0x0, 0x0, 0x0, 0x2⟩,
   ⟨"HP_STAT", 0x24, 0x4, 1, 0x0, 0x30000, 0x0, 0x0, 0x3fff, 0x0, 0x0⟩,
   ⟨"HP_TXN_LIMIT", 0x28, 0x4, 1, 0xffff, 0x0, 0x0, 0x0, 0x0, 0x0, 0xc8⟩,
   ⟨"HP_DEVLOAD", 0x2c, 0x4, 1, 0xffffff, 0x0, 0x0, 0x0, 0x0, 0x0, 0x5a4b32⟩,
   ⟨"HP_LED_IDX", 0x30, 0x4, 1, 0x1fff, 0x0, 0x0, 0x0, 0x0, 0x0, 0x0⟩,
   ⟨"HP_LED_DATA", 0x34, 0x4, 4, 0x0, 0x0, 0x0, 0x0, 0xffffffff, 0x0, 0x0⟩,
   ⟨"HP_CNT_RD", 0x44, 0x4, 1, 0x0, 0x0, 0x0, 0xffffffff, 0x0, 0x0, 0x0⟩,
   ⟨"HP_CNT_WR", 0x48, 0x4, 1, 0x0, 0x0, 0x0, 0xffffffff, 0x0, 0x0, 0x0⟩,
   ⟨"HP_CNT_DP", 0x4c, 0x4, 1, 0x0, 0x0, 0x0, 0xffffffff, 0x0, 0x0, 0x0⟩,
   ⟨"HP_CNT_REJ", 0x50, 0x4, 1, 0x0, 0x0, 0x0, 0xffffffff, 0x0, 0x0, 0x0⟩,
   ⟨"HP_CNT_TOUT", 0x54, 0x4, 1, 0x0, 0x0, 0x0, 0xffffffff, 0x0, 0x0, 0x0⟩,
   ⟨"HP_CNT_POIS", 0x58, 0x4, 1, 0x0, 0x0, 0x0, 0xffffffff, 0x0, 0x0, 0x0⟩]

/-- Registers of the mu page. -/
def rows_mu : List RegRow :=
  [⟨"MU_MNT_CL_LO", 0xd0, 0x4, 1, 0xffffffff, 0x0, 0x0, 0x0, 0x0, 0x0, 0x0⟩,
   ⟨"MU_MNT_CL_HI", 0xd4, 0x4, 1, 0x1, 0x0, 0x0, 0x0, 0x0, 0x0, 0x0⟩,
   ⟨"MU_MNT_CNT", 0xd8, 0x4, 1, 0xffffffff, 0x0, 0x0, 0x0, 0x0, 0x0, 0x0⟩,
   ⟨"MU_MNT_META", 0xdc, 0x4, 1, 0xfffffffe, 0x0, 0x0, 0x0, 0x0, 0x0, 0x0⟩,
   ⟨"MU_MNT_CTRL", 0xe0, 0x4, 1, 0x0, 0xc, 0x11, 0x0, 0x2, 0x0, 0x0⟩,
   ⟨"MU_MNT_LEFT", 0xe4, 0x4, 1, 0x0, 0x0, 0x0, 0x0, 0xffffffff, 0x0, 0x0⟩,
   ⟨"MU_CTRL", 0x20, 0x4, 1, 0x17, 0x0, 0x0, 0x0, 0x0, 0x0, 0x4⟩,
   ⟨"MU_GEOM", 0x24, 0x4, 1, 0x1f31, 0x0, 0x0, 0x0, 0x0, 0x0, 0x1100⟩,
   ⟨"MU_STAT", 0x28, 0x4, 1, 0x0, 0xc00, 0x0, 0x0, 0x7f, 0x0, 0x0⟩,
   ⟨"MU_CE_CNT", 0x2c, 0x4, 1, 0x0, 0x0, 0x0, 0xffffffff, 0x0, 0x0, 0x0⟩,
   ⟨"MU_CE_THR", 0x30, 0x4, 1, 0xffff, 0x0, 0x0, 0x0, 0x0, 0x0, 0x400⟩,
   ⟨"MU_UE_CNT", 0x34, 0x4, 1, 0x0, 0x0, 0x0, 0xffffffff, 0x0, 0x0, 0x0⟩,
   ⟨"MU_ERR_CL_LO", 0x38, 0x4, 1, 0x0, 0x0, 0x0, 0x0, 0xffffffff, 0x0, 0x0⟩,
   ⟨"MU_ERR_CL_HI", 0x3c, 0x4, 1, 0x0, 0x0, 0x0, 0x0, 0x1, 0x0, 0x0⟩,
   ⟨"MU_DFM", 0x40, 0x4, 16, 0x800f, 0x0, 0x0, 0x0, 0x6f00, 0x0, 0x0⟩,
   ⟨"MU_SCR_BASE", 0x80, 0x4, 1, 0x7ffffff, 0x0, 0x0, 0x0, 0x0, 0x0, 0x0⟩,
   ⟨"MU_SCR_LIMIT", 0x84, 0x4, 1, 0xfffffff, 0x0, 0x0, 0x0, 0x0, 0x0, 0x0⟩,
   ⟨"MU_SCR_PTR0", 0x88, 0x4, 1, 0xffffffff, 0x0, 0x0, 0x0, 0x0, 0x0, 0x0⟩,
   ⟨"MU_SCR_PTR1", 0x8c, 0x4, 1, 0xffffffff, 0x0, 0x0, 0x0, 0x0, 0x0, 0x0⟩,
   ⟨"MU_SCR_PASS", 0x90, 0x4, 1, 0x0, 0x0, 0x0, 0x0, 0xffff, 0x0, 0x0⟩,
   ⟨"MU_SCR_FIX", 0x94, 0x4, 1, 0x0, 0x0, 0x0, 0xffffffff, 0x0, 0x0, 0x0⟩,
   ⟨"MU_PL_IDX", 0xa0, 0x4, 1, 0x3f, 0x0, 0x0, 0x0, 0x0, 0x0, 0x0⟩,
   ⟨"MU_PL_LO", 0xa4, 0x4, 1, 0x0, 0x0, 0x0, 0x0, 0xffffffff, 0x0, 0x0⟩,
   ⟨"MU_PL_HI", 0xa8, 0x4, 1, 0x0, 0x80000000, 0x0, 0x0, 0x1, 0x0, 0x0⟩,
   ⟨"MU_CT_CMP", 0xb0, 0x4, 1, 0x0, 0x0, 0x0, 0xffffffff, 0x0, 0x0, 0x0⟩,
   ⟨"MU_CT_NOGAIN", 0xb4, 0x4, 1, 0x0, 0x0, 0x0, 0xffffffff, 0x0, 0x0, 0x0⟩,
   ⟨"MU_CT_VFAIL", 0xb8, 0x4, 1, 0x0, 0x0, 0x0, 0xffffffff, 0x0, 0x0, 0x0⟩,
   ⟨"MU_CT_DERR", 0xbc, 0x4, 1, 0x0, 0x0, 0x0, 0xffffffff, 0x0, 0x0, 0x0⟩,
   ⟨"MU_RET_CTRL", 0xc0, 0x4, 1, 0x12, 0x20, 0x1, 0x0, 0xc, 0x0, 0x0⟩,
   ⟨"MU_RET_TGT_LO", 0xc4, 0x4, 1, 0xffffffff, 0x0, 0x0, 0x0, 0x0, 0x0, 0x0⟩] ++
  [⟨"MU_RET_TGT_HI", 0xc8, 0x4, 1, 0xf, 0x0, 0x0, 0x0, 0x0, 0x0, 0x0⟩]

/-- Registers of the tw page. -/
def rows_tw : List RegRow :=
  [⟨"TW_CTRL", 0x20, 0x4, 1, 0x27, 0x0, 0x58, 0x0, 0x0, 0x0, 0x0⟩,
   ⟨"TW_CFG", 0x24, 0x4, 1, 0xf0003ff, 0x0, 0x0, 0x0, 0x0, 0x0, 0x3f7⟩,
   ⟨"TW_STAT", 0x28, 0x4, 1, 0x0, 0x1000, 0x0, 0x0, 0xef17, 0x0, 0x0⟩,
   ⟨"TW_PVER", 0x2c, 0x4, 1, 0x0, 0x0, 0x0, 0x0, 0xffffffff, 0x0, 0x0⟩,
   ⟨"TW_TKO_LO", 0x30, 0x4, 1, 0x0, 0x0, 0x0, 0x0, 0xffffffff, 0x0, 0x0⟩,
   ⟨"TW_TKO_HI", 0x34, 0x4, 1, 0x0, 0x0, 0x0, 0x0, 0xf, 0x0, 0x0⟩,
   ⟨"TW_SEGSUM", 0x38, 0x4, 1, 0x0, 0x0, 0x0, 0x0, 0xffffffff, 0x0, 0x0⟩,
   ⟨"TW_CNT_WR", 0x40, 0x4, 1, 0x0, 0x0, 0x0, 0xffffffff, 0x0, 0x0, 0x0⟩,
   ⟨"TW_CNT_LATE", 0x44, 0x4, 1, 0x0, 0x0, 0x0, 0xffffffff, 0x0, 0x0, 0x0⟩,
   ⟨"TW_CNT_DIV", 0x48, 0x4, 1, 0x0, 0x0, 0x0, 0xffffffff, 0x0, 0x0, 0x0⟩,
   ⟨"TW_CNT_NEWER", 0x4c, 0x4, 1, 0x0, 0x0, 0x0, 0xffffffff, 0x0, 0x0, 0x0⟩,
   ⟨"TW_CNT_LINK", 0x50, 0x4, 1, 0x0, 0x0, 0x0, 0xffffffff, 0x0, 0x0, 0x0⟩,
   ⟨"TW_CNT_HBMISS", 0x54, 0x4, 1, 0x0, 0x0, 0x0, 0xffffffff, 0x0, 0x0, 0x0⟩,
   ⟨"TW_VFY_SEG", 0x60, 0x4, 1, 0xfff0fff, 0x0, 0x0, 0x0, 0x0, 0x0, 0x0⟩,
   ⟨"TW_VFY_STAT", 0x64, 0x4, 1, 0x0, 0x0, 0x0, 0xffff0000, 0xfff, 0x0, 0x0⟩,
   ⟨"TW_RSY_STAT", 0x68, 0x4, 1, 0x0, 0x0, 0x0, 0x0, 0x80000fff, 0x0, 0x0⟩,
   ⟨"TW_SUS_IDX", 0x70, 0x4, 1, 0x3f, 0x0, 0x0, 0x0, 0x0, 0x0, 0x0⟩,
   ⟨"TW_SUS_LO", 0x74, 0x4, 1, 0x0, 0x0, 0x0, 0x0, 0xffffffff, 0x0, 0x0⟩,
   ⟨"TW_SUS_HI", 0x78, 0x4, 1, 0x0, 0x0, 0x0, 0x0, 0x8000ffff, 0x0, 0x0⟩]

/-- Registers of the bay page. -/
def rows_bay : List RegRow :=
  [⟨"EA_BAY_CTRL", 0x20, 0x4, 1, 0x107, 0x0, 0x0, 0x0, 0x0, 0x0, 0x0⟩,
   ⟨"EA_MAP", 0x24, 0x4, 1, 0x0, 0x0, 0x0, 0x0, 0xffffffff, 0x0, 0x76543210⟩,
   ⟨"EA_MAP_NEXT", 0x28, 0x4, 1, 0xffffffff, 0x0, 0x0, 0x0, 0x0, 0x0, 0x76543210⟩,
   ⟨"EA_SWAP", 0x2c, 0x4, 1, 0x0, 0x4, 0x1, 0x0, 0x2, 0x0, 0x0⟩,
   ⟨"EA_SLOT_STAT", 0x30, 0x4, 1, 0x0, 0x0, 0x0, 0x0, 0x7ffffff, 0x0, 0x1000000⟩,
   ⟨"EA_SUB", 0x34, 0x4, 1, 0x0, 0x0, 0x0, 0x0, 0x800000f7, 0x0, 0x0⟩,
   ⟨"EA_RETRY_CNT", 0x38, 0x4, 1, 0x0, 0x0, 0x0, 0xffffffff, 0x0, 0x0, 0x0⟩,
   ⟨"EA_SPARE_CNT", 0x3c, 0x4, 1, 0x0, 0x0, 0x0, 0xffffffff, 0x0, 0x0, 0x0⟩,
   ⟨"CS_MATCH_ADDR", 0x400, 0x8, 64, 0xc0ff1fff, 0x0, 0x0, 0x0, 0x0, 0x0, 0x0⟩,
   ⟨"CS_MATCH_TGT", 0x404, 0x8, 64, 0x3ff, 0x0, 0x0, 0x0, 0x0, 0x0, 0x0⟩,
   ⟨"CS_BAY_STAT", 0x40, 0x4, 1, 0x0, 0xc0000000, 0x0, 0x0, 0x7ff, 0x0, 0x0⟩,
   ⟨"EA_GATE_CFG", 0x50, 0x4, 1, 0xffff07ff, 0x0, 0x0, 0x0, 0x0, 0x0, 0x0⟩,
   ⟨"EA_XVEC", 0x60, 0x4, 4, 0xffffff, 0x0, 0x0, 0x0, 0x0, 0x0, 0x0⟩,
   ⟨"EA_XSTK_S", 0x70, 0x4, 1, 0xffffff, 0x0, 0x0, 0x0, 0x0, 0x0, 0x0⟩,
   ⟨"EA_XSTK_M", 0x74, 0x4, 1, 0xffffff, 0x0, 0x0, 0x0, 0x0, 0x0, 0x0⟩,
   ⟨"EA_XSTK_STRIDE", 0x78, 0x4, 1, 0xffffffff, 0x0, 0x0, 0x0, 0x0, 0x0, 0x0⟩,
   ⟨"BM_CTRL", 0x100, 0x4, 1, 0x2, 0x0, 0x1, 0x0, 0x0, 0x0, 0x0⟩,
   ⟨"BM_STAT", 0x104, 0x4, 1, 0x0, 0x78, 0x0, 0x0, 0x7, 0x0, 0x0⟩,
   ⟨"BM_CE_CNT", 0x108, 0x4, 1, 0x0, 0x0, 0x0, 0xffffffff, 0x0, 0x0, 0x0⟩,
   ⟨"BM_UE_CNT", 0x10c, 0x4, 1, 0x0, 0x0, 0x0, 0xffffffff, 0x0, 0x0, 0x0⟩,
   ⟨"BM_UE", 0x110, 0x4, 1, 0x0, 0x0, 0x0, 0x0, 0xf007ffff, 0x0, 0x0⟩,
   ⟨"BM_XCOLL", 0x114, 0x4, 1, 0x0, 0x0, 0x0, 0x0, 0xf000ffff, 0x0, 0x0⟩,
   ⟨"BM_XCOLL_CNT", 0x118, 0x4, 1, 0x0, 0x0, 0x0, 0xffffffff, 0x0, 0x0, 0x0⟩,
   ⟨"BM_BIST_RES", 0x11c, 0x4, 1, 0x0, 0x0, 0x0, 0x0, 0x1f, 0x0, 0x0⟩,
   ⟨"BM_REPAIR", 0x120, 0x4, 5, 0x0, 0x0, 0x0, 0x0, 0xffffffff, 0x0, 0x0⟩,
   ⟨"BM_XBUF_OWN", 0x200, 0x4, 64, 0xff, 0x0, 0x0, 0x0, 0x0, 0x0, 0x0⟩,
   ⟨"EV_BWD_KICK", 0x80, 0x4, 1, 0x0, 0x0, 0x0, 0x0, 0x0, 0xffff, 0x0⟩,
   ⟨"EV_BWD_REM", 0x84, 0x4, 1, 0x0, 0x0, 0x0, 0x0, 0xffff, 0x0, 0x0⟩]

/-- Registers of the eng page. -/
def rows_eng : List RegRow :=
  [⟨"EA_ENG_CTRL", 0x20, 0x4, 1, 0xe2, 0x0, 0x14, 0x0, 0x0, 0x0, 0x0⟩,
   ⟨"EA_ENG_STAT", 0x24, 0x4, 1, 0x0, 0x0, 0x0, 0x0, 0xffff001f, 0x0, 0x0⟩,
   ⟨"EA_CTX_STAT", 0x40, 0x4, 8, 0x0, 0x0, 0x0, 0x0, 0xff000f37, 0x0, 0x0⟩,
   ⟨"EA_CTX_PC", 0x60, 0x4, 8, 0x0, 0x0, 0x0, 0x0, 0xffffff, 0x0, 0x0⟩,
   ⟨"EA_CTX_LIRQ", 0x80, 0x4, 8, 0x70000, 0x7, 0x0, 0x0, 0x0, 0x700, 0x0⟩,
   ⟨"EA_CTX_XCPT", 0xa0, 0x4, 8, 0x0, 0x0, 0x0, 0x0, 0xffffffff, 0x0, 0x0⟩,
   ⟨"EV_CWD_STAT", 0xc0, 0x4, 1, 0x0, 0xff, 0x0, 0x0, 0x0, 0x0, 0x0⟩,
   ⟨"EV_EWD_REM", 0xc4, 0x4, 1, 0x0, 0x0, 0x0, 0x0, 0xffff, 0x0, 0x0⟩,
   ⟨"EV_CWD_REM", 0xe0, 0x4, 8, 0x0, 0x0, 0x0, 0x0, 0xffff, 0x0, 0x0⟩]

/-- Registers of the cs page. -/
def rows_cs : List RegRow :=
  [⟨"CS_VERSION", 0x20, 0x4, 1, 0x0, 0x0, 0x0, 0x0, 0xffffffff, 0x0, 0x0⟩,
   ⟨"CS_PATCH_CTRL", 0x24, 0x4, 1, 0x0, 0x0, 0x3, 0x0, 0x0, 0x0, 0x0⟩,
   ⟨"CS_PATCH_STAT", 0x28, 0x4, 1, 0x0, 0x0, 0x0, 0x0, 0xff07, 0x0, 0x0⟩,
   ⟨"CS_PATCH_LEVEL", 0x2c, 0x4, 1, 0x0, 0x0, 0x0, 0x0, 0xffff, 0x0, 0x0⟩,
   ⟨"CS_PATCH_LEN", 0x30, 0x4, 1, 0x7fff, 0x0, 0x0, 0x0, 0x0, 0x0, 0x0⟩,
   ⟨"CS_CE_CNT", 0x34, 0x4, 1, 0x0, 0x0, 0x0, 0xffffffff, 0x0, 0x0, 0x0⟩]

/-- Registers of the sv page. -/
def rows_sv : List RegRow :=
  [⟨"SV_CTRL", 0x20, 0x4, 1, 0x1, 0x0, 0x2, 0x0, 0x0, 0x0, 0x0⟩,
   ⟨"SV_STAT", 0x24, 0x4, 1, 0x0, 0x0, 0x0, 0x0, 0x7f, 0x0, 0x0⟩,
   ⟨"SV_CNT_SUB", 0x28, 0x4, 1, 0x0, 0x0, 0x0, 0xffffffff, 0x0, 0x0, 0x0⟩,
   ⟨"SV_CNT_FAIL", 0x2c, 0x4, 1, 0x0, 0x0, 0x0, 0xffffffff, 0x0, 0x0, 0x0⟩]

/-- Registers of the sieve page. -/
def rows_sieve : List RegRow :=
  [⟨"SV_UNIT_CTRL", 0x20, 0x4, 1, 0x3f, 0x0, 0x0, 0x0, 0x0, 0x0, 0x0⟩,
   ⟨"SV_UNIT_STAT", 0x24, 0x4, 1, 0x0, 0x0, 0x0, 0x0, 0x80003fff, 0x0, 0x0⟩,
   ⟨"SV_UNIT_LINES", 0x28, 0x4, 1, 0x0, 0x0, 0x0, 0xffffffff, 0x0, 0x0, 0x0⟩,
   ⟨"SV_UNIT_BAD", 0x2c, 0x4, 1, 0x0, 0x0, 0x0, 0xffffffff, 0x0, 0x0, 0x0⟩,
   ⟨"SV_UNIT_FLAGS", 0x30, 0x4, 1, 0x0, 0x1f, 0x0, 0x0, 0x0, 0x0, 0x0⟩]

/-- Registers of the ev page. -/
def rows_ev : List RegRow :=
  [⟨"EV_GCTL", 0x20, 0x4, 1, 0xff00ff01, 0x0, 0x0, 0x0, 0x0, 0x0, 0x40001600⟩,
   ⟨"EV_STAT", 0x24, 0x4, 1, 0x0, 0xf, 0x0, 0x0, 0x100, 0x0, 0x0⟩,
   ⟨"EV_FRZ", 0x28, 0x4, 1, 0xffbf, 0x0, 0x0, 0x0, 0x0, 0x0, 0x4000⟩,
   ⟨"EV_PEND", 0x40, 0x4, 7, 0xffffffff, 0x0, 0x0, 0x0, 0x0, 0x0, 0x0⟩,
   ⟨"EV_PEND7", 0x5c, 0x4, 1, 0x3ffffff, 0x0, 0x0, 0x0, 0x0, 0x0, 0x0⟩,
   ⟨"EV_MASK", 0x60, 0x4, 7, 0xffffffff, 0x0, 0x0, 0x0, 0x0, 0x0, 0xffffffff⟩,
   ⟨"EV_MASK7", 0x7c, 0x4, 1, 0x3ffffff, 0x0, 0x0, 0x0, 0x0, 0x0, 0x3ffffff⟩,
   ⟨"EV_BLK_WD", 0x80, 0x4, 1, 0xffff, 0x0, 0x40000000, 0x0, 0x80000000, 0x0, 0x2000⟩,
   ⟨"EV_BLK_KICK", 0x84, 0x4, 1, 0x0, 0x0, 0x0, 0x0, 0x0, 0xffff, 0x0⟩,
   ⟨"EV_BLK_REM", 0x88, 0x4, 1, 0x0, 0x0, 0x0, 0x0, 0xffff, 0x0, 0x0⟩,
   ⟨"EV_WD_CFG", 0x90, 0x4, 1, 0xffffffff, 0x0, 0x0, 0x0, 0x0, 0x0, 0x401000⟩,
   ⟨"EV_WD_BAY", 0x94, 0x4, 1, 0xffff, 0x0, 0x0, 0x0, 0x0, 0x0, 0x800⟩,
   ⟨"EV_BAYCLK", 0xa0, 0x4, 1, 0xffffffff, 0x0, 0x0, 0x0, 0x0, 0x0, 0x0⟩,
   ⟨"EV_BAYSTOP", 0xa4, 0x4, 1, 0x0, 0x0, 0x0, 0x0, 0xffffffff, 0x0, 0x0⟩,
   ⟨"EV_CLAIM", 0x100, 0x10, 34, 0x0, 0x0, 0x0, 0x800000ff, 0x0, 0x0, 0x0⟩,
   ⟨"EV_DONE", 0x104, 0x10, 34, 0x0, 0x0, 0x0, 0x0, 0x0, 0xff, 0x0⟩,
   ⟨"EV_TMOD", 0x108, 0x10, 34, 0xffffff, 0x0, 0x0, 0x0, 0x0, 0x0, 0x0⟩,
   ⟨"EV_TSTAT", 0x10c, 0x10, 34, 0x0, 0x0, 0x0, 0x0, 0x80ffe0ff, 0x0, 0x0⟩,
   ⟨"EV_ROUTE_LO", 0x400, 0x8, 250, 0xffffffff, 0x0, 0x0, 0x0, 0x0, 0x0, 0x0⟩,
   ⟨"EV_ROUTE_HI", 0x404, 0x8, 250, 0x3, 0x0, 0x0, 0x0, 0x3f00, 0x0, 0x0⟩]

/-- Registers of the sbe page. -/
def rows_sbe : List RegRow :=
  [⟨"SB_PE_GSTART", 0x20, 0x4, 1, 0x0, 0x0, 0x0, 0x0, 0x0, 0xffffffff, 0x0⟩,
   ⟨"SB_PE_FSET", 0x24, 0x4, 1, 0x0, 0x0, 0xffff, 0x0, 0x0, 0x0, 0x0⟩,
   ⟨"SB_PE_FCLR", 0x28, 0x4, 1, 0x0, 0xffff, 0x0, 0x0, 0x0, 0x0, 0x0⟩,
   ⟨"SB_PE_GSTAT", 0x2c, 0x4, 1, 0x0, 0x3, 0x0, 0x0, 0x0, 0x0, 0x0⟩,
   ⟨"SB_PE_CTRL", 0x100, 0x20, 32, 0x1f000d, 0x0, 0x0, 0x0, 0x0, 0x0, 0x0⟩,
   ⟨"SB_PE_CFG", 0x104, 0x20, 32, 0x7c1, 0x0, 0x0, 0x0, 0x0, 0x0, 0x0⟩,
   ⟨"SB_PE_DIV", 0x108, 0x20, 32, 0xffffff, 0x0, 0x0, 0x0, 0x0, 0x0, 0x100⟩,
   ⟨"SB_PE_PINS", 0x10c, 0x20, 32, 0xfff00000, 0x0, 0x0, 0x0, 0x0, 0x0, 0x100000⟩,
   ⟨"SB_PE_STAT", 0x110, 0x20, 32, 0x0, 0x3e, 0x0, 0x0, 0xffe07fc1, 0x0, 0x0⟩,
   ⟨"SB_PE_TX", 0x114, 0x20, 32, 0x0, 0x0, 0x0, 0x0, 0x0, 0xffffffff, 0x0⟩,
   ⟨"SB_PE_RX", 0x118, 0x20, 32, 0x0, 0x0, 0x0, 0xffffffff, 0x0, 0x0, 0x0⟩,
   ⟨"SB_PE_CTR", 0x11c, 0x20, 32, 0x0, 0x0, 0x0, 0x0, 0xffffffff, 0x0, 0x0⟩,
   ⟨"SB_PAD_OWN", 0x600, 0x4, 128, 0x7cdf, 0x0, 0x0, 0x0, 0x8000, 0x0, 0x0⟩,
   ⟨"SB_PE_PROG", 0x800, 0x4, 512, 0xffffffff, 0x0, 0x0, 0x0, 0x0, 0x0, 0x0⟩]

/-- Registers of the sbp page. -/
def rows_sbp : List RegRow :=
  [⟨"SB_PWR_CTRL", 0x20, 0x4, 1, 0x7, 0x0, 0x0, 0x0, 0x0, 0x0, 0x0⟩,
   ⟨"SB_PWR_STAT", 0x24, 0x4, 1, 0x0, 0x20, 0x0, 0x0, 0x1f, 0x0, 0x0⟩,
   ⟨"SB_PWR_BUDGET", 0x28, 0x4, 1, 0xffffffff, 0x0, 0x0, 0x0, 0x0, 0x0, 0x0⟩,
   ⟨"SB_PWR_HOLDB", 0x2c, 0x4, 1, 0xffff, 0x0, 0x0, 0x0, 0x0, 0x0, 0x0⟩,
   ⟨"SB_PWR_VLIM", 0x30, 0x4, 1, 0xffffffff, 0x0, 0x0, 0x0, 0x0, 0x0, 0x1d4c0e10⟩,
   ⟨"SB_PWR_VHYST", 0x34, 0x4, 1, 0xffff, 0x0, 0x0, 0x0, 0x0, 0x0, 0x64⟩,
   ⟨"SB_PWR_VIN", 0x38, 0x4, 1, 0x0, 0x0, 0x0, 0x0, 0x8000ffff, 0x0, 0x0⟩,
   ⟨"SB_PWR_IIN", 0x3c, 0x4, 1, 0x0, 0x0, 0x0, 0x0, 0xffff, 0x0, 0x0⟩,
   ⟨"SB_PWR_PMCFG", 0x40, 0x4, 1, 0x7f, 0x0, 0x0, 0x0, 0x0, 0x0, 0x0⟩,
   ⟨"SB_SLOT_ELIM", 0x44, 0x4, 1, 0xffff, 0x0, 0x0, 0x0, 0x0, 0x0, 0x2710⟩,
   ⟨"SB_SLOT_REQ", 0x48, 0x4, 1, 0x0, 0x0, 0xffff, 0x0, 0x0, 0x0, 0x0⟩,
   ⟨"SB_SLOT_OFF", 0x4c, 0x4, 1, 0x0, 0x0, 0xffff, 0x0, 0x0, 0x0, 0x0⟩,
   ⟨"SB_EF_TCMD", 0x50, 0x4, 1, 0xff, 0x0, 0x0, 0x0, 0x0, 0x0, 0x0⟩,
   ⟨"SB_TOK_GATE", 0x54, 0x4, 1, 0x0, 0x0, 0x0, 0x0, 0x7f, 0x0, 0x0⟩,
   ⟨"SB_TOK_GATEB", 0x58, 0x4, 1, 0x0, 0x0, 0x0, 0x0, 0xffffffff, 0x0, 0x0⟩,
   ⟨"SB_TOK_GATEQ", 0x5c, 0x4, 1, 0x0, 0x0, 0x0, 0x0, 0xffffffff, 0x0, 0x0⟩,
   ⟨"SB_SLOT_CFG", 0x80, 0x4, 16, 0x1fffffff, 0x0, 0x0, 0x0, 0xe0000000, 0x0, 0x0⟩,
   ⟨"SB_TOK_GRANT", 0x100, 0x8, 7, 0xffffffff, 0x0, 0x0, 0x0, 0x0, 0x0, 0x0⟩,
   ⟨"SB_TOK_GRANT", 0x140, 0x8, 64, 0xffffffff, 0x0, 0x0, 0x0, 0x0, 0x0, 0x0⟩,
   ⟨"SB_TOK_COST", 0x104, 0x8, 7, 0xffff, 0x0, 0x0, 0x0, 0xffff0000, 0x0, 0x0⟩,
   ⟨"SB_TOK_COST", 0x144, 0x8, 64, 0xffff, 0x0, 0x0, 0x0, 0xffff0000, 0x0, 0x0⟩]

/-- Registers of the td page. -/
def rows_td : List RegRow :=
  [⟨"TD_LIFE", 0x20, 0x4, 1, 0x0, 0x0, 0x0, 0x0, 0x80000f13, 0x0, 0x0⟩,
   ⟨"TD_UNITID_LO", 0x24, 0x4, 1, 0x0, 0x0, 0x0, 0x0, 0xffffffff, 0x0, 0x0⟩,
   ⟨"TD_UNITID_HI", 0x28, 0x4, 1, 0x0, 0x0, 0x0, 0x0, 0xffffffff, 0x0, 0x0⟩,
   ⟨"TD_DBG_CTRL", 0x30, 0x4, 1, 0x2, 0x0, 0x9, 0x0, 0x0, 0x0, 0x0⟩,
   ⟨"TD_DBG_STAT", 0x34, 0x4, 1, 0x0, 0x0, 0x0, 0x0, 0x8f0f, 0x0, 0x0⟩,
   ⟨"TD_DBG_NONCE", 0x40, 0x4, 12, 0x0, 0x0, 0x0, 0x0, 0xffffffff, 0x0, 0x0⟩,
   ⟨"TD_MON_DOOR", 0x80, 0x4, 1, 0x0, 0x0, 0x0, 0x0, 0x0, 0xff, 0x0⟩,
   ⟨"TD_MON_STAT", 0x84, 0x4, 1, 0x0, 0x40000000, 0x0, 0x0, 0x8000ffff, 0x0, 0x0⟩,
   ⟨"TD_CERT_CTRL", 0x90, 0x4, 1, 0x7ff, 0x0, 0x80000000, 0x0, 0x40000000, 0x0, 0x0⟩,
   ⟨"TD_HSTAT", 0xa0, 0x4, 8, 0x0, 0x0, 0x0, 0x0, 0xffffffff, 0x0, 0x0⟩,
   ⟨"TD_HSTATB", 0xc0, 0x4, 1, 0x0, 0x0, 0x0, 0x0, 0xffffffff, 0x0, 0x0⟩,
   ⟨"TD_HSTATX", 0xc4, 0x4, 1, 0x0, 0x0, 0x0, 0x0, 0x3, 0x0, 0x0⟩,
   ⟨"TD_TOKEN", 0x100, 0x4, 64, 0x0, 0x0, 0x0, 0x0, 0x0, 0xffffffff, 0x0⟩,
   ⟨"TD_MON_CMD", 0x200, 0x4, 16, 0xffffffff, 0x0, 0x0, 0x0, 0x0, 0x0, 0x0⟩,
   ⟨"TD_MON_RSP", 0x240, 0x4, 16, 0x0, 0x0, 0x0, 0x0, 0xffffffff, 0x0, 0x0⟩,
   ⟨"TD_CERT", 0x800, 0x4, 512, 0xffffffff, 0x0, 0x0, 0x0, 0x0, 0x0, 0x0⟩,
   ⟨"TD_XT_ENG0", 0x400, 0x40, 8, 0x0, 0x0, 0x0, 0x0, 0xffffffff, 0x0, 0x0⟩,
   ⟨"TD_XT_ENG1", 0x404, 0x40, 8, 0x0, 0x0, 0x0, 0x0, 0xffffffff, 0x0, 0x0⟩,
   ⟨"TD_XT_ENG2", 0x408, 0x40, 8, 0x0, 0x0, 0x0, 0x0, 0xffffffff, 0x0, 0x0⟩,
   ⟨"TD_XT_ENG3", 0x40c, 0x40, 8, 0x0, 0x0, 0x0, 0x0, 0xffffffff, 0x0, 0x0⟩,
   ⟨"TD_XT_ENG4", 0x410, 0x40, 8, 0x0, 0x0, 0x0, 0x0, 0xffffffff, 0x0, 0x0⟩,
   ⟨"TD_XT_ENG5", 0x414, 0x40, 8, 0x0, 0x0, 0x0, 0x0, 0xffffffff, 0x0, 0x0⟩,
   ⟨"TD_XT_ENG6", 0x418, 0x40, 8, 0x0, 0x0, 0x0, 0x0, 0xffffffff, 0x0, 0x0⟩,
   ⟨"TD_XT_ENG7", 0x41c, 0x40, 8, 0x0, 0x0, 0x0, 0x0, 0xffffffff, 0x0, 0x0⟩,
   ⟨"TD_XT_BAY", 0x420, 0x40, 8, 0x0, 0x0, 0x0, 0x0, 0xffffffff, 0x0, 0x0⟩,
   ⟨"TD_XT_CTL", 0x424, 0x40, 8, 0x0, 0x0, 0x0, 0x0, 0x1, 0x0, 0x0⟩,
   ⟨"TD_XT_BRK", 0x428, 0x40, 8, 0x0, 0x0, 0x0, 0x0, 0xffffffff, 0x0, 0x0⟩]

/-- Registers of the blk page. -/
def rows_blk : List RegRow :=
  [⟨"BLK_ID", 0x20, 0x4, 1, 0x0, 0x0, 0x0, 0x0, 0xffffff00, 0x0, 0xa2560100⟩,
   ⟨"BLK_CAP", 0x24, 0x4, 1, 0x0, 0x0, 0x0, 0x0, 0xfff0ffff, 0x0, 0xfa408209⟩,
   ⟨"BLK_CTRL", 0x28, 0x4, 1, 0x106, 0x0, 0x0, 0x0, 0x0, 0x0, 0x6⟩,
   ⟨"BLK_STAT", 0x2c, 0x4, 1, 0x0, 0x0, 0x0, 0x0, 0x3e, 0x0, 0x0⟩,
   ⟨"BLK_ATTN", 0x30, 0x4, 1, 0x0, 0x6, 0x0, 0x0, 0x1, 0x0, 0x0⟩,
   ⟨"BLK_ATTN_SET", 0x34, 0x4, 1, 0x0, 0x0, 0x4, 0x0, 0x0, 0x0, 0x0⟩,
   ⟨"BLK_ACCERR", 0x38, 0x4, 1, 0x0, 0x0, 0x0, 0xff3fffff, 0x0, 0x0, 0x0⟩,
   ⟨"BLK_SCRATCH", 0x40, 0x4, 4, 0xffffffff, 0x0, 0x0, 0x0, 0x0, 0x0, 0x0⟩,
   ⟨"BLK_CYC_LO", 0x50, 0x4, 1, 0x0, 0x0, 0x0, 0x0, 0xffffffff, 0x0, 0x0⟩,
   ⟨"BLK_CYC_HI", 0x54, 0x4, 1, 0x0, 0x0, 0x0, 0x0, 0xffff, 0x0, 0x0⟩]

namespace F

/-- SC_TB_CTRL, R56. -/
abbrev SC_TB_CTRL_off : Nat := 0x7020
abbrev SC_TB_CTRL_SPWIN : Fld := ⟨SC_TB_CTRL_off, 12, 4⟩
abbrev SC_TB_CTRL_OUTEN : Fld := ⟨SC_TB_CTRL_off, 7, 1⟩
abbrev SC_TB_CTRL_REALIGN : Fld := ⟨SC_TB_CTRL_off, 6, 1⟩
abbrev SC_TB_CTRL_ACQ : Fld := ⟨SC_TB_CTRL_off, 5, 1⟩
abbrev SC_TB_CTRL_DIRPOL : Fld := ⟨SC_TB_CTRL_off, 2, 1⟩
abbrev SC_TB_CTRL_MODE : Fld := ⟨SC_TB_CTRL_off, 1, 1⟩
abbrev SC_TB_CTRL_EN : Fld := ⟨SC_TB_CTRL_off, 0, 1⟩
/-- SC_TB_STAT, R57. -/
abbrev SC_TB_STAT_off : Nat := 0x7024
abbrev SC_TB_STAT_SPVALID : Fld := ⟨SC_TB_STAT_off, 7, 1⟩
abbrev SC_TB_STAT_DIR : Fld := ⟨SC_TB_STAT_off, 6, 1⟩
abbrev SC_TB_STAT_STATE : Fld := ⟨SC_TB_STAT_off, 0, 3⟩
/-- SC_TB_TIMING, R58. -/
abbrev SC_TB_TIMING_off : Nat := 0x7028
abbrev SC_TB_TIMING_LOSS : Fld := ⟨SC_TB_TIMING_off, 16, 16⟩
abbrev SC_TB_TIMING_MINSP : Fld := ⟨SC_TB_TIMING_off, 0, 8⟩
/-- SC_TB_EPOCH_LD, R59. -/
abbrev SC_TB_EPOCH_LD_off : Nat := 0x702c
abbrev SC_TB_EPOCH_LD_EPOCH : Fld := ⟨SC_TB_EPOCH_LD_off, 0, 28⟩
/-- SC_TB_POS_LO, R59. -/
abbrev SC_TB_POS_LO_off : Nat := 0x7030
abbrev SC_TB_POS_LO_POS : Fld := ⟨SC_TB_POS_LO_off, 0, 32⟩
/-- SC_TB_POS_HI, R59. -/
abbrev SC_TB_POS_HI_off : Nat := 0x7034
abbrev SC_TB_POS_HI_POS : Fld := ⟨SC_TB_POS_HI_off, 0, 16⟩
/-- SC_TB_IDX_LO, R59. -/
abbrev SC_TB_IDX_LO_off : Nat := 0x7038
abbrev SC_TB_IDX_LO_IDX : Fld := ⟨SC_TB_IDX_LO_off, 0, 32⟩
/-- SC_TB_IDX_HI, R59. -/
abbrev SC_TB_IDX_HI_off : Nat := 0x703c
abbrev SC_TB_IDX_HI_IDX : Fld := ⟨SC_TB_IDX_HI_off, 0, 16⟩
/-- SC_TB_SPEED, R59. -/
abbrev SC_TB_SPEED_off : Nat := 0x7040
abbrev SC_TB_SPEED_SPEED : Fld := ⟨SC_TB_SPEED_off, 0, 32⟩
/-- SC_TB_DRIFT, R59. -/
abbrev SC_TB_DRIFT_off : Nat := 0x7044
abbrev SC_TB_DRIFT_MISS : Fld := ⟨SC_TB_DRIFT_off, 31, 1⟩
abbrev SC_TB_DRIFT_DRIFT : Fld := ⟨SC_TB_DRIFT_off, 0, 20⟩
/-- SC_TB_FAULTS, R59. -/
abbrev SC_TB_FAULTS_off : Nat := 0x7048
abbrev SC_TB_FAULTS_RETRACT : Fld := ⟨SC_TB_FAULTS_off, 24, 8⟩
abbrev SC_TB_FAULTS_DRIFTCNT : Fld := ⟨SC_TB_FAULTS_off, 16, 8⟩
abbrev SC_TB_FAULTS_TICKFLT : Fld := ⟨SC_TB_FAULTS_off, 0, 16⟩
/-- SC_FRAME_LO, R59. -/
abbrev SC_FRAME_LO_off : Nat := 0x7050
abbrev SC_FRAME_LO_FRAME : Fld := ⟨SC_FRAME_LO_off, 0, 32⟩
/-- SC_FRAME_HI, R59. -/
abbrev SC_FRAME_HI_off : Nat := 0x7054
abbrev SC_FRAME_HI_SLOT : Fld := ⟨SC_FRAME_HI_off, 16, 10⟩
abbrev SC_FRAME_HI_FRAME : Fld := ⟨SC_FRAME_HI_off, 0, 4⟩
/-- SC_CMP_LO, R60. -/
abbrev SC_CMP_LO_off (i : Nat) : Nat := 0x7100 + 0x20 * i
abbrev SC_CMP_LO_CMP (i : Nat) : Fld := ⟨SC_CMP_LO_off i, 0, 32⟩
/-- SC_CMP_HI, R60. -/
abbrev SC_CMP_HI_off (i : Nat) : Nat := 0x7104 + 0x20 * i
abbrev SC_CMP_HI_CMP (i : Nat) : Fld := ⟨SC_CMP_HI_off i, 0, 16⟩
/-- SC_CMP_SPC, R60. -/
abbrev SC_CMP_SPC_off (i : Nat) : Nat := 0x7108 + 0x20 * i
abbrev SC_CMP_SPC_SPC (i : Nat) : Fld := ⟨SC_CMP_SPC_off i, 0, 32⟩
/-- SC_CMP_OWN, R60. -/
abbrev SC_CMP_OWN_off (i : Nat) : Nat := 0x710c + 0x20 * i
abbrev SC_CMP_OWN_KIND (i : Nat) : Fld := ⟨SC_CMP_OWN_off i, 6, 2⟩
abbrev SC_CMP_OWN_ID (i : Nat) : Fld := ⟨SC_CMP_OWN_off i, 0, 5⟩
/-- SC_CMP_STAT, R60. -/
abbrev SC_CMP_STAT_off (i : Nat) : Nat := 0x7110 + 0x20 * i
abbrev SC_CMP_STAT_HIT (i : Nat) : Fld := ⟨SC_CMP_STAT_off i, 3, 1⟩
abbrev SC_CMP_STAT_CONFLICT (i : Nat) : Fld := ⟨SC_CMP_STAT_off i, 2, 1⟩
abbrev SC_CMP_STAT_LATE (i : Nat) : Fld := ⟨SC_CMP_STAT_off i, 1, 1⟩
abbrev SC_CMP_STAT_ARMED (i : Nat) : Fld := ⟨SC_CMP_STAT_off i, 0, 1⟩
/-- SC_TBL_CTRL, R78. -/
abbrev SC_TBL_CTRL_off : Nat := 0x6020
abbrev SC_TBL_CTRL_NEXT : Fld := ⟨SC_TBL_CTRL_off, 2, 1⟩
abbrev SC_TBL_CTRL_CANCEL : Fld := ⟨SC_TBL_CTRL_off, 1, 1⟩
abbrev SC_TBL_CTRL_ARM : Fld := ⟨SC_TBL_CTRL_off, 0, 1⟩
/-- SC_TBL_TGT_LO, R78. -/
abbrev SC_TBL_TGT_LO_off : Nat := 0x6024
abbrev SC_TBL_TGT_LO_TGT : Fld := ⟨SC_TBL_TGT_LO_off, 0, 32⟩
/-- SC_TBL_TGT_HI, R78. -/
abbrev SC_TBL_TGT_HI_off : Nat := 0x6028
abbrev SC_TBL_TGT_HI_TGT : Fld := ⟨SC_TBL_TGT_HI_off, 0, 4⟩
/-- SC_TBL_SUM, R78. -/
abbrev SC_TBL_SUM_off : Nat := 0x602c
abbrev SC_TBL_SUM_SUM : Fld := ⟨SC_TBL_SUM_off, 0, 32⟩
/-- SC_TBL_STAT, R78. -/
abbrev SC_TBL_STAT_off : Nat := 0x6030
abbrev SC_TBL_STAT_WREF : Fld := ⟨SC_TBL_STAT_off, 11, 1⟩
abbrev SC_TBL_STAT_LATE : Fld := ⟨SC_TBL_STAT_off, 10, 1⟩
abbrev SC_TBL_STAT_SUMERR : Fld := ⟨SC_TBL_STAT_off, 9, 1⟩
abbrev SC_TBL_STAT_PARERR : Fld := ⟨SC_TBL_STAT_off, 8, 1⟩
abbrev SC_TBL_STAT_STATE : Fld := ⟨SC_TBL_STAT_off, 1, 2⟩
abbrev SC_TBL_STAT_ACT : Fld := ⟨SC_TBL_STAT_off, 0, 1⟩
/-- SC_TBL_CALC, R78. -/
abbrev SC_TBL_CALC_off : Nat := 0x6034
abbrev SC_TBL_CALC_CALC : Fld := ⟨SC_TBL_CALC_off, 0, 32⟩
/-- SC_TBL_SWF_LO, R78. -/
abbrev SC_TBL_SWF_LO_off : Nat := 0x6038
abbrev SC_TBL_SWF_LO_SWF : Fld := ⟨SC_TBL_SWF_LO_off, 0, 32⟩
/-- SC_TBL_SWF_HI, R78. -/
abbrev SC_TBL_SWF_HI_off : Nat := 0x603c
abbrev SC_TBL_SWF_HI_SWF : Fld := ⟨SC_TBL_SWF_HI_off, 0, 4⟩
/-- SC_BUD_ZMAP, R78. -/
abbrev SC_BUD_ZMAP_off (i : Nat) : Nat := 0x6040 + 0x4 * i
abbrev SC_BUD_ZMAP_ZERO (i : Nat) : Fld := ⟨SC_BUD_ZMAP_off i, 0, 32⟩
/-- HP_CTRL, R114. -/
abbrev HP_CTRL_off (p : Nat) : Nat := 0x8020 + 0x1000 * p
abbrev HP_CTRL_CMDEN (p : Nat) : Fld := ⟨HP_CTRL_off p, 2, 1⟩
abbrev HP_CTRL_DPEN (p : Nat) : Fld := ⟨HP_CTRL_off p, 1, 1⟩
abbrev HP_CTRL_EN (p : Nat) : Fld := ⟨HP_CTRL_off p, 0, 1⟩
/-- HP_STAT, R114. -/
abbrev HP_STAT_off (p : Nat) : Nat := 0x8024 + 0x1000 * p
abbrev HP_STAT_LEDFULL (p : Nat) : Fld := ⟨HP_STAT_off p, 17, 1⟩
abbrev HP_STAT_SEGREF (p : Nat) : Fld := ⟨HP_STAT_off p, 16, 1⟩
abbrev HP_STAT_LEDUSE (p : Nat) : Fld := ⟨HP_STAT_off p, 0, 14⟩
/-- HP_TXN_LIMIT, R114. -/
abbrev HP_TXN_LIMIT_off (p : Nat) : Nat := 0x8028 + 0x1000 * p
abbrev HP_TXN_LIMIT_LIMIT (p : Nat) : Fld := ⟨HP_TXN_LIMIT_off p, 0, 16⟩
/-- HP_DEVLOAD, R114. -/
abbrev HP_DEVLOAD_off (p : Nat) : Nat := 0x802c + 0x1000 * p
abbrev HP_DEVLOAD_T3 (p : Nat) : Fld := ⟨HP_DEVLOAD_off p, 16, 8⟩
abbrev HP_DEVLOAD_T2 (p : Nat) : Fld := ⟨HP_DEVLOAD_off p, 8, 8⟩
abbrev HP_DEVLOAD_T1 (p : Nat) : Fld := ⟨HP_DEVLOAD_off p, 0, 8⟩
/-- HP_LED_IDX, R114. -/
abbrev HP_LED_IDX_off (p : Nat) : Nat := 0x8030 + 0x1000 * p
abbrev HP_LED_IDX_IDX (p : Nat) : Fld := ⟨HP_LED_IDX_off p, 0, 13⟩
/-- HP_LED_DATA, R114. -/
abbrev HP_LED_DATA_off (p i : Nat) : Nat := 0x8034 + 0x1000 * p + 0x4 * i
abbrev HP_LED_DATA_DATA (p i : Nat) : Fld := ⟨HP_LED_DATA_off p i, 0, 32⟩
/-- HP_CNT_RD, R114. -/
abbrev HP_CNT_RD_off (p : Nat) : Nat := 0x8044 + 0x1000 * p
abbrev HP_CNT_RD_COUNT (p : Nat) : Fld := ⟨HP_CNT_RD_off p, 0, 32⟩
/-- HP_CNT_WR, R114. -/
abbrev HP_CNT_WR_off (p : Nat) : Nat := 0x8048 + 0x1000 * p
abbrev HP_CNT_WR_COUNT (p : Nat) : Fld := ⟨HP_CNT_WR_off p, 0, 32⟩
/-- HP_CNT_DP, R114. -/
abbrev HP_CNT_DP_off (p : Nat) : Nat := 0x804c + 0x1000 * p
abbrev HP_CNT_DP_COUNT (p : Nat) : Fld := ⟨HP_CNT_DP_off p, 0, 32⟩
/-- HP_CNT_REJ, R114. -/
abbrev HP_CNT_REJ_off (p : Nat) : Nat := 0x8050 + 0x1000 * p
abbrev HP_CNT_REJ_COUNT (p : Nat) : Fld := ⟨HP_CNT_REJ_off p, 0, 32⟩
/-- HP_CNT_TOUT, R114. -/
abbrev HP_CNT_TOUT_off (p : Nat) : Nat := 0x8054 + 0x1000 * p
abbrev HP_CNT_TOUT_COUNT (p : Nat) : Fld := ⟨HP_CNT_TOUT_off p, 0, 32⟩
/-- HP_CNT_POIS, R114. -/
abbrev HP_CNT_POIS_off (p : Nat) : Nat := 0x8058 + 0x1000 * p
abbrev HP_CNT_POIS_COUNT (p : Nat) : Fld := ⟨HP_CNT_POIS_off p, 0, 32⟩
/-- MU_MNT_CL_LO, R138. -/
abbrev MU_MNT_CL_LO_off (c : Nat) : Nat := 0x100d0 + 0x1000 * c
abbrev MU_MNT_CL_LO_CL (c : Nat) : Fld := ⟨MU_MNT_CL_LO_off c, 0, 32⟩
/-- MU_MNT_CL_HI, R138. -/
abbrev MU_MNT_CL_HI_off (c : Nat) : Nat := 0x100d4 + 0x1000 * c
abbrev MU_MNT_CL_HI_CL (c : Nat) : Fld := ⟨MU_MNT_CL_HI_off c, 0, 1⟩
/-- MU_MNT_CNT, R138. -/
abbrev MU_MNT_CNT_off (c : Nat) : Nat := 0x100d8 + 0x1000 * c
abbrev MU_MNT_CNT_CNT (c : Nat) : Fld := ⟨MU_MNT_CNT_off c, 0, 32⟩
/-- MU_MNT_META, R138. -/
abbrev MU_MNT_META_off (c : Nat) : Nat := 0x100dc + 0x1000 * c
abbrev MU_MNT_META_META (c : Nat) : Fld := ⟨MU_MNT_META_off c, 1, 31⟩
/-- MU_MNT_CTRL, R138. -/
abbrev MU_MNT_CTRL_off (c : Nat) : Nat := 0x100e0 + 0x1000 * c
abbrev MU_MNT_CTRL_ABORT (c : Nat) : Fld := ⟨MU_MNT_CTRL_off c, 4, 1⟩
abbrev MU_MNT_CTRL_REFUSED (c : Nat) : Fld := ⟨MU_MNT_CTRL_off c, 3, 1⟩
abbrev MU_MNT_CTRL_DONE (c : Nat) : Fld := ⟨MU_MNT_CTRL_off c, 2, 1⟩
abbrev MU_MNT_CTRL_BUSY (c : Nat) : Fld := ⟨MU_MNT_CTRL_off c, 1, 1⟩
abbrev MU_MNT_CTRL_GO (c : Nat) : Fld := ⟨MU_MNT_CTRL_off c, 0, 1⟩
/-- MU_MNT_LEFT, R138. -/
abbrev MU_MNT_LEFT_off (c : Nat) : Nat := 0x100e4 + 0x1000 * c
abbrev MU_MNT_LEFT_LEFT (c : Nat) : Fld := ⟨MU_MNT_LEFT_off c, 0, 32⟩
/-- MU_CTRL, R151. -/
abbrev MU_CTRL_off (c : Nat) : Nat := 0x10020 + 0x1000 * c
abbrev MU_CTRL_FENCE (c : Nat) : Fld := ⟨MU_CTRL_off c, 4, 1⟩
abbrev MU_CTRL_LOCEN (c : Nat) : Fld := ⟨MU_CTRL_off c, 2, 1⟩
abbrev MU_CTRL_SCREN (c : Nat) : Fld := ⟨MU_CTRL_off c, 1, 1⟩
abbrev MU_CTRL_EN (c : Nat) : Fld := ⟨MU_CTRL_off c, 0, 1⟩
/-- MU_GEOM, R151. -/
abbrev MU_GEOM_off (c : Nat) : Nat := 0x10024 + 0x1000 * c
abbrev MU_GEOM_ROWBITS (c : Nat) : Fld := ⟨MU_GEOM_off c, 8, 5⟩
abbrev MU_GEOM_RANKLOG (c : Nat) : Fld := ⟨MU_GEOM_off c, 4, 2⟩
abbrev MU_GEOM_DIMMLOG (c : Nat) : Fld := ⟨MU_GEOM_off c, 0, 1⟩
/-- MU_STAT, R151. -/
abbrev MU_STAT_off (c : Nat) : Nat := 0x10028 + 0x1000 * c
abbrev MU_STAT_CFGREF (c : Nat) : Fld := ⟨MU_STAT_off c, 11, 1⟩
abbrev MU_STAT_DFMREF (c : Nat) : Fld := ⟨MU_STAT_off c, 10, 1⟩
abbrev MU_STAT_PLUSE (c : Nat) : Fld := ⟨MU_STAT_off c, 0, 7⟩
/-- MU_CE_CNT, R151. -/
abbrev MU_CE_CNT_off (c : Nat) : Nat := 0x1002c + 0x1000 * c
abbrev MU_CE_CNT_COUNT (c : Nat) : Fld := ⟨MU_CE_CNT_off c, 0, 32⟩
/-- MU_CE_THR, R151. -/
abbrev MU_CE_THR_off (c : Nat) : Nat := 0x10030 + 0x1000 * c
abbrev MU_CE_THR_THR (c : Nat) : Fld := ⟨MU_CE_THR_off c, 0, 16⟩
/-- MU_UE_CNT, R151. -/
abbrev MU_UE_CNT_off (c : Nat) : Nat := 0x10034 + 0x1000 * c
abbrev MU_UE_CNT_COUNT (c : Nat) : Fld := ⟨MU_UE_CNT_off c, 0, 32⟩
/-- MU_ERR_CL_LO, R151. -/
abbrev MU_ERR_CL_LO_off (c : Nat) : Nat := 0x10038 + 0x1000 * c
abbrev MU_ERR_CL_LO_CL (c : Nat) : Fld := ⟨MU_ERR_CL_LO_off c, 0, 32⟩
/-- MU_ERR_CL_HI, R151. -/
abbrev MU_ERR_CL_HI_off (c : Nat) : Nat := 0x1003c + 0x1000 * c
abbrev MU_ERR_CL_HI_CL (c : Nat) : Fld := ⟨MU_ERR_CL_HI_off c, 0, 1⟩
/-- MU_DFM, R152. -/
abbrev MU_DFM_off (c i : Nat) : Nat := 0x10040 + 0x1000 * c + 0x4 * i
abbrev MU_DFM_VALID (c i : Nat) : Fld := ⟨MU_DFM_off c i, 15, 1⟩
abbrev MU_DFM_DOUBLE (c i : Nat) : Fld := ⟨MU_DFM_off c i, 14, 1⟩
abbrev MU_DFM_SRC (c i : Nat) : Fld := ⟨MU_DFM_off c i, 13, 1⟩
abbrev MU_DFM_UECNT (c i : Nat) : Fld := ⟨MU_DFM_off c i, 8, 4⟩
abbrev MU_DFM_DEV (c i : Nat) : Fld := ⟨MU_DFM_off c i, 0, 4⟩
/-- MU_SCR_BASE, R153. -/
abbrev MU_SCR_BASE_off (c : Nat) : Nat := 0x10080 + 0x1000 * c
abbrev MU_SCR_BASE_BASE (c : Nat) : Fld := ⟨MU_SCR_BASE_off c, 0, 27⟩
/-- MU_SCR_LIMIT, R153. -/
abbrev MU_SCR_LIMIT_off (c : Nat) : Nat := 0x10084 + 0x1000 * c
abbrev MU_SCR_LIMIT_LIMIT (c : Nat) : Fld := ⟨MU_SCR_LIMIT_off c, 0, 28⟩
/-- MU_SCR_PTR0, R153. -/
abbrev MU_SCR_PTR0_off (c : Nat) : Nat := 0x10088 + 0x1000 * c
abbrev MU_SCR_PTR0_PTR (c : Nat) : Fld := ⟨MU_SCR_PTR0_off c, 0, 32⟩
/-- MU_SCR_PTR1, R153. -/
abbrev MU_SCR_PTR1_off (c : Nat) : Nat := 0x1008c + 0x1000 * c
abbrev MU_SCR_PTR1_PTR (c : Nat) : Fld := ⟨MU_SCR_PTR1_off c, 0, 32⟩
/-- MU_SCR_PASS, R153. -/
abbrev MU_SCR_PASS_off (c : Nat) : Nat := 0x10090 + 0x1000 * c
abbrev MU_SCR_PASS_PASS (c : Nat) : Fld := ⟨MU_SCR_PASS_off c, 0, 16⟩
/-- MU_SCR_FIX, R153. -/
abbrev MU_SCR_FIX_off (c : Nat) : Nat := 0x10094 + 0x1000 * c
abbrev MU_SCR_FIX_COUNT (c : Nat) : Fld := ⟨MU_SCR_FIX_off c, 0, 32⟩
/-- MU_PL_IDX, R153. -/
abbrev MU_PL_IDX_off (c : Nat) : Nat := 0x100a0 + 0x1000 * c
abbrev MU_PL_IDX_IDX (c : Nat) : Fld := ⟨MU_PL_IDX_off c, 0, 6⟩
/-- MU_PL_LO, R153. -/
abbrev MU_PL_LO_off (c : Nat) : Nat := 0x100a4 + 0x1000 * c
abbrev MU_PL_LO_CL (c : Nat) : Fld := ⟨MU_PL_LO_off c, 0, 32⟩
/-- MU_PL_HI, R153. -/
abbrev MU_PL_HI_off (c : Nat) : Nat := 0x100a8 + 0x1000 * c
abbrev MU_PL_HI_VALID (c : Nat) : Fld := ⟨MU_PL_HI_off c, 31, 1⟩
abbrev MU_PL_HI_CL (c : Nat) : Fld := ⟨MU_PL_HI_off c, 0, 1⟩
/-- MU_CT_CMP, R153. -/
abbrev MU_CT_CMP_off (c : Nat) : Nat := 0x100b0 + 0x1000 * c
abbrev MU_CT_CMP_COUNT (c : Nat) : Fld := ⟨MU_CT_CMP_off c, 0, 32⟩
/-- MU_CT_NOGAIN, R153. -/
abbrev MU_CT_NOGAIN_off (c : Nat) : Nat := 0x100b4 + 0x1000 * c
abbrev MU_CT_NOGAIN_COUNT (c : Nat) : Fld := ⟨MU_CT_NOGAIN_off c, 0, 32⟩
/-- MU_CT_VFAIL, R153. -/
abbrev MU_CT_VFAIL_off (c : Nat) : Nat := 0x100b8 + 0x1000 * c
abbrev MU_CT_VFAIL_COUNT (c : Nat) : Fld := ⟨MU_CT_VFAIL_off c, 0, 32⟩
/-- MU_CT_DERR, R153. -/
abbrev MU_CT_DERR_off (c : Nat) : Nat := 0x100bc + 0x1000 * c
abbrev MU_CT_DERR_COUNT (c : Nat) : Fld := ⟨MU_CT_DERR_off c, 0, 32⟩
/-- TW_CTRL, R193. -/
abbrev TW_CTRL_off : Nat := 0xc020
abbrev TW_CTRL_VFYGO : Fld := ⟨TW_CTRL_off, 6, 1⟩
abbrev TW_CTRL_RALGN : Fld := ⟨TW_CTRL_off, 5, 1⟩
abbrev TW_CTRL_FAIL : Fld := ⟨TW_CTRL_off, 4, 1⟩
abbrev TW_CTRL_LEAVE : Fld := ⟨TW_CTRL_off, 3, 1⟩
abbrev TW_CTRL_DUAL : Fld := ⟨TW_CTRL_off, 2, 1⟩
abbrev TW_CTRL_JOIN : Fld := ⟨TW_CTRL_off, 1, 1⟩
abbrev TW_CTRL_PAIR : Fld := ⟨TW_CTRL_off, 0, 1⟩
/-- TW_CFG, R193. -/
abbrev TW_CFG_off : Nat := 0xc024
abbrev TW_CFG_PAIRID : Fld := ⟨TW_CFG_off, 24, 4⟩
abbrev TW_CFG_CUTOFF : Fld := ⟨TW_CFG_off, 0, 10⟩
/-- TW_STAT, R193. -/
abbrev TW_STAT_off : Nat := 0xc028
abbrev TW_STAT_VERDIFF : Fld := ⟨TW_STAT_off, 15, 1⟩
abbrev TW_STAT_RSYBUSY : Fld := ⟨TW_STAT_off, 14, 1⟩
abbrev TW_STAT_VFYBUSY : Fld := ⟨TW_STAT_off, 13, 1⟩
abbrev TW_STAT_SUSOVF : Fld := ⟨TW_STAT_off, 12, 1⟩
abbrev TW_STAT_RALRDY : Fld := ⟨TW_STAT_off, 11, 1⟩
abbrev TW_STAT_PFAIL : Fld := ⟨TW_STAT_off, 10, 1⟩
abbrev TW_STAT_PRES : Fld := ⟨TW_STAT_off, 9, 1⟩
abbrev TW_STAT_LEAD : Fld := ⟨TW_STAT_off, 8, 1⟩
abbrev TW_STAT_SIDE : Fld := ⟨TW_STAT_off, 4, 1⟩
abbrev TW_STAT_STATE : Fld := ⟨TW_STAT_off, 0, 3⟩
/-- TW_PVER, R193. -/
abbrev TW_PVER_off : Nat := 0xc02c
abbrev TW_PVER_VER : Fld := ⟨TW_PVER_off, 0, 32⟩
/-- TW_TKO_LO, R193. -/
abbrev TW_TKO_LO_off : Nat := 0xc030
abbrev TW_TKO_LO_FRAME : Fld := ⟨TW_TKO_LO_off, 0, 32⟩
/-- TW_TKO_HI, R193. -/
abbrev TW_TKO_HI_off : Nat := 0xc034
abbrev TW_TKO_HI_FRAME : Fld := ⟨TW_TKO_HI_off, 0, 4⟩
/-- TW_SEGSUM, R193. -/
abbrev TW_SEGSUM_off : Nat := 0xc038
abbrev TW_SEGSUM_SUM : Fld := ⟨TW_SEGSUM_off, 0, 32⟩
/-- TW_CNT_WR, R193. -/
abbrev TW_CNT_WR_off : Nat := 0xc040
abbrev TW_CNT_WR_COUNT : Fld := ⟨TW_CNT_WR_off, 0, 32⟩
/-- TW_CNT_LATE, R193. -/
abbrev TW_CNT_LATE_off : Nat := 0xc044
abbrev TW_CNT_LATE_COUNT : Fld := ⟨TW_CNT_LATE_off, 0, 32⟩
/-- TW_CNT_DIV, R193. -/
abbrev TW_CNT_DIV_off : Nat := 0xc048
abbrev TW_CNT_DIV_COUNT : Fld := ⟨TW_CNT_DIV_off, 0, 32⟩
/-- TW_CNT_NEWER, R193. -/
abbrev TW_CNT_NEWER_off : Nat := 0xc04c
abbrev TW_CNT_NEWER_COUNT : Fld := ⟨TW_CNT_NEWER_off, 0, 32⟩
/-- TW_CNT_LINK, R193. -/
abbrev TW_CNT_LINK_off : Nat := 0xc050
abbrev TW_CNT_LINK_COUNT : Fld := ⟨TW_CNT_LINK_off, 0, 32⟩
/-- TW_CNT_HBMISS, R193. -/
abbrev TW_CNT_HBMISS_off : Nat := 0xc054
abbrev TW_CNT_HBMISS_COUNT : Fld := ⟨TW_CNT_HBMISS_off, 0, 32⟩
/-- TW_VFY_SEG, R193. -/
abbrev TW_VFY_SEG_off : Nat := 0xc060
abbrev TW_VFY_SEG_LAST : Fld := ⟨TW_VFY_SEG_off, 16, 12⟩
abbrev TW_VFY_SEG_FIRST : Fld := ⟨TW_VFY_SEG_off, 0, 12⟩
/-- TW_VFY_STAT, R193. -/
abbrev TW_VFY_STAT_off : Nat := 0xc064
abbrev TW_VFY_STAT_DIFFS : Fld := ⟨TW_VFY_STAT_off, 16, 16⟩
abbrev TW_VFY_STAT_SEG : Fld := ⟨TW_VFY_STAT_off, 0, 12⟩
/-- TW_RSY_STAT, R193. -/
abbrev TW_RSY_STAT_off : Nat := 0xc068
abbrev TW_RSY_STAT_DONE : Fld := ⟨TW_RSY_STAT_off, 31, 1⟩
abbrev TW_RSY_STAT_SEG : Fld := ⟨TW_RSY_STAT_off, 0, 12⟩
/-- TW_SUS_IDX, R193. -/
abbrev TW_SUS_IDX_off : Nat := 0xc070
abbrev TW_SUS_IDX_IDX : Fld := ⟨TW_SUS_IDX_off, 0, 6⟩
/-- TW_SUS_LO, R193. -/
abbrev TW_SUS_LO_off : Nat := 0xc074
abbrev TW_SUS_LO_ADDR : Fld := ⟨TW_SUS_LO_off, 0, 32⟩
/-- TW_SUS_HI, R193. -/
abbrev TW_SUS_HI_off : Nat := 0xc078
abbrev TW_SUS_HI_VALID : Fld := ⟨TW_SUS_HI_off, 31, 1⟩
abbrev TW_SUS_HI_ADDR : Fld := ⟨TW_SUS_HI_off, 0, 16⟩
/-- EA_BAY_CTRL, R223. -/
abbrev EA_BAY_CTRL_off (b : Nat) : Nat := 0x40020 + 0x4000 * b
abbrev EA_BAY_CTRL_EN (b : Nat) : Fld := ⟨EA_BAY_CTRL_off b, 8, 1⟩
abbrev EA_BAY_CTRL_SUPV (b : Nat) : Fld := ⟨EA_BAY_CTRL_off b, 0, 3⟩
/-- EA_MAP, R223. -/
abbrev EA_MAP_off (b : Nat) : Nat := 0x40024 + 0x4000 * b
abbrev EA_MAP_MAP (b : Nat) : Fld := ⟨EA_MAP_off b, 0, 32⟩
/-- EA_MAP_NEXT, R223. -/
abbrev EA_MAP_NEXT_off (b : Nat) : Nat := 0x40028 + 0x4000 * b
abbrev EA_MAP_NEXT_MAP (b : Nat) : Fld := ⟨EA_MAP_NEXT_off b, 0, 32⟩
/-- EA_SWAP, R223. -/
abbrev EA_SWAP_off (b : Nat) : Nat := 0x4002c + 0x4000 * b
abbrev EA_SWAP_REFUSED (b : Nat) : Fld := ⟨EA_SWAP_off b, 2, 1⟩
abbrev EA_SWAP_PEND (b : Nat) : Fld := ⟨EA_SWAP_off b, 1, 1⟩
abbrev EA_SWAP_ARM (b : Nat) : Fld := ⟨EA_SWAP_off b, 0, 1⟩
/-- EA_SLOT_STAT, R223. -/
abbrev EA_SLOT_STAT_off (b : Nat) : Nat := 0x40030 + 0x4000 * b
abbrev EA_SLOT_STAT_STATE (b : Nat) : Fld := ⟨EA_SLOT_STAT_off b, 0, 27⟩
/-- EA_SUB, R223. -/
abbrev EA_SUB_off (b : Nat) : Nat := 0x40034 + 0x4000 * b
abbrev EA_SUB_VALID (b : Nat) : Fld := ⟨EA_SUB_off b, 31, 1⟩
abbrev EA_SUB_SLOT (b : Nat) : Fld := ⟨EA_SUB_off b, 4, 4⟩
abbrev EA_SUB_LOG (b : Nat) : Fld := ⟨EA_SUB_off b, 0, 3⟩
/-- EA_RETRY_CNT, R223. -/
abbrev EA_RETRY_CNT_off (b : Nat) : Nat := 0x40038 + 0x4000 * b
abbrev EA_RETRY_CNT_COUNT (b : Nat) : Fld := ⟨EA_RETRY_CNT_off b, 0, 32⟩
/-- EA_SPARE_CNT, R223. -/
abbrev EA_SPARE_CNT_off (b : Nat) : Nat := 0x4003c + 0x4000 * b
abbrev EA_SPARE_CNT_COUNT (b : Nat) : Fld := ⟨EA_SPARE_CNT_off b, 0, 32⟩
/-- EA_ENG_CTRL, R224. -/
abbrev EA_ENG_CTRL_off (b e : Nat) : Nat := 0x42020 + 0x4000 * b + 0x200 * e
abbrev EA_ENG_CTRL_INJCTX (b e : Nat) : Fld := ⟨EA_ENG_CTRL_off b e, 5, 3⟩
abbrev EA_ENG_CTRL_INJ (b e : Nat) : Fld := ⟨EA_ENG_CTRL_off b e, 4, 1⟩
abbrev EA_ENG_CTRL_RETIRE (b e : Nat) : Fld := ⟨EA_ENG_CTRL_off b e, 2, 1⟩
abbrev EA_ENG_CTRL_COMPAT (b e : Nat) : Fld := ⟨EA_ENG_CTRL_off b e, 1, 1⟩
/-- EA_ENG_STAT, R224. -/
abbrev EA_ENG_STAT_off (b e : Nat) : Nat := 0x42024 + 0x4000 * b + 0x200 * e
abbrev EA_ENG_STAT_WAIT (b e : Nat) : Fld := ⟨EA_ENG_STAT_off b e, 24, 8⟩
abbrev EA_ENG_STAT_READY (b e : Nat) : Fld := ⟨EA_ENG_STAT_off b e, 16, 8⟩
abbrev EA_ENG_STAT_LOCK (b e : Nat) : Fld := ⟨EA_ENG_STAT_off b e, 4, 1⟩
abbrev EA_ENG_STAT_RUNV (b e : Nat) : Fld := ⟨EA_ENG_STAT_off b e, 3, 1⟩
abbrev EA_ENG_STAT_RUN (b e : Nat) : Fld := ⟨EA_ENG_STAT_off b e, 0, 3⟩
/-- EA_CTX_STAT, R224. -/
abbrev EA_CTX_STAT_off (b e i : Nat) : Nat := 0x42040 + 0x4000 * b + 0x200 * e + 0x4 * i
abbrev EA_CTX_STAT_CAUSE (b e i : Nat) : Fld := ⟨EA_CTX_STAT_off b e i, 24, 8⟩
abbrev EA_CTX_STAT_ATTEMPT (b e i : Nat) : Fld := ⟨EA_CTX_STAT_off b e i, 10, 2⟩
abbrev EA_CTX_STAT_LOCK (b e i : Nat) : Fld := ⟨EA_CTX_STAT_off b e i, 9, 1⟩
abbrev EA_CTX_STAT_BANK (b e i : Nat) : Fld := ⟨EA_CTX_STAT_off b e i, 8, 1⟩
abbrev EA_CTX_STAT_PRIV (b e i : Nat) : Fld := ⟨EA_CTX_STAT_off b e i, 4, 2⟩
abbrev EA_CTX_STAT_STATE (b e i : Nat) : Fld := ⟨EA_CTX_STAT_off b e i, 0, 3⟩
/-- EA_CTX_PC, R224. -/
abbrev EA_CTX_PC_off (b e i : Nat) : Nat := 0x42060 + 0x4000 * b + 0x200 * e + 0x4 * i
abbrev EA_CTX_PC_CB (b e i : Nat) : Fld := ⟨EA_CTX_PC_off b e i, 16, 8⟩
abbrev EA_CTX_PC_PC (b e i : Nat) : Fld := ⟨EA_CTX_PC_off b e i, 0, 16⟩
/-- EA_CTX_LIRQ, R224. -/
abbrev EA_CTX_LIRQ_off (b e i : Nat) : Nat := 0x42080 + 0x4000 * b + 0x200 * e + 0x4 * i
abbrev EA_CTX_LIRQ_EN (b e i : Nat) : Fld := ⟨EA_CTX_LIRQ_off b e i, 16, 3⟩
abbrev EA_CTX_LIRQ_SET (b e i : Nat) : Fld := ⟨EA_CTX_LIRQ_off b e i, 8, 3⟩
abbrev EA_CTX_LIRQ_PEND (b e i : Nat) : Fld := ⟨EA_CTX_LIRQ_off b e i, 0, 3⟩
/-- CS_VERSION, R264. -/
abbrev CS_VERSION_off : Nat := 0x5020
abbrev CS_VERSION_ROM : Fld := ⟨CS_VERSION_off, 16, 16⟩
abbrev CS_VERSION_LEVEL : Fld := ⟨CS_VERSION_off, 0, 16⟩
/-- CS_PATCH_CTRL, R264. -/
abbrev CS_PATCH_CTRL_off : Nat := 0x5024
abbrev CS_PATCH_CTRL_ACT : Fld := ⟨CS_PATCH_CTRL_off, 1, 1⟩
abbrev CS_PATCH_CTRL_GO : Fld := ⟨CS_PATCH_CTRL_off, 0, 1⟩
/-- CS_PATCH_STAT, R264. -/
abbrev CS_PATCH_STAT_off : Nat := 0x5028
abbrev CS_PATCH_STAT_ERR : Fld := ⟨CS_PATCH_STAT_off, 8, 8⟩
abbrev CS_PATCH_STAT_STATE : Fld := ⟨CS_PATCH_STAT_off, 0, 3⟩
/-- CS_PATCH_LEVEL, R264. -/
abbrev CS_PATCH_LEVEL_off : Nat := 0x502c
abbrev CS_PATCH_LEVEL_LEVEL : Fld := ⟨CS_PATCH_LEVEL_off, 0, 16⟩
/-- CS_PATCH_LEN, R264. -/
abbrev CS_PATCH_LEN_off : Nat := 0x5030
abbrev CS_PATCH_LEN_LEN : Fld := ⟨CS_PATCH_LEN_off, 0, 15⟩
/-- CS_CE_CNT, R264. -/
abbrev CS_CE_CNT_off : Nat := 0x5034
abbrev CS_CE_CNT_COUNT : Fld := ⟨CS_CE_CNT_off, 0, 32⟩
/-- CS_MATCH_ADDR, R265. -/
abbrev CS_MATCH_ADDR_off (b i : Nat) : Nat := 0x40400 + 0x4000 * b + 0x8 * i
abbrev CS_MATCH_ADDR_EN (b i : Nat) : Fld := ⟨CS_MATCH_ADDR_off b i, 31, 1⟩
abbrev CS_MATCH_ADDR_KIND (b i : Nat) : Fld := ⟨CS_MATCH_ADDR_off b i, 30, 1⟩
abbrev CS_MATCH_ADDR_ENGMASK (b i : Nat) : Fld := ⟨CS_MATCH_ADDR_off b i, 16, 8⟩
abbrev CS_MATCH_ADDR_ROMADDR (b i : Nat) : Fld := ⟨CS_MATCH_ADDR_off b i, 0, 13⟩
/-- CS_MATCH_TGT, R265. -/
abbrev CS_MATCH_TGT_off (b i : Nat) : Nat := 0x40404 + 0x4000 * b + 0x8 * i
abbrev CS_MATCH_TGT_TARGET (b i : Nat) : Fld := ⟨CS_MATCH_TGT_off b i, 0, 10⟩
/-- CS_BAY_STAT, R265. -/
abbrev CS_BAY_STAT_off (b : Nat) : Nat := 0x40040 + 0x4000 * b
abbrev CS_BAY_STAT_CONFLICT (b : Nat) : Fld := ⟨CS_BAY_STAT_off b, 31, 1⟩
abbrev CS_BAY_STAT_BRKLOST (b : Nat) : Fld := ⟨CS_BAY_STAT_off b, 30, 1⟩
abbrev CS_BAY_STAT_BADCNT (b : Nat) : Fld := ⟨CS_BAY_STAT_off b, 0, 11⟩
/-- EA_GATE_CFG, R350. -/
abbrev EA_GATE_CFG_off (b : Nat) : Nat := 0x40050 + 0x4000 * b
abbrev EA_GATE_CFG_BASE (b : Nat) : Fld := ⟨EA_GATE_CFG_off b, 16, 16⟩
abbrev EA_GATE_CFG_COUNT (b : Nat) : Fld := ⟨EA_GATE_CFG_off b, 0, 11⟩
/-- EA_XVEC, R350. -/
abbrev EA_XVEC_off (b i : Nat) : Nat := 0x40060 + 0x4000 * b + 0x4 * i
abbrev EA_XVEC_CB (b i : Nat) : Fld := ⟨EA_XVEC_off b i, 16, 8⟩
abbrev EA_XVEC_PC (b i : Nat) : Fld := ⟨EA_XVEC_off b i, 0, 16⟩
/-- EA_XSTK_S, R350. -/
abbrev EA_XSTK_S_off (b : Nat) : Nat := 0x40070 + 0x4000 * b
abbrev EA_XSTK_S_BANK (b : Nat) : Fld := ⟨EA_XSTK_S_off b, 16, 8⟩
abbrev EA_XSTK_S_BASE (b : Nat) : Fld := ⟨EA_XSTK_S_off b, 0, 16⟩
/-- EA_XSTK_M, R350. -/
abbrev EA_XSTK_M_off (b : Nat) : Nat := 0x40074 + 0x4000 * b
abbrev EA_XSTK_M_BANK (b : Nat) : Fld := ⟨EA_XSTK_M_off b, 16, 8⟩
abbrev EA_XSTK_M_BASE (b : Nat) : Fld := ⟨EA_XSTK_M_off b, 0, 16⟩
/-- EA_XSTK_STRIDE, R350. -/
abbrev EA_XSTK_STRIDE_off (b : Nat) : Nat := 0x40078 + 0x4000 * b
abbrev EA_XSTK_STRIDE_MSTRIDE (b : Nat) : Fld := ⟨EA_XSTK_STRIDE_off b, 16, 16⟩
abbrev EA_XSTK_STRIDE_SSTRIDE (b : Nat) : Fld := ⟨EA_XSTK_STRIDE_off b, 0, 16⟩
/-- EA_CTX_XCPT, R351. -/
abbrev EA_CTX_XCPT_off (b e i : Nat) : Nat := 0x420a0 + 0x4000 * b + 0x200 * e + 0x4 * i
abbrev EA_CTX_XCPT_CEIL (b e i : Nat) : Fld := ⟨EA_CTX_XCPT_off b e i, 30, 2⟩
abbrev EA_CTX_XCPT_MODE (b e i : Nat) : Fld := ⟨EA_CTX_XCPT_off b e i, 29, 1⟩
abbrev EA_CTX_XCPT_WCLASS (b e i : Nat) : Fld := ⟨EA_CTX_XCPT_off b e i, 26, 3⟩
abbrev EA_CTX_XCPT_DF (b e i : Nat) : Fld := ⟨EA_CTX_XCPT_off b e i, 25, 1⟩
abbrev EA_CTX_XCPT_TRIPLED (b e i : Nat) : Fld := ⟨EA_CTX_XCPT_off b e i, 24, 1⟩
abbrev EA_CTX_XCPT_FDEPTH (b e i : Nat) : Fld := ⟨EA_CTX_XCPT_off b e i, 16, 8⟩
abbrev EA_CTX_XCPT_SCAUSE (b e i : Nat) : Fld := ⟨EA_CTX_XCPT_off b e i, 8, 8⟩
abbrev EA_CTX_XCPT_LCAUSE (b e i : Nat) : Fld := ⟨EA_CTX_XCPT_off b e i, 0, 8⟩
/-- SV_CTRL, R384. -/
abbrev SV_CTRL_off : Nat := 0xd020
abbrev SV_CTRL_ABORT : Fld := ⟨SV_CTRL_off, 1, 1⟩
abbrev SV_CTRL_EN : Fld := ⟨SV_CTRL_off, 0, 1⟩
/-- SV_STAT, R384. -/
abbrev SV_STAT_off : Nat := 0xd024
abbrev SV_STAT_RUN : Fld := ⟨SV_STAT_off, 0, 7⟩
/-- SV_CNT_SUB, R384. -/
abbrev SV_CNT_SUB_off : Nat := 0xd028
abbrev SV_CNT_SUB_COUNT : Fld := ⟨SV_CNT_SUB_off, 0, 32⟩
/-- SV_CNT_FAIL, R384. -/
abbrev SV_CNT_FAIL_off : Nat := 0xd02c
abbrev SV_CNT_FAIL_COUNT : Fld := ⟨SV_CNT_FAIL_off, 0, 32⟩
/-- SV_UNIT_CTRL, R385. -/
abbrev SV_UNIT_CTRL_off (b : Nat) : Nat := 0x41020 + 0x4000 * b
abbrev SV_UNIT_CTRL_WBASE (b : Nat) : Fld := ⟨SV_UNIT_CTRL_off b, 0, 6⟩
/-- SV_UNIT_STAT, R385. -/
abbrev SV_UNIT_STAT_off (b : Nat) : Nat := 0x41024 + 0x4000 * b
abbrev SV_UNIT_STAT_BUSY (b : Nat) : Fld := ⟨SV_UNIT_STAT_off b, 31, 1⟩
abbrev SV_UNIT_STAT_SLOT (b : Nat) : Fld := ⟨SV_UNIT_STAT_off b, 0, 14⟩
/-- SV_UNIT_LINES, R385. -/
abbrev SV_UNIT_LINES_off (b : Nat) : Nat := 0x41028 + 0x4000 * b
abbrev SV_UNIT_LINES_COUNT (b : Nat) : Fld := ⟨SV_UNIT_LINES_off b, 0, 32⟩
/-- SV_UNIT_BAD, R385. -/
abbrev SV_UNIT_BAD_off (b : Nat) : Nat := 0x4102c + 0x4000 * b
abbrev SV_UNIT_BAD_COUNT (b : Nat) : Fld := ⟨SV_UNIT_BAD_off b, 0, 32⟩
/-- SV_UNIT_FLAGS, R385. -/
abbrev SV_UNIT_FLAGS_off (b : Nat) : Nat := 0x41030 + 0x4000 * b
abbrev SV_UNIT_FLAGS_FLAGS (b : Nat) : Fld := ⟨SV_UNIT_FLAGS_off b, 0, 5⟩
/-- BM_CTRL, R423. -/
abbrev BM_CTRL_off (b : Nat) : Nat := 0x40100 + 0x4000 * b
abbrev BM_CTRL_OFF (b : Nat) : Fld := ⟨BM_CTRL_off b, 1, 1⟩
abbrev BM_CTRL_BIST (b : Nat) : Fld := ⟨BM_CTRL_off b, 0, 1⟩
/-- BM_STAT, R423. -/
abbrev BM_STAT_off (b : Nat) : Nat := 0x40104 + 0x4000 * b
abbrev BM_STAT_OFFREF (b : Nat) : Fld := ⟨BM_STAT_off b, 6, 1⟩
abbrev BM_STAT_OWNCONF (b : Nat) : Fld := ⟨BM_STAT_off b, 5, 1⟩
abbrev BM_STAT_XCOLL (b : Nat) : Fld := ⟨BM_STAT_off b, 4, 1⟩
abbrev BM_STAT_BISTFAIL (b : Nat) : Fld := ⟨BM_STAT_off b, 3, 1⟩
abbrev BM_STAT_CLEARING (b : Nat) : Fld := ⟨BM_STAT_off b, 2, 1⟩
abbrev BM_STAT_PWROFF (b : Nat) : Fld := ⟨BM_STAT_off b, 1, 1⟩
abbrev BM_STAT_READY (b : Nat) : Fld := ⟨BM_STAT_off b, 0, 1⟩
/-- BM_CE_CNT, R423. -/
abbrev BM_CE_CNT_off (b : Nat) : Nat := 0x40108 + 0x4000 * b
abbrev BM_CE_CNT_COUNT (b : Nat) : Fld := ⟨BM_CE_CNT_off b, 0, 32⟩
/-- BM_UE_CNT, R423. -/
abbrev BM_UE_CNT_off (b : Nat) : Nat := 0x4010c + 0x4000 * b
abbrev BM_UE_CNT_COUNT (b : Nat) : Fld := ⟨BM_UE_CNT_off b, 0, 32⟩
/-- BM_UE, R423. -/
abbrev BM_UE_off (b : Nat) : Nat := 0x40110 + 0x4000 * b
abbrev BM_UE_REQ (b : Nat) : Fld := ⟨BM_UE_off b, 28, 4⟩
abbrev BM_UE_ADDR (b : Nat) : Fld := ⟨BM_UE_off b, 0, 19⟩
/-- BM_XCOLL, R423. -/
abbrev BM_XCOLL_off (b : Nat) : Nat := 0x40114 + 0x4000 * b
abbrev BM_XCOLL_REQ (b : Nat) : Fld := ⟨BM_XCOLL_off b, 28, 4⟩
abbrev BM_XCOLL_OFS (b : Nat) : Fld := ⟨BM_XCOLL_off b, 0, 16⟩
/-- BM_XCOLL_CNT, R423. -/
abbrev BM_XCOLL_CNT_off (b : Nat) : Nat := 0x40118 + 0x4000 * b
abbrev BM_XCOLL_CNT_COUNT (b : Nat) : Fld := ⟨BM_XCOLL_CNT_off b, 0, 32⟩
/-- BM_BIST_RES, R423. -/
abbrev BM_BIST_RES_off (b : Nat) : Nat := 0x4011c + 0x4000 * b
abbrev BM_BIST_RES_FAIL (b : Nat) : Fld := ⟨BM_BIST_RES_off b, 0, 5⟩
/-- BM_REPAIR, R423. -/
abbrev BM_REPAIR_off (b i : Nat) : Nat := 0x40120 + 0x4000 * b + 0x4 * i
abbrev BM_REPAIR_ALL (b i : Nat) : Fld := ⟨BM_REPAIR_off b i, 0, 32⟩
/-- BM_XBUF_OWN, R423. -/
abbrev BM_XBUF_OWN_off (b i : Nat) : Nat := 0x40200 + 0x4000 * b + 0x4 * i
abbrev BM_XBUF_OWN_KIND (b i : Nat) : Fld := ⟨BM_XBUF_OWN_off b i, 6, 2⟩
abbrev BM_XBUF_OWN_ID (b i : Nat) : Fld := ⟨BM_XBUF_OWN_off b i, 0, 6⟩
/-- EV_GCTL, R448. -/
abbrev EV_GCTL_off : Nat := 0x2020
abbrev EV_GCTL_STORM : Fld := ⟨EV_GCTL_off, 24, 8⟩
abbrev EV_GCTL_URG : Fld := ⟨EV_GCTL_off, 8, 8⟩
abbrev EV_GCTL_EN : Fld := ⟨EV_GCTL_off, 0, 1⟩
/-- EV_STAT, R448. -/
abbrev EV_STAT_off : Nat := 0x2024
abbrev EV_STAT_FROZEN : Fld := ⟨EV_STAT_off, 8, 1⟩
abbrev EV_STAT_FRZBUSY : Fld := ⟨EV_STAT_off, 3, 1⟩
abbrev EV_STAT_FRZTO : Fld := ⟨EV_STAT_off, 2, 1⟩
abbrev EV_STAT_DONEERR : Fld := ⟨EV_STAT_off, 1, 1⟩
abbrev EV_STAT_STORMED : Fld := ⟨EV_STAT_off, 0, 1⟩
/-- EV_FRZ, R448. -/
abbrev EV_FRZ_off : Nat := 0x2028
abbrev EV_FRZ_LIMIT : Fld := ⟨EV_FRZ_off, 8, 8⟩
abbrev EV_FRZ_FRZ : Fld := ⟨EV_FRZ_off, 7, 1⟩
abbrev EV_FRZ_ID : Fld := ⟨EV_FRZ_off, 0, 6⟩
/-- EV_PEND, R448. -/
abbrev EV_PEND_off (i : Nat) : Nat := 0x2040 + 0x4 * i
abbrev EV_PEND_PEND (i : Nat) : Fld := ⟨EV_PEND_off i, 0, 32⟩
/-- EV_MASK, R448. -/
abbrev EV_MASK_off (i : Nat) : Nat := 0x2060 + 0x4 * i
abbrev EV_MASK_MASK (i : Nat) : Fld := ⟨EV_MASK_off i, 0, 32⟩
/-- EV_BLK_WD, R448. -/
abbrev EV_BLK_WD_off : Nat := 0x2080
abbrev EV_BLK_WD_ARMED : Fld := ⟨EV_BLK_WD_off, 31, 1⟩
abbrev EV_BLK_WD_ARM : Fld := ⟨EV_BLK_WD_off, 30, 1⟩
abbrev EV_BLK_WD_LIMIT : Fld := ⟨EV_BLK_WD_off, 0, 16⟩
/-- EV_BLK_KICK, R448. -/
abbrev EV_BLK_KICK_off : Nat := 0x2084
abbrev EV_BLK_KICK_KEY : Fld := ⟨EV_BLK_KICK_off, 0, 16⟩
/-- EV_BLK_REM, R448. -/
abbrev EV_BLK_REM_off : Nat := 0x2088
abbrev EV_BLK_REM_REM : Fld := ⟨EV_BLK_REM_off, 0, 16⟩
/-- EV_WD_CFG, R448. -/
abbrev EV_WD_CFG_off : Nat := 0x2090
abbrev EV_WD_CFG_ELIM : Fld := ⟨EV_WD_CFG_off, 16, 16⟩
abbrev EV_WD_CFG_CLIM : Fld := ⟨EV_WD_CFG_off, 0, 16⟩
/-- EV_WD_BAY, R448. -/
abbrev EV_WD_BAY_off : Nat := 0x2094
abbrev EV_WD_BAY_LIMIT : Fld := ⟨EV_WD_BAY_off, 0, 16⟩
/-- EV_BAYCLK, R448. -/
abbrev EV_BAYCLK_off : Nat := 0x20a0
abbrev EV_BAYCLK_STOPEN : Fld := ⟨EV_BAYCLK_off, 0, 32⟩
/-- EV_BAYSTOP, R448. -/
abbrev EV_BAYSTOP_off : Nat := 0x20a4
abbrev EV_BAYSTOP_STOPPED : Fld := ⟨EV_BAYSTOP_off, 0, 32⟩
/-- EV_CLAIM, R449. -/
abbrev EV_CLAIM_off (i : Nat) : Nat := 0x2100 + 0x10 * i
abbrev EV_CLAIM_VALID (i : Nat) : Fld := ⟨EV_CLAIM_off i, 31, 1⟩
abbrev EV_CLAIM_SOURCE (i : Nat) : Fld := ⟨EV_CLAIM_off i, 0, 8⟩
/-- EV_DONE, R449. -/
abbrev EV_DONE_off (i : Nat) : Nat := 0x2104 + 0x10 * i
abbrev EV_DONE_SOURCE (i : Nat) : Fld := ⟨EV_DONE_off i, 0, 8⟩
/-- EV_TMOD, R449. -/
abbrev EV_TMOD_off (i : Nat) : Nat := 0x2108 + 0x10 * i
abbrev EV_TMOD_COUNT (i : Nat) : Fld := ⟨EV_TMOD_off i, 16, 8⟩
abbrev EV_TMOD_HOLD (i : Nat) : Fld := ⟨EV_TMOD_off i, 0, 16⟩
/-- EV_TSTAT, R449. -/
abbrev EV_TSTAT_off (i : Nat) : Nat := 0x210c + 0x10 * i
abbrev EV_TSTAT_ACTV (i : Nat) : Fld := ⟨EV_TSTAT_off i, 31, 1⟩
abbrev EV_TSTAT_ACTIVE (i : Nat) : Fld := ⟨EV_TSTAT_off i, 16, 8⟩
abbrev EV_TSTAT_OFFV (i : Nat) : Fld := ⟨EV_TSTAT_off i, 15, 1⟩
abbrev EV_TSTAT_IDLE (i : Nat) : Fld := ⟨EV_TSTAT_off i, 14, 1⟩
abbrev EV_TSTAT_REL (i : Nat) : Fld := ⟨EV_TSTAT_off i, 13, 1⟩
abbrev EV_TSTAT_OFFER (i : Nat) : Fld := ⟨EV_TSTAT_off i, 0, 8⟩
/-- EV_ROUTE_LO, R450. -/
abbrev EV_ROUTE_LO_off (i : Nat) : Nat := 0x2400 + 0x8 * i
abbrev EV_ROUTE_LO_TGT (i : Nat) : Fld := ⟨EV_ROUTE_LO_off i, 0, 32⟩
/-- EV_ROUTE_HI, R450. -/
abbrev EV_ROUTE_HI_off (i : Nat) : Nat := 0x2404 + 0x8 * i
abbrev EV_ROUTE_HI_RR (i : Nat) : Fld := ⟨EV_ROUTE_HI_off i, 8, 6⟩
abbrev EV_ROUTE_HI_TGT (i : Nat) : Fld := ⟨EV_ROUTE_HI_off i, 0, 2⟩
/-- EV_BWD_KICK, R451. -/
abbrev EV_BWD_KICK_off (b : Nat) : Nat := 0x40080 + 0x4000 * b
abbrev EV_BWD_KICK_KEY (b : Nat) : Fld := ⟨EV_BWD_KICK_off b, 0, 16⟩
/-- EV_BWD_REM, R451. -/
abbrev EV_BWD_REM_off (b : Nat) : Nat := 0x40084 + 0x4000 * b
abbrev EV_BWD_REM_REM (b : Nat) : Fld := ⟨EV_BWD_REM_off b, 0, 16⟩
/-- EV_CWD_STAT, R451. -/
abbrev EV_CWD_STAT_off (b e : Nat) : Nat := 0x420c0 + 0x4000 * b + 0x200 * e
abbrev EV_CWD_STAT_EXP (b e : Nat) : Fld := ⟨EV_CWD_STAT_off b e, 0, 8⟩
/-- EV_EWD_REM, R451. -/
abbrev EV_EWD_REM_off (b e : Nat) : Nat := 0x420c4 + 0x4000 * b + 0x200 * e
abbrev EV_EWD_REM_REM (b e : Nat) : Fld := ⟨EV_EWD_REM_off b e, 0, 16⟩
/-- EV_CWD_REM, R451. -/
abbrev EV_CWD_REM_off (b e i : Nat) : Nat := 0x420e0 + 0x4000 * b + 0x200 * e + 0x4 * i
abbrev EV_CWD_REM_REM (b e i : Nat) : Fld := ⟨EV_CWD_REM_off b e i, 0, 16⟩
/-- SB_PE_GSTART, R471. -/
abbrev SB_PE_GSTART_off : Nat := 0x4020
abbrev SB_PE_GSTART_MASK : Fld := ⟨SB_PE_GSTART_off, 0, 32⟩
/-- SB_PE_FSET, R471. -/
abbrev SB_PE_FSET_off : Nat := 0x4024
abbrev SB_PE_FSET_FLAG : Fld := ⟨SB_PE_FSET_off, 0, 16⟩
/-- SB_PE_FCLR, R471. -/
abbrev SB_PE_FCLR_off : Nat := 0x4028
abbrev SB_PE_FCLR_FLAG : Fld := ⟨SB_PE_FCLR_off, 0, 16⟩
/-- SB_PE_GSTAT, R471. -/
abbrev SB_PE_GSTAT_off : Nat := 0x402c
abbrev SB_PE_GSTAT_FARBCONF : Fld := ⟨SB_PE_GSTAT_off, 1, 1⟩
abbrev SB_PE_GSTAT_PADCONF : Fld := ⟨SB_PE_GSTAT_off, 0, 1⟩
/-- SB_PE_CTRL, R472. -/
abbrev SB_PE_CTRL_off (i : Nat) : Nat := 0x4100 + 0x20 * i
abbrev SB_PE_CTRL_START (i : Nat) : Fld := ⟨SB_PE_CTRL_off i, 16, 5⟩
abbrev SB_PE_CTRL_FARB (i : Nat) : Fld := ⟨SB_PE_CTRL_off i, 3, 1⟩
abbrev SB_PE_CTRL_KEEP_SHIFT (i : Nat) : Fld := ⟨SB_PE_CTRL_off i, 2, 1⟩
abbrev SB_PE_CTRL_EN (i : Nat) : Fld := ⟨SB_PE_CTRL_off i, 0, 1⟩
/-- SB_PE_CFG, R472. -/
abbrev SB_PE_CFG_off (i : Nat) : Nat := 0x4104 + 0x20 * i
abbrev SB_PE_CFG_FRAME (i : Nat) : Fld := ⟨SB_PE_CFG_off i, 6, 5⟩
abbrev SB_PE_CFG_SHDIR (i : Nat) : Fld := ⟨SB_PE_CFG_off i, 0, 1⟩
/-- SB_PE_DIV, R472. -/
abbrev SB_PE_DIV_off (i : Nat) : Nat := 0x4108 + 0x20 * i
abbrev SB_PE_DIV_INT (i : Nat) : Fld := ⟨SB_PE_DIV_off i, 8, 16⟩
abbrev SB_PE_DIV_FRAC (i : Nat) : Fld := ⟨SB_PE_DIV_off i, 0, 8⟩
/-- SB_PE_PINS, R472. -/
abbrev SB_PE_PINS_off (i : Nat) : Nat := 0x410c + 0x20 * i
abbrev SB_PE_PINS_PBASE (i : Nat) : Fld := ⟨SB_PE_PINS_off i, 25, 7⟩
abbrev SB_PE_PINS_PWID (i : Nat) : Fld := ⟨SB_PE_PINS_off i, 20, 5⟩
/-- SB_PE_STAT, R472. -/
abbrev SB_PE_STAT_off (i : Nat) : Nat := 0x4110 + 0x20 * i
abbrev SB_PE_STAT_PC (i : Nat) : Fld := ⟨SB_PE_STAT_off i, 27, 5⟩
abbrev SB_PE_STAT_BC (i : Nat) : Fld := ⟨SB_PE_STAT_off i, 21, 6⟩
abbrev SB_PE_STAT_TXLVL (i : Nat) : Fld := ⟨SB_PE_STAT_off i, 11, 4⟩
abbrev SB_PE_STAT_RXLVL (i : Nat) : Fld := ⟨SB_PE_STAT_off i, 7, 4⟩
abbrev SB_PE_STAT_STALL (i : Nat) : Fld := ⟨SB_PE_STAT_off i, 6, 1⟩
abbrev SB_PE_STAT_ILL (i : Nat) : Fld := ⟨SB_PE_STAT_off i, 5, 1⟩
abbrev SB_PE_STAT_RXOVF (i : Nat) : Fld := ⟨SB_PE_STAT_off i, 4, 1⟩
abbrev SB_PE_STAT_TXOVF (i : Nat) : Fld := ⟨SB_PE_STAT_off i, 3, 1⟩
abbrev SB_PE_STAT_PWREF (i : Nat) : Fld := ⟨SB_PE_STAT_off i, 2, 1⟩
abbrev SB_PE_STAT_STALE (i : Nat) : Fld := ⟨SB_PE_STAT_off i, 1, 1⟩
abbrev SB_PE_STAT_RUN (i : Nat) : Fld := ⟨SB_PE_STAT_off i, 0, 1⟩
/-- SB_PE_TX, R472. -/
abbrev SB_PE_TX_off (i : Nat) : Nat := 0x4114 + 0x20 * i
abbrev SB_PE_TX_DATA (i : Nat) : Fld := ⟨SB_PE_TX_off i, 0, 32⟩
/-- SB_PE_RX, R472. -/
abbrev SB_PE_RX_off (i : Nat) : Nat := 0x4118 + 0x20 * i
abbrev SB_PE_RX_DATA (i : Nat) : Fld := ⟨SB_PE_RX_off i, 0, 32⟩
/-- SB_PE_CTR, R472. -/
abbrev SB_PE_CTR_off (i : Nat) : Nat := 0x411c + 0x20 * i
abbrev SB_PE_CTR_CB (i : Nat) : Fld := ⟨SB_PE_CTR_off i, 16, 16⟩
abbrev SB_PE_CTR_CA (i : Nat) : Fld := ⟨SB_PE_CTR_off i, 0, 16⟩
/-- SB_PAD_OWN, R473. -/
abbrev SB_PAD_OWN_off (i : Nat) : Nat := 0x4600 + 0x4 * i
abbrev SB_PAD_OWN_IN (i : Nat) : Fld := ⟨SB_PAD_OWN_off i, 15, 1⟩
abbrev SB_PAD_OWN_OUT (i : Nat) : Fld := ⟨SB_PAD_OWN_off i, 14, 1⟩
abbrev SB_PAD_OWN_OE (i : Nat) : Fld := ⟨SB_PAD_OWN_off i, 13, 1⟩
abbrev SB_PAD_OWN_OD (i : Nat) : Fld := ⟨SB_PAD_OWN_off i, 12, 1⟩
abbrev SB_PAD_OWN_PULL (i : Nat) : Fld := ⟨SB_PAD_OWN_off i, 10, 2⟩
abbrev SB_PAD_OWN_KIND (i : Nat) : Fld := ⟨SB_PAD_OWN_off i, 6, 2⟩
abbrev SB_PAD_OWN_ID (i : Nat) : Fld := ⟨SB_PAD_OWN_off i, 0, 5⟩
/-- SB_PWR_CTRL, R483. -/
abbrev SB_PWR_CTRL_off : Nat := 0x3020
abbrev SB_PWR_CTRL_POLLEN : Fld := ⟨SB_PWR_CTRL_off, 2, 1⟩
abbrev SB_PWR_CTRL_SLEDEN : Fld := ⟨SB_PWR_CTRL_off, 1, 1⟩
abbrev SB_PWR_CTRL_EN : Fld := ⟨SB_PWR_CTRL_off, 0, 1⟩
/-- SB_PWR_STAT, R483. -/
abbrev SB_PWR_STAT_off : Nat := 0x3024
abbrev SB_PWR_STAT_ELREF : Fld := ⟨SB_PWR_STAT_off, 5, 1⟩
abbrev SB_PWR_STAT_PMFAIL : Fld := ⟨SB_PWR_STAT_off, 4, 1⟩
abbrev SB_PWR_STAT_PGOOD : Fld := ⟨SB_PWR_STAT_off, 3, 1⟩
abbrev SB_PWR_STAT_OV : Fld := ⟨SB_PWR_STAT_off, 2, 1⟩
abbrev SB_PWR_STAT_UV : Fld := ⟨SB_PWR_STAT_off, 1, 1⟩
abbrev SB_PWR_STAT_ALERT : Fld := ⟨SB_PWR_STAT_off, 0, 1⟩
/-- SB_PWR_BUDGET, R483. -/
abbrev SB_PWR_BUDGET_off : Nat := 0x3028
abbrev SB_PWR_BUDGET_ALERTB : Fld := ⟨SB_PWR_BUDGET_off, 16, 16⟩
abbrev SB_PWR_BUDGET_BUDGET : Fld := ⟨SB_PWR_BUDGET_off, 0, 16⟩
/-- SB_PWR_HOLDB, R483. -/
abbrev SB_PWR_HOLDB_off : Nat := 0x302c
abbrev SB_PWR_HOLDB_HOLDB : Fld := ⟨SB_PWR_HOLDB_off, 0, 16⟩
/-- SB_PWR_VLIM, R483. -/
abbrev SB_PWR_VLIM_off : Nat := 0x3030
abbrev SB_PWR_VLIM_VHIGH : Fld := ⟨SB_PWR_VLIM_off, 16, 16⟩
abbrev SB_PWR_VLIM_VLOW : Fld := ⟨SB_PWR_VLIM_off, 0, 16⟩
/-- SB_PWR_VHYST, R483. -/
abbrev SB_PWR_VHYST_off : Nat := 0x3034
abbrev SB_PWR_VHYST_HYST : Fld := ⟨SB_PWR_VHYST_off, 0, 16⟩
/-- SB_PWR_VIN, R483. -/
abbrev SB_PWR_VIN_off : Nat := 0x3038
abbrev SB_PWR_VIN_VALID : Fld := ⟨SB_PWR_VIN_off, 31, 1⟩
abbrev SB_PWR_VIN_VIN : Fld := ⟨SB_PWR_VIN_off, 0, 16⟩
/-- SB_PWR_IIN, R483. -/
abbrev SB_PWR_IIN_off : Nat := 0x303c
abbrev SB_PWR_IIN_IIN : Fld := ⟨SB_PWR_IIN_off, 0, 16⟩
/-- SB_PWR_PMCFG, R483. -/
abbrev SB_PWR_PMCFG_off : Nat := 0x3040
abbrev SB_PWR_PMCFG_ADDR : Fld := ⟨SB_PWR_PMCFG_off, 0, 7⟩
/-- SB_SLOT_ELIM, R483. -/
abbrev SB_SLOT_ELIM_off : Nat := 0x3044
abbrev SB_SLOT_ELIM_ELIM : Fld := ⟨SB_SLOT_ELIM_off, 0, 16⟩
/-- SB_SLOT_REQ, R483. -/
abbrev SB_SLOT_REQ_off : Nat := 0x3048
abbrev SB_SLOT_REQ_REQ : Fld := ⟨SB_SLOT_REQ_off, 0, 16⟩
/-- SB_SLOT_OFF, R483. -/
abbrev SB_SLOT_OFF_off : Nat := 0x304c
abbrev SB_SLOT_OFF_OFF : Fld := ⟨SB_SLOT_OFF_off, 0, 16⟩
/-- SB_EF_TCMD, R483. -/
abbrev SB_EF_TCMD_off : Nat := 0x3050
abbrev SB_EF_TCMD_TCMD : Fld := ⟨SB_EF_TCMD_off, 0, 8⟩
/-- SB_TOK_GATE, R483. -/
abbrev SB_TOK_GATE_off : Nat := 0x3054
abbrev SB_TOK_GATE_CLOSED : Fld := ⟨SB_TOK_GATE_off, 0, 7⟩
/-- SB_TOK_GATEB, R483. -/
abbrev SB_TOK_GATEB_off : Nat := 0x3058
abbrev SB_TOK_GATEB_CLOSED : Fld := ⟨SB_TOK_GATEB_off, 0, 32⟩
/-- SB_TOK_GATEQ, R483. -/
abbrev SB_TOK_GATEQ_off : Nat := 0x305c
abbrev SB_TOK_GATEQ_CLOSED : Fld := ⟨SB_TOK_GATEQ_off, 0, 32⟩
/-- SB_SLOT_CFG, R484. -/
abbrev SB_SLOT_CFG_off (i : Nat) : Nat := 0x3080 + 0x4 * i
abbrev SB_SLOT_CFG_STATE (i : Nat) : Fld := ⟨SB_SLOT_CFG_off i, 29, 3⟩
abbrev SB_SLOT_CFG_ADDR (i : Nat) : Fld := ⟨SB_SLOT_CFG_off i, 22, 7⟩
abbrev SB_SLOT_CFG_ILIM (i : Nat) : Fld := ⟨SB_SLOT_CFG_off i, 12, 10⟩
abbrev SB_SLOT_CFG_TTRIP (i : Nat) : Fld := ⟨SB_SLOT_CFG_off i, 0, 12⟩
/-- SB_TOK_GRANT, R484. -/
abbrev SB_TOK_GRANT_off (i : Nat) : Nat := 0x3100 + 0x8 * i
abbrev SB_TOK_GRANT_FLOOR (i : Nat) : Fld := ⟨SB_TOK_GRANT_off i, 16, 16⟩
abbrev SB_TOK_GRANT_GRANT (i : Nat) : Fld := ⟨SB_TOK_GRANT_off i, 0, 16⟩
/-- SB_TOK_COST, R484. -/
abbrev SB_TOK_COST_off (i : Nat) : Nat := 0x3104 + 0x8 * i
abbrev SB_TOK_COST_GIVEN (i : Nat) : Fld := ⟨SB_TOK_COST_off i, 16, 16⟩
abbrev SB_TOK_COST_COST (i : Nat) : Fld := ⟨SB_TOK_COST_off i, 0, 16⟩
/-- TD_LIFE, R513. -/
abbrev TD_LIFE_off : Nat := 0x1020
abbrev TD_LIFE_FUSEOK : Fld := ⟨TD_LIFE_off, 31, 1⟩
abbrev TD_LIFE_PREVOKE : Fld := ⟨TD_LIFE_off, 8, 4⟩
abbrev TD_LIFE_OWNSET : Fld := ⟨TD_LIFE_off, 4, 1⟩
abbrev TD_LIFE_LIFE : Fld := ⟨TD_LIFE_off, 0, 2⟩
/-- TD_UNITID_LO, R513. -/
abbrev TD_UNITID_LO_off : Nat := 0x1024
abbrev TD_UNITID_LO_ID : Fld := ⟨TD_UNITID_LO_off, 0, 32⟩
/-- TD_UNITID_HI, R513. -/
abbrev TD_UNITID_HI_off : Nat := 0x1028
abbrev TD_UNITID_HI_ID : Fld := ⟨TD_UNITID_HI_off, 0, 32⟩
/-- TD_DBG_CTRL, R513. -/
abbrev TD_DBG_CTRL_off : Nat := 0x1030
abbrev TD_DBG_CTRL_DROP : Fld := ⟨TD_DBG_CTRL_off, 3, 1⟩
abbrev TD_DBG_CTRL_MODE : Fld := ⟨TD_DBG_CTRL_off, 1, 1⟩
abbrev TD_DBG_CTRL_AUTH : Fld := ⟨TD_DBG_CTRL_off, 0, 1⟩
/-- TD_DBG_STAT, R513. -/
abbrev TD_DBG_STAT_off : Nat := 0x1034
abbrev TD_DBG_STAT_LOCKOUT : Fld := ⟨TD_DBG_STAT_off, 15, 1⟩
abbrev TD_DBG_STAT_FAILS : Fld := ⟨TD_DBG_STAT_off, 10, 2⟩
abbrev TD_DBG_STAT_SRC : Fld := ⟨TD_DBG_STAT_off, 8, 2⟩
abbrev TD_DBG_STAT_RESULT : Fld := ⟨TD_DBG_STAT_off, 2, 2⟩
abbrev TD_DBG_STAT_LEVEL : Fld := ⟨TD_DBG_STAT_off, 0, 2⟩
/-- TD_DBG_NONCE, R513. -/
abbrev TD_DBG_NONCE_off (i : Nat) : Nat := 0x1040 + 0x4 * i
abbrev TD_DBG_NONCE_NONCE (i : Nat) : Fld := ⟨TD_DBG_NONCE_off i, 0, 32⟩
/-- TD_MON_DOOR, R513. -/
abbrev TD_MON_DOOR_off : Nat := 0x1080
abbrev TD_MON_DOOR_SEQ : Fld := ⟨TD_MON_DOOR_off, 0, 8⟩
/-- TD_MON_STAT, R513. -/
abbrev TD_MON_STAT_off : Nat := 0x1084
abbrev TD_MON_STAT_BUSY : Fld := ⟨TD_MON_STAT_off, 31, 1⟩
abbrev TD_MON_STAT_DOORREF : Fld := ⟨TD_MON_STAT_off, 30, 1⟩
abbrev TD_MON_STAT_SEQ : Fld := ⟨TD_MON_STAT_off, 8, 8⟩
abbrev TD_MON_STAT_STATUS : Fld := ⟨TD_MON_STAT_off, 0, 8⟩
/-- TD_CERT_CTRL, R513. -/
abbrev TD_CERT_CTRL_off : Nat := 0x1090
abbrev TD_CERT_CTRL_LOAD : Fld := ⟨TD_CERT_CTRL_off, 31, 1⟩
abbrev TD_CERT_CTRL_OK : Fld := ⟨TD_CERT_CTRL_off, 30, 1⟩
abbrev TD_CERT_CTRL_LEN : Fld := ⟨TD_CERT_CTRL_off, 0, 11⟩
/-- TD_HSTAT, R513. -/
abbrev TD_HSTAT_off (i : Nat) : Nat := 0x10a0 + 0x4 * i
abbrev TD_HSTAT_HALTED (i : Nat) : Fld := ⟨TD_HSTAT_off i, 0, 32⟩
/-- TD_HSTATB, R513. -/
abbrev TD_HSTATB_off : Nat := 0x10c0
abbrev TD_HSTATB_HALTED : Fld := ⟨TD_HSTATB_off, 0, 32⟩
/-- TD_HSTATX, R513. -/
abbrev TD_HSTATX_off : Nat := 0x10c4
abbrev TD_HSTATX_DEFER : Fld := ⟨TD_HSTATX_off, 1, 1⟩
abbrev TD_HSTATX_BLOCK : Fld := ⟨TD_HSTATX_off, 0, 1⟩
/-- TD_TOKEN, R513. -/
abbrev TD_TOKEN_off (i : Nat) : Nat := 0x1100 + 0x4 * i
abbrev TD_TOKEN_DATA (i : Nat) : Fld := ⟨TD_TOKEN_off i, 0, 32⟩
/-- TD_MON_CMD, R513. -/
abbrev TD_MON_CMD_off (i : Nat) : Nat := 0x1200 + 0x4 * i
abbrev TD_MON_CMD_DATA (i : Nat) : Fld := ⟨TD_MON_CMD_off i, 0, 32⟩
/-- TD_MON_RSP, R513. -/
abbrev TD_MON_RSP_off (i : Nat) : Nat := 0x1240 + 0x4 * i
abbrev TD_MON_RSP_DATA (i : Nat) : Fld := ⟨TD_MON_RSP_off i, 0, 32⟩
/-- TD_CERT, R513. -/
abbrev TD_CERT_off (i : Nat) : Nat := 0x1800 + 0x4 * i
abbrev TD_CERT_DATA (i : Nat) : Fld := ⟨TD_CERT_off i, 0, 32⟩
/-- TD_XT_ENG, R514. -/
abbrev TD_XT_ENG_off (c i : Nat) : Nat := 0x1400 + 0x40 * c + 4 * i
abbrev TD_XT_ENG_MASK (c i : Nat) : Fld := ⟨TD_XT_ENG_off c i, 0, 32⟩
/-- TD_XT_BAY, R514. -/
abbrev TD_XT_BAY_off (i : Nat) : Nat := 0x1420 + 0x40 * i
abbrev TD_XT_BAY_MASK (i : Nat) : Fld := ⟨TD_XT_BAY_off i, 0, 32⟩
/-- TD_XT_CTL, R514. -/
abbrev TD_XT_CTL_off (i : Nat) : Nat := 0x1424 + 0x40 * i
abbrev TD_XT_CTL_BLOCK (i : Nat) : Fld := ⟨TD_XT_CTL_off i, 0, 1⟩
/-- TD_XT_BRK, R514. -/
abbrev TD_XT_BRK_off (i : Nat) : Nat := 0x1428 + 0x40 * i
abbrev TD_XT_BRK_BRKCH (i : Nat) : Fld := ⟨TD_XT_BRK_off i, 0, 32⟩
/-- BLK_ID, R529. -/
abbrev BLK_ID_off : Nat := 0x20
abbrev BLK_ID_PART : Fld := ⟨BLK_ID_off, 16, 16⟩
abbrev BLK_ID_STEP : Fld := ⟨BLK_ID_off, 8, 8⟩
/-- BLK_CAP, R529. -/
abbrev BLK_CAP_off : Nat := 0x24
abbrev BLK_CAP_NSRC : Fld := ⟨BLK_CAP_off, 24, 8⟩
abbrev BLK_CAP_NHP : Fld := ⟨BLK_CAP_off, 20, 4⟩
abbrev BLK_CAP_NCH : Fld := ⟨BLK_CAP_off, 10, 6⟩
abbrev BLK_CAP_NBAY : Fld := ⟨BLK_CAP_off, 4, 6⟩
abbrev BLK_CAP_NSLOT : Fld := ⟨BLK_CAP_off, 0, 4⟩
/-- BLK_CTRL, R529. -/
abbrev BLK_CTRL_off : Nat := 0x28
abbrev BLK_CTRL_ATTNEN : Fld := ⟨BLK_CTRL_off, 8, 1⟩
abbrev BLK_CTRL_I3CWR : Fld := ⟨BLK_CTRL_off, 2, 1⟩
abbrev BLK_CTRL_MBXWR : Fld := ⟨BLK_CTRL_off, 1, 1⟩
/-- BLK_STAT, R529. -/
abbrev BLK_STAT_off : Nat := 0x2c
abbrev BLK_STAT_TDKEYS : Fld := ⟨BLK_STAT_off, 5, 1⟩
abbrev BLK_STAT_CLEARED : Fld := ⟨BLK_STAT_off, 4, 1⟩
abbrev BLK_STAT_BISTDONE : Fld := ⟨BLK_STAT_off, 3, 1⟩
abbrev BLK_STAT_FUSEDONE : Fld := ⟨BLK_STAT_off, 2, 1⟩
abbrev BLK_STAT_PLLLOCK : Fld := ⟨BLK_STAT_off, 1, 1⟩
/-- BLK_ATTN, R529. -/
abbrev BLK_ATTN_off : Nat := 0x30
abbrev BLK_ATTN_SW : Fld := ⟨BLK_ATTN_off, 2, 1⟩
abbrev BLK_ATTN_MON : Fld := ⟨BLK_ATTN_off, 1, 1⟩
abbrev BLK_ATTN_EVT : Fld := ⟨BLK_ATTN_off, 0, 1⟩
/-- BLK_ATTN_SET, R529. -/
abbrev BLK_ATTN_SET_off : Nat := 0x34
abbrev BLK_ATTN_SET_SW : Fld := ⟨BLK_ATTN_SET_off, 2, 1⟩
/-- BLK_ACCERR, R529. -/
abbrev BLK_ACCERR_off : Nat := 0x38
abbrev BLK_ACCERR_VALID : Fld := ⟨BLK_ACCERR_off, 31, 1⟩
abbrev BLK_ACCERR_PATH : Fld := ⟨BLK_ACCERR_off, 29, 2⟩
abbrev BLK_ACCERR_WR : Fld := ⟨BLK_ACCERR_off, 28, 1⟩
abbrev BLK_ACCERR_CAUSE : Fld := ⟨BLK_ACCERR_off, 24, 4⟩
abbrev BLK_ACCERR_OFFSET : Fld := ⟨BLK_ACCERR_off, 0, 22⟩
/-- BLK_SCRATCH, R529. -/
abbrev BLK_SCRATCH_off (i : Nat) : Nat := 0x40 + 0x4 * i
abbrev BLK_SCRATCH_DATA (i : Nat) : Fld := ⟨BLK_SCRATCH_off i, 0, 32⟩
/-- BLK_CYC_LO, R529. -/
abbrev BLK_CYC_LO_off : Nat := 0x50
abbrev BLK_CYC_LO_CYC : Fld := ⟨BLK_CYC_LO_off, 0, 32⟩
/-- BLK_CYC_HI, R529. -/
abbrev BLK_CYC_HI_off : Nat := 0x54
abbrev BLK_CYC_HI_CYC : Fld := ⟨BLK_CYC_HI_off, 0, 16⟩
/-- MU_RET_CTRL, R570. -/
abbrev MU_RET_CTRL_off (c : Nat) : Nat := 0x100c0 + 0x1000 * c
abbrev MU_RET_CTRL_REFUSED (c : Nat) : Fld := ⟨MU_RET_CTRL_off c, 5, 1⟩
abbrev MU_RET_CTRL_NEXT (c : Nat) : Fld := ⟨MU_RET_CTRL_off c, 4, 1⟩
abbrev MU_RET_CTRL_RETIRED (c : Nat) : Fld := ⟨MU_RET_CTRL_off c, 3, 1⟩
abbrev MU_RET_CTRL_PEND (c : Nat) : Fld := ⟨MU_RET_CTRL_off c, 2, 1⟩
abbrev MU_RET_CTRL_MODE (c : Nat) : Fld := ⟨MU_RET_CTRL_off c, 1, 1⟩
abbrev MU_RET_CTRL_ARM (c : Nat) : Fld := ⟨MU_RET_CTRL_off c, 0, 1⟩
/-- MU_RET_TGT_LO, R570. -/
abbrev MU_RET_TGT_LO_off (c : Nat) : Nat := 0x100c4 + 0x1000 * c
abbrev MU_RET_TGT_LO_TGT (c : Nat) : Fld := ⟨MU_RET_TGT_LO_off c, 0, 32⟩
/-- MU_RET_TGT_HI, R570. -/
abbrev MU_RET_TGT_HI_off (c : Nat) : Nat := 0x100c8 + 0x1000 * c
abbrev MU_RET_TGT_HI_TGT (c : Nat) : Fld := ⟨MU_RET_TGT_HI_off c, 0, 4⟩
/-- The common page layout of R521, `page` being the page's base. -/
abbrev PAGE_CTRL_TIDX (page : Nat) : Fld := ⟨page + 0x4, 8, 5⟩
abbrev PAGE_CTRL_ERRLAST (page : Nat) : Fld := ⟨page + 0x4, 0, 1⟩
abbrev PAGE_STAT_INFOHOLD (page : Nat) : Fld := ⟨page + 0x8, 3, 1⟩
abbrev PAGE_STAT_LOCKREF (page : Nat) : Fld := ⟨page + 0x8, 2, 1⟩
abbrev PAGE_STAT_ACCERR (page : Nat) : Fld := ⟨page + 0x8, 1, 1⟩
abbrev ERR_CODE_COUNT (page : Nat) : Fld := ⟨page + 0x14, 16, 8⟩
abbrev ERR_CODE_NOINFO (page : Nat) : Fld := ⟨page + 0x14, 8, 1⟩
abbrev ERR_CODE_CODE (page : Nat) : Fld := ⟨page + 0x14, 0, 8⟩
abbrev ERR_INFO_INFO (page : Nat) : Fld := ⟨page + 0x18, 0, 32⟩
abbrev PAGE_LOCK_KIND (page : Nat) : Fld := ⟨page + 0x1C, 6, 2⟩
abbrev PAGE_LOCK_ID (page : Nat) : Fld := ⟨page + 0x1C, 0, 5⟩

end F

/-- The kinds of page of R521, and the three tables of R516 that have no page layout. -/
inductive PageKind
  | blk | td | ev | sbPower | sbPins | cs | sc | scTb | hp | tw | sv | mu | bay | sieve | eng
  | segTable | slotTable | patchWin
  deriving DecidableEq, Repr

/-- A page of the window: its kind, its instance (port, slice or bay), its engine slot, and its base (R516). -/
structure Page where
  kind : PageKind
  inst : Nat
  sub  : Nat
  base : Nat
  deriving DecidableEq, Repr

/-- The page that holds normal-view offset `off`, none where R516 maps nothing (R517). -/
def pageOf (off : Nat) : Option Page :=
  let pg := off / 0x1000
  if off < 0x40000 then
    match pg with
    | 0 => some ⟨.blk, 0, 0, 0x0⟩
    | 1 => some ⟨.td, 0, 0, 0x1000⟩
    | 2 => some ⟨.ev, 0, 0, 0x2000⟩
    | 3 => some ⟨.sbPower, 0, 0, 0x3000⟩
    | 4 => some ⟨.sbPins, 0, 0, 0x4000⟩
    | 5 => some ⟨.cs, 0, 0, 0x5000⟩
    | 6 => some ⟨.sc, 0, 0, 0x6000⟩
    | 7 => some ⟨.scTb, 0, 0, 0x7000⟩
    | 12 => some ⟨.tw, 0, 0, 0xC000⟩
    | 13 => some ⟨.sv, 0, 0, 0xD000⟩
    | _ =>
      if 8 ≤ pg ∧ pg < 12 then some ⟨.hp, pg - 8, 0, 0x1000 * pg⟩
      else if 16 ≤ pg ∧ pg < 48 then some ⟨.mu, pg - 16, 0, 0x1000 * pg⟩
      else none
  else if off < 0xC0000 then
    let b := (off - 0x40000) / 0x4000
    let r := off % 0x4000
    if r < 0x1000 then some ⟨.bay, b, 0, 0x40000 + 0x4000 * b⟩
    else if r < 0x2000 then some ⟨.sieve, b, 0, 0x41000 + 0x4000 * b⟩
    else if r < 0x3200 then
      some ⟨.eng, b, (r - 0x2000) / 0x200, 0x42000 + 0x4000 * b + 0x200 * ((r - 0x2000) / 0x200)⟩
    else none
  else if 0x100000 ≤ off ∧ off < 0x110000 then some ⟨.segTable, 0, 0, 0x100000⟩
  else if 0x120000 ≤ off ∧ off < 0x130000 then some ⟨.slotTable, 0, 0, 0x120000⟩
  else if 0x140000 ≤ off ∧ off < 0x148000 then some ⟨.patchWin, 0, 0, 0x140000⟩
  else none

/-- PAGE_ID.KIND of R521. -/
def PageKind.code : PageKind → Nat
  | .blk => 1 | .td => 2 | .ev => 3 | .sbPower => 4 | .sbPins => 5 | .cs => 6 | .sc => 7 | .scTb => 8
  | .hp => 9 | .tw => 10 | .sv => 11 | .mu => 12 | .bay => 13 | .sieve => 14 | .eng => 15
  | .segTable => 0 | .slotTable => 0 | .patchWin => 0

/-- The registers of a page's subsystem, from page offset 0x020 on. -/
def PageKind.rows : PageKind → List RegRow
  | .blk => rows_blk | .td => rows_td | .ev => rows_ev | .sbPower => rows_sbp | .sbPins => rows_sbe | .cs => rows_cs
  | .sc => rows_sc | .scTb => rows_sctb | .hp => rows_hp | .tw => rows_tw | .sv => rows_sv | .mu => rows_mu
  | .bay => rows_bay | .sieve => rows_sieve | .eng => rows_eng
  | .segTable => [] | .slotTable => [] | .patchWin => []

/-- The lowest source number of a page's subsystem instance (R424, R425); 0 where no source is assigned (R522). -/
def Page.firstSrc (p : Page) : Nat :=
  match p.kind with
  | .td => 2 | .ev => 0 | .sbPower => 14 | .sbPins => 50 | .cs => 46 | .sc => 22 | .scTb => 22 | .hp => 34 + 2 * p.inst
  | .tw => 6 | .sv => 42 | .mu => 186 + 2 * p.inst | .bay => 58 + 4 * p.inst | _ => 0

/-- The EVT_PEND and EVT_MASK bits of a page that correspond to a source (R425, R522, R79). -/
def PageKind.srcMask : PageKind → Nat
  | .td => 0xF | .ev => 0x3 | .sbPower => 0xFF | .sbPins => 0xFF | .cs => 0xF
  | .sc => 0x8F0 | .scTb => 0x70F | .hp => 0x3 | .tw => 0xFF | .sv => 0xF | .mu => 0x3 | .bay => 0xF
  | .blk => 0 | .sieve => 0 | .eng => 0 | .segTable => 0 | .slotTable => 0 | .patchWin => 0

/-- The common registers of a page (R521), as rows. -/
def Page.header (p : Page) : List RegRow :=
  let m := p.kind.srcMask
  [⟨"PAGE_ID", 0x0, 4, 1, 0, 0, 0, 0, 0xFFFFFF00, 0,
      p.kind.code * 0x1000000 + p.inst * 0x10000 + p.sub * 0x1000 + 0x100⟩,
   ⟨"PAGE_CTRL", 0x4, 4, 1, if m = 0 then 1 else 0x1F01, 0, if m = 0 then 0 else 0x8000, 0, 0, 0, 0⟩,
   ⟨"PAGE_STAT", 0x8, 4, 1, 0, 0x6, 0, 0, 0x8, 0, 0⟩,
   ⟨"EVT_PEND", 0xC, 4, 1, 0, m, 0, 0, 0, 0, 0⟩,
   ⟨"EVT_MASK", 0x10, 4, 1, m, 0, 0, 0, 0, 0, 0⟩,
   ⟨"ERR_CODE", 0x14, 4, 1, 0, 0, 0, 0xFF01FF, 0, 0, 0⟩,
   ⟨"ERR_INFO", 0x18, 4, 1, 0, 0, 0, 0, 0xFFFFFFFF, 0, 0⟩,
   ⟨"PAGE_LOCK", 0x1C, 4, 1, 0xDF, 0, 0, 0, 0, 0, 0⟩]

/-- The reserved bits of the words of the tables: a segment-table word (R87) keeps only its fields, a slot-table word
is all fields (R63). -/
def tableWordMask (k : PageKind) (off : Nat) : Nat :=
  match k with
  | .segTable =>
    match (off / 4) % 4 with
    | 0 => 0xFFFFFF00 | 1 => 0x03FF071F | 2 => 0x000F00FF | _ => 0
  | .slotTable => 0xFFFFFFFF
  | .patchWin => 0xFFFFFFFF
  | _ => 0

/-- The row that describes normal-view offset `off`, none where no register is defined there (R517). -/
def regRow (off : Nat) : Option RegRow :=
  match pageOf off with
  | none => none
  | some p =>
    let o := off - p.base
    match p.kind with
    | .segTable | .slotTable | .patchWin => some ⟨"TABLE", 0, 4, 1, tableWordMask p.kind off, 0, 0, 0, 0, 0, 0⟩
    | k =>
      let rows := if o < 0x20 then p.header else k.rows
      rows.find? fun r => decide (r.off ≤ o) && (o - r.off) % r.stride == 0 && decide ((o - r.off) / r.stride < r.count)

/-- Compare channels 0 and 1 belong to SC (R53, R60): their spacing and owner registers read 4, 4096 and KIND 3; every
other register has its row's reset value. -/
def regReset (off : Nat) : BitVec 32 :=
  if off = 0x7108 then 4
  else if off = 0x7128 then 4096
  else if off = 0x710C ∨ off = 0x712C then 0xC0
  else
    match regRow off with
    | some r => BitVec.ofNat 32 r.reset
    | none => 0

end Sys2Proof.Machine
end

