-- ==== Sys2Proof/Machine/Tab.lean ====
section
/-! DEFINITION. Sparse tables as plain data: a list of key and value pairs in one canonical form, keys strictly rising
and, for a table with a default, no pair equal to it.  Every memory of the block is held in this form. -/

namespace Sys2Proof.Machine

/-- The value listed under a key. -/
def pget {α : Type} (m : List (Nat × α)) (k : Nat) : Option α :=
  match m with
  | [] => none
  | (j, v) :: r => if j = k then some v else pget r k

/-- List a value under a key, in its place. -/
def pset {α : Type} (m : List (Nat × α)) (k : Nat) (v : α) : List (Nat × α) :=
  match m with
  | [] => [(k, v)]
  | (j, w) :: r => if k < j then (k, v) :: (j, w) :: r else if k = j then (k, v) :: r else (j, w) :: pset r k v

/-- Take a key out. -/
def pdel {α : Type} (m : List (Nat × α)) (k : Nat) : List (Nat × α) :=
  match m with
  | [] => []
  | (j, w) :: r => if k = j then pdel r k else (j, w) :: pdel r k

/-- The value of a table with default `d`. -/
def tget {α : Type} (d : Nat → α) (m : List (Nat × α)) (k : Nat) : α := (pget m k).getD (d k)

/-- Write a table with default `d`, keeping the canonical form: writing the default removes the entry. -/
def tset {α : Type} [DecidableEq α] (d : Nat → α) (m : List (Nat × α)) (k : Nat) (v : α) : List (Nat × α) :=
  if v = d k then pdel m k else pset m k v

/-- Keys strictly rising from a bound. -/
def rising {α : Type} (lo : Nat) (m : List (Nat × α)) : Bool :=
  match m with
  | [] => true
  | (j, _) :: r => decide (lo ≤ j) && rising (j + 1) r

/-- The canonical form of a table without a default. -/
def pwf {α : Type} (m : List (Nat × α)) : Bool := rising 0 m

/-- The canonical form of a table with default `d`. -/
def twf {α : Type} [DecidableEq α] (d : Nat → α) (m : List (Nat × α)) : Bool :=
  rising 0 m && m.all fun p => decide (p.2 ≠ d p.1)

end Sys2Proof.Machine
end

