-- ==== Sys2Proof/Machine/State.lean ====
section
/-! DEFINITION. The state of the block as plain data, the reasons a command can stop, and the state after reset. -/

namespace Sys2Proof.Machine

/-- Whether the block is in reset or runs (R547, R548). -/
inductive Phase where
  | held
  | running
  deriving DecidableEq, Repr

/-- The retransmission outputs (R37). -/
inductive TbOut where
  | a | b | idx
  deriving DecidableEq, Repr

/-- The timebase tracker's state that no register holds (R35 to R54).  A compare channel's hit waits in `due` for its
SLOT_BOUNDARY, FRAME_BOUNDARY or COMPARE_HIT command (the model's own field, log 5), `dueAt` the cycle in which a hit of
channel 0 or 1 fell due, `bndAt` that of the last frame boundary (R6); `spNext` is the mean that SPEED takes
after the cycle given (R51), `lossWas` the LOSS value in force in the cycle of a write of it (R572), `outBNext` the level
that TB_OUT_B takes in the cycle after the one given (R37). -/
structure Timebase where
  pos      : BitVec 48
  frame    : FrameIx
  slot     : BitVec 10
  lastEdge : Option Nat
  lastDown : Bool
  perOpen  : Bool
  lossFrom : Nat
  periods  : List Nat
  nPeriods : Nat
  acc      : Nat
  accAt    : Nat
  lastMult : BitVec 28
  idxSeen  : Bool
  outB     : Bool
  outBNext : Option (Nat × Bool)
  pulses   : List (TbOut × Nat)
  cmpVal   : List (Nat × BitVec 48)
  cmpStage : List (Nat × Word)
  due      : BitVec 8
  dueAt    : Nat
  bndAt    : Nat
  slotAt   : Nat
  spNext   : Option (Nat × Nat)
  lossWas  : Option (Nat × Nat)
  deriving DecidableEq, Repr

/-- The schedule half's state that no register holds: the slot-table bytes whose parity is wrong, the start of the
check and the target of an armed switch (R64, R71, R72), the cycle in which it was armed and whether NEXT gave the target (R6), the
cycle in which an armed switch was last cancelled (R73). -/
structure Sched where
  badParity : List Nat
  checkAt   : Nat
  target    : FrameIx
  armedAt   : Nat
  byNext    : Bool
  cancelAt  : Option Nat
  deriving DecidableEq, Repr

/-- An event source's raise count in the frame (R428), the sets of EV_PEND and, of EV_MASK, `true`, that take effect at the
end of the cycle after the one given (R426, R429), the cycle in which the storm guard last set a source's EV_MASK bit, the offers, active events and moderation of the targets
(R431 to R436), the freeze (R429, R430), the entries whose parity error has been found, 3 source + kind, kind 0 pending, 1 mask, 2 route (R452). -/
structure EvState where
  storm    : List (Nat × Nat)
  due      : List (Bool × Nat × Nat)
  maskAt   : List (Nat × Nat)
  offer    : List (Nat × Nat)
  active   : List (Nat × Nat)
  released : List (Nat × Unit)
  waitFrom : List (Nat × Nat)
  t32Done  : Option Nat
  frozen   : Bool
  frzOwner : BitVec 6
  frzAt    : Nat
  frzLimit : Nat
  heldPend : List (Nat × Unit)
  heldMask : List (Nat × Unit)
  bad      : List (Nat × Unit)
  deriving DecidableEq, Repr

/-- A watchdog: the cycle count left at cycle `since`, and whether it counts from then on (R441, R446, R447). -/
structure Wd where
  left : Nat
  since : Nat
  run  : Bool
  deriving DecidableEq, Repr

/-- The completion that a control-window access gives its requester (R520). -/
structure WinRsp where
  req  : Req
  data : Word
  err  : Bool
  deriving DecidableEq, Repr
/-- The tracker after reset: OFF, everything zero (R43, R59). -/
def Timebase.reset : Timebase :=
  { pos := 0, frame := 0, slot := 0, lastEdge := none, lastDown := false, perOpen := false, lossFrom := 0,
    periods := [], nPeriods := 0, acc := 0, accAt := 0, lastMult := 0, idxSeen := true, outB := false, outBNext := none, pulses := [],
    cmpVal := [], cmpStage := [], due := 0, dueAt := 0, bndAt := 0, slotAt := 0, spNext := none,
    lossWas := none }

/-- The Event Controller after reset: no offer, no active event, no freeze (R448, R449). -/
def EvState.reset : EvState :=
  { storm := [], due := [], maskAt := [], offer := [], active := [], released := [], waitFrom := [], t32Done := none, frozen := false,
    frzOwner := 0, frzAt := 0, frzLimit := 64, heldPend := [], heldMask := [], bad := [] }

/-- The states of a ledger entry (R95). -/
inductive LSt where
  | free | opn | held | direct | engine | twin | resp
  deriving DecidableEq, Repr

/-- The code of a ledger state (R95). -/
def LSt.code : LSt → Nat
  | .free => 0 | .opn => 1 | .held => 2 | .direct => 3 | .engine => 4 | .twin => 5 | .resp => 6

/-- A response of a host port (R80, R85). -/
structure Rsp where
  isData  : Bool
  data    : Line
  pois    : Bool
  mval    : BitVec 2
  devload : BitVec 2
  deriving DecidableEq, Repr

/-- A message in a CXL controller's boundary queue. -/
structure S2M where
  port : Nat
  tag  : BitVec 16
  rsp  : Rsp
  deriving DecidableEq, Repr

/-- The outcome of a line read (R125, R134, R135). -/
inductive RdOut where
  /-- a line and its metadata, corrected or clean -/
  | line (data : Line) (mta : Word) (fixed : Bool)
  /-- answered from the poison list -/
  | listed
  /-- uncorrectable -/
  | bad
  deriving DecidableEq, Repr

/-- The outcome of a line write (R134). -/
inductive WrOut where
  | acked
  | refused
  deriving DecidableEq, Repr

/-- The answer to a Direct Path command. -/
inductive LineOut where
  | rd (o : RdOut)
  | wr (o : WrOut)
  deriving DecidableEq, Repr

/-- A ledger entry (R94), with what the port keeps beside its 128 bits: the captured segment words (R89), the received
line and mask, its place in the order of acceptance, whether it is being failed (R105), whether an LCPY was
sent, whether its own Direct Path command is outstanding after an expiry (R104), the cycle of its acceptance, whether its decision is still to be
made at the end of that cycle (R96, R99), the answer to its Direct Path command with the cycle of its capture (R104), the bits that an
uncorrectable error of the stored entry has flipped (R97), and its response. -/
structure Led where
  st      : LSt
  op      : MemOp
  cls     : Nat
  path    : Bool
  mirr    : Bool
  mled    : Bool
  pois    : Bool
  mval    : BitVec 2
  dbell   : Bool
  bay     : Nat
  tag     : BitVec 16
  stamp   : BitVec 20
  addr    : PAddr
  chk     : BitVec 24
  tout    : Bool
  w0      : Word
  w1      : Word
  w2      : Word
  data    : Line
  mask    : BitVec 64
  seq     : Nat
  failing : Bool
  copied  : Bool
  own     : Bool
  acc     : Nat
  wait    : Bool
  got     : Option (Nat × LineOut)
  flip    : Option (BitVec 128)
  rsp     : Option Rsp
  deriving DecidableEq, Repr

/-- A FREE entry never used. -/
def Led.blank : Led :=
  { st := .free, op := .rd, cls := 0, path := false, mirr := false, mled := false, pois := false, mval := 0,
    dbell := false, bay := 0, tag := 0, stamp := 0, addr := 0, chk := 0, tout := false, w0 := 0, w1 := 0, w2 := 0,
    data := 0, mask := 0, seq := 0, failing := false, copied := false, own := false, acc := 0, wait := false,
    got := none, flip := none, rsp := none }

/-- Whom a line access of the engine path serves. -/
inductive Owner where
  /-- a ledger entry of this chip -/
  | led (p i : Nat)
  /-- a request forwarded to this chip over the twin link (`fab` none) or through a fabric port -/
  | rem (fab : Option (BitVec 4)) (r : RemReq)
  /-- a shadow entry that the survivor takes over (R185) -/
  | shad (c : LedCopy)
  /-- a secondary-origin write ordered here (R162) -/
  | lcpy (p i : Nat)
  /-- a line read for an RCP to the partner, and a line written from the partner's RCP (R172) -/
  | rcpRead
  | rcpWrite
  /-- the partner's mirror read (R174) -/
  | mrd
  /-- the verify walk: the primary's read, and the secondary's comparison (R175) -/
  | vfyP
  | vfyS (mta crc : Word)
  /-- a data-mover command's line (R293), and a pool-window access (R283) -/
  | dmLine (key line : Nat)
  | pool (key : Nat)
  /-- a column line of a Sieve unit (R374) -/
  | sieve (bay key line : Nat)
  /-- a result line of a submission (R113) -/
  | result (key : Nat)
  /-- a line of the boot image (R561) -/
  | boot (bay line : Nat)
  /-- no one any more: a staged write whose owner has been answered (R168) -/
  | nobody
  deriving DecidableEq, Repr

/-- How far a line access of the engine path has come. -/
inductive JPhase where
  /-- waits for a conflicting access (R96) -/
  | held
  /-- waits for the next frame boundary after an admission reject (R100) -/
  | boundary
  /-- a line read is in flight: for the reader, for a merge, for the generation of a mirrored write (R93, R163) -/
  | read | merge | gen
  /-- the generation read has completed (R164) -/
  | genDone
  /-- the partner's copy is asked for: for the reader, for a merge, for a generation (R174, R163) -/
  | mirRead | mirMerge | mirGen
  /-- both copies are read (R170) -/
  | dual
  /-- a line write is in flight; that of a mirrored write that is staged (R168) -/
  | write | staged
  /-- the partner's acknowledgement of a mirrored write is awaited (R164); a secondary-origin write awaits the WRQ -/
  | twin | origin
  /-- the answer of a remote home is awaited -/
  | remote
  /-- the page-table line of a page of the compressed tier is read (R144) -/
  | table
  /-- the page must first be made resident, or be expanded (R192) -/
  | page
  /-- a line is written with Poison for a failed transaction (R108) -/
  | poison
  deriving DecidableEq, Repr

/-- A line access of the engine path: whom it serves, the access, the captured segment words, and its progress: `loc` and
`rmt` the two copies of a dual read, `gen` the line found by a generation read, `media` whether its own media write is
outstanding, `bad` whether it commits a poisoned line for a failed transaction, `cl` its place in a resident page, `ctx` the context to which
the bay supervisor assigns the work (R30). -/
structure Job where
  owner  : Owner
  op     : MemOp
  addr   : PAddr
  cls    : Nat
  w0     : Word
  w1     : Word
  w2     : Word
  data   : Line
  mask   : BitVec 64
  pois   : Bool
  mval   : BitVec 2
  chk    : BitVec 24
  mta    : Word
  phase  : JPhase
  stamp  : FrameIx
  loc    : Option (Option (Line × Word))
  rmt    : Option (Option (Line × Word))
  gen    : Option (Line × Word)
  seq    : Nat
  media  : Bool
  bad    : Bool
  cl     : Option Nat
  ctx    : Nat
  deriving DecidableEq, Repr

/-- How a line access of the engine path ended. -/
inductive JobOut where
  /-- a read returns a line that passed the exit check, with its metadata -/
  | line (data : Line) (mta : Word)
  /-- a read fails with an ERR_CODE of R108 -/
  | bad (code : Nat)
  /-- a write is stored; is refused by the media; a transaction is failed by the engine (R108) -/
  | wrote | refused | failed
  deriving DecidableEq, Repr

/-- Which work a line command of a channel queue carries out. -/
inductive Purp where
  /-- the Direct Path request of an entry accepted as number `n` -/
  | dp (p i n : Nat)
  | job (id : Nat)
  | scrub
  | scrubWb
  | maint
  | tier (key k : Nat)
  deriving DecidableEq, Repr

/-- A line command of a channel queue (R66, R119): class, read or write, CL, the line and metadata written, whose work
it is, the crypto key slot and the line address of its tweak (R139), the cycle in which it enters its queue (R101),
whether it counts in Q(K, c) (R98), whether a controller error has reissued it (R134), whether a later write to its CL
has issued since the scrub read it comes from (R142). -/
structure MReq where
  cls   : Nat
  wr    : Bool
  cl    : Nat
  data  : Line
  mta   : Word
  purp  : Purp
  key   : Option (BitVec 10)
  taddr : PAddr
  enter : Nat
  q     : Bool
  again : Bool
  stale : Bool
  deriving DecidableEq, Repr

/-- An answer that waits for its work. -/
inductive Ans where
  | rd (r : MReq) (o : RdOut)
  | wr (r : MReq) (o : WrOut)
  deriving DecidableEq, Repr

/-- A DDR5 address of a line (R118). -/
structure DdrAddr where
  sub  : Nat
  bg   : Nat
  bank : Nat
  col  : Nat
  rank : Nat
  dimm : Nat
  row  : Nat
  deriving DecidableEq, Repr

/-- A line command as the slice sends it to the channel controller (R119); a write carries the interface beats of its codeword (R121). -/
structure LineCmd where
  wr    : Bool
  addr  : DdrAddr
  tag   : BitVec 6
  beats : Option LineBeats
  deriving DecidableEq, Repr

/-- The scrubber of a slice (R141, R142): whose turn it is, which pointers have issued and wrapped, and the pending
write-backs. -/
structure Scrub where
  turn   : Nat
  issued : List Bool
  wrapped : List Bool
  wb     : List (Nat × Line × Word)
  deriving DecidableEq, Repr

/-- A maintenance run of a slice (R137). -/
structure Mnt where
  next  : Nat
  togo  : Nat
  out   : Nat
  deriving DecidableEq, Repr

/-- A slice's state that no register holds: queue, commands issued by their tag, with the form in which they were sent (R119), poison list of 64 places with the captured entry,
scrubber, maintenance run, the locations in progress (R129) with the cycle of their decode and their CL, the frame of a
pending retirement (R568) and the cycle of its request (R6), the cycle of the last issue window, and the cycle and map entry of the last mark (R133). -/
structure Slice where
  queue  : List MReq
  out    : List (Nat × MReq)
  sent   : List (Nat × LineCmd)
  pl     : List (Nat × Nat)
  plCap  : Option (Nat × Option Nat)
  scrub  : Scrub
  mnt    : Mnt
  loc    : List (Nat × Nat × Codeword)
  retTgt : FrameIx
  retAt  : Nat
  winAt  : Option Nat
  marked : Option (Nat × Nat)
  deriving DecidableEq, Repr

/-- A slice after reset. -/
def Slice.reset : Slice :=
  { queue := [], out := [], sent := [], pl := [], plCap := none,
    scrub := { turn := 0, issued := [false, false], wrapped := [false, false], wb := [] },
    mnt := { next := 0, togo := 0, out := 0 }, loc := [], retTgt := 0, retAt := 0, winAt := none, marked := none }

/-- A line at the crypto neighbour (R139, R140). -/
structure CryptOp where
  ch : Nat
  r  : MReq
  deriving DecidableEq, Repr

/-- A shadow entry of the partner's ledger, and whether its write is staged here (R160, R161). -/
structure Shadow where
  c      : LedCopy
  staged : Bool
  deriving DecidableEq, Repr

/-- The resync walk over the lines of mirrored segments on one channel: segment and line of the share (R189). -/
structure Walk where
  seg : Nat
  u   : Nat
  deriving DecidableEq, Repr

/-- The Twin Port's state that no register holds (05). -/
structure Twin where
  /-- the levels at its single-ended pins; TW_FAIL_N driven by this chip -/
  pin      : TwPins
  failOut  : Bool
  /-- slots counted since reset; those of the last valid pulse and of the last message; a pulse in this slot -/
  slotNo   : Nat
  lastHb   : Nat
  lastMsg  : Nat
  hbSeen   : Bool
  hbFault  : Bool
  /-- own HELLO last sent and the partner's last received, and the first whole slot since both were there (log 159) -/
  helloTx  : Option HelloMsg
  helloRx  : Option HelloMsg
  agreedAt : Option Nat
  /-- the first whole slot since suspicion began (R183) -/
  suspAt   : Option Nat
  /-- the pair state from which SUSPECT was entered -/
  prior    : Nat
  misses   : Nat
  verSince : Option Nat
  /-- the frame index that the last boundary brought (R182); messages sent, those rejected; shadow entries; suspect list; the resync walk
  by channel, of a joiner the copies that are still to come, with
  those that it has rejected; the next CL of the verify walk by channel; TW_SEGSUM -/
  frame0   : FrameIx
  tx       : List (Nat × TwMsg)
  txNo     : Nat
  rejects  : List (Nat × Nat)
  shadow   : List (Nat × Shadow)
  susp     : List (Nat × PAddr)
  rsy      : List (Nat × Walk)
  owed     : List PAddr
  vfy      : List (Nat × Nat)
  sumAt    : Option Nat
  sumWait  : Bool
  deriving DecidableEq, Repr

/-- The Twin Port after reset: SOLO (R180). -/
def Twin.reset : Twin :=
  { pin := ⟨false, false, true⟩, failOut := false, slotNo := 0, lastHb := 0, lastMsg := 0,
    hbSeen := false, hbFault := false, helloTx := none, helloRx := none, agreedAt := none, suspAt := none,
    prior := 0, misses := 0, verSince := none, frame0 := 0, tx := [], txNo := 0, rejects := [], shadow := [],
    susp := [], rsy := [], owed := [], vfy := [], sumAt := none, sumWait := false }

/-- The queue state of a command segment's queue (R112): the last accepted SEQ and whether a submission runs. -/
structure CmdQueue where
  lastSeq : BitVec 16
  running : Bool
  deriving DecidableEq, Repr

/-- A posted doorbell (R110): the ringing port, the segment, the queue and the doorbell line. -/
structure Doorbell where
  bay  : Nat
  port : Nat
  idx  : Nat
  seg  : Nat
  q    : Nat
  line : Line
  deriving DecidableEq, Repr

/-- A stored error of a bay-memory word or a register: correctable, corrected by a read and awaiting its write-back (R416),
uncorrectable (R417). -/
inductive WordErr where
  | single | found | double
  deriving DecidableEq, Repr

/-- The states of a context (R198). -/
inductive CtxSt where
  | idle | ready | run | wait | halt | frozen | stopped
  deriving DecidableEq, Repr

/-- The code of a context state (R198). -/
def CtxSt.code : CtxSt → Nat
  | .idle => 0 | .ready => 1 | .run => 2 | .wait => 3 | .halt => 4 | .frozen => 5 | .stopped => 6

/-- What a context in WAIT waits for (R200): a register's result, a free entry of the coprocessor port or of the data
mover's queue, its pool-window access, a grant of the bay memory not given in cycle `c`, the completion of a tagged command. -/
inductive WaitFor where
  | reg (n : Nat)
  | port
  | queue
  | pool
  | grant (c : Nat)
  | tag (t : Nat)
  deriving DecidableEq, Repr

/-- A checkpoint (R337): PC, CB, BK, SW and the twelve stack registers by system-register number. -/
structure Checkpoint where
  pc  : Half
  cb  : Byte
  bk  : Byte
  sw  : Half
  stk : List (Nat × Half)
  deriving DecidableEq, Repr

/-- Where an instruction run by microwords began: its CB and PC, and the microaddress of the word that fetched it. -/
structure MicroStart where
  cb : Byte
  pc : Half
  ua : BitVec 14
  deriving DecidableEq, Repr

/-- The microprogram state of a context (07): microaddress, micro-stack, temporaries, accumulator, instruction register,
address unit, micro-flags uN, uZ, uC, uV, uSAT, uZ16, uGUARD from bit 0, loop counter, schedule-query conditions,
the micro-trap being handled (code and microaddress), the breakpoint's microaddress that is not compared (R509), the start of the current
instruction, and whether a microword of it has issued a control-window access (R206). -/
structure Micro where
  pc    : BitVec 14
  stack : List (BitVec 14)
  t     : List (Nat × Word)
  acc   : BitVec 40
  ir    : Word
  mar   : BitVec 24
  xt0   : BitVec 24
  xt1   : BitVec 24
  xr    : BitVec 24
  fl    : BitVec 7
  loop  : Half
  sqz   : Bool
  sqown : Bool
  trap  : Option (Nat × Nat)
  skip  : Option Nat
  start : Option MicroStart
  issued : Bool
  deriving DecidableEq, Repr

/-- Microprogram state after reset. -/
def Micro.reset : Micro :=
  { pc := 0, stack := [], t := [], acc := 0, ir := 0, mar := 0, xt0 := 0, xt1 := 0, xr := 0, fl := 0, loop := 0,
    sqz := false, sqown := false, trap := none, skip := none, start := none, issued := false }

/-- A context (06, 08 to 10).  `g` holds G0 to G31 of the primary bank under 0 to 31 and of the shadow bank under 32 to
63, `gErr` their registers with a stored error (R212), `parErr` those whose coprocessor transfer
had a parity error, `sys` the stack registers, CPF, DMS and window descriptors by system-register number (R273). -/
structure Ctx where
  st      : CtxSt
  /-- the state that a release from HALT, and that from FROZEN, returns to -/
  under   : CtxSt
  base    : CtxSt
  waitFor : Option WaitFor
  pc      : Half
  cb      : Byte
  bk      : Byte
  sw      : Half
  g       : List (Nat × Half)
  gErr    : List (Nat × WordErr)
  parErr  : List (Nat × Unit)
  sys     : List (Nat × Half)
  ceil    : BitVec 2
  wclass  : BitVec 3
  fdepth  : Byte
  df      : Bool
  tripled : Bool
  scause  : Byte
  lcause  : Byte
  /-- CAUSE while STOPPED -/
  cause   : Byte
  attempt : BitVec 2
  /-- the attempt counts of instructions that entries have abandoned, by CB and PC, the last first (R214) -/
  kept    : List (Byte × Half × BitVec 2)
  /-- LOCK, the instructions of the locked sequence so far, its restart point, the reservation; LOCK_LEN due -/
  lock    : Bool
  lockLen : Nat
  lockPc  : Half
  resv    : Option Nat
  lockOut : Bool
  /-- EA_CTX_LIRQ.PEND and EN -/
  pend    : BitVec 3
  en      : BitVec 3
  ckpt    : Option Checkpoint
  /-- the next fetch is that of a far target in a bank above 0x06 (R286) -/
  farBad  : Bool
  /-- a deferred POOL_DATA (R334) -/
  defer   : Bool
  /-- the completion tags whose command has not completed (R293) -/
  tags    : List (Nat × Unit)
  /-- flags of the last completed coprocessor result, and its integer V (R238) -/
  cpl     : BitVec 5
  intV    : Bool
  /-- the flags of floating-point results written in a cycle (R275) -/
  cpfHw   : Nat × BitVec 5
  /-- the context timer and TIMHIT (R251, R252); the context watchdog (R441) -/
  tim     : Wd
  timHit  : Bool
  wd      : Wd
  u       : Micro
  deriving DecidableEq, Repr

/-- A context after reset: IDLE, everything zero. -/
def Ctx.reset : Ctx :=
  { st := .idle, under := .idle, base := .idle, waitFor := none, pc := 0, cb := 0, bk := 0, sw := 0, g := [], gErr := [],
    parErr := [], sys := [], ceil := 0, wclass := 0, fdepth := 0, df := false, tripled := false, scause := 0, lcause := 0,
    cause := 0, attempt := 0, kept := [], lock := false, lockLen := 0, lockPc := 0, resv := none, lockOut := false, pend := 0, en := 0,
    ckpt := none, farBad := false, defer := false, tags := [], cpl := 0, intV := false, cpfHw := (0, 0), tim := ⟨0, 0, false⟩, timHit := false,
    wd := ⟨4096 * 256, 0, false⟩, u := Micro.reset }

/-- A logical engine: the context that left RUN last (R201), the cycle from which stage E is free, cycle 0 of the last
entry (R208, R209), the cycle to which a microword that holds interrupts occupies stage E (R207). -/
structure Eng where
  last  : Nat
  free  : Nat
  entry : Option Nat
  hold  : Nat
  deriving DecidableEq, Repr

/-- An engine after reset. -/
def Eng.reset : Eng := { last := 7, free := 0, entry := none, hold := 0 }

/-- Why a move takes place (R216). -/
inductive MoveKind where
  | failure | retire | swap
  deriving DecidableEq, Repr

/-- A move (R217): source slot, receiver, index of the logical engine, the context that failed, its cause, its cycle 0, and whether +2273 has passed. -/
structure Move where
  src  : Nat
  dst  : Nat
  log  : Nat
  ctx  : Nat
  kind : MoveKind
  at_  : Nat
  sub  : Bool
  deriving DecidableEq, Repr

/-- A coprocessor operation (R387 to R401): the context (8 × logical engine + context), unit, operation, the destination's
register numbers most significant first, operands, start, the cycle of its result where the unit is one of 0 to 3, the
answer held for a frozen or halted context (R196): value, flags, whether the flags go to CPF, integer V. -/
structure CopOp where
  ctx   : Nat
  unit  : Nat
  op    : Nat
  dst   : List Nat
  a     : BitVec 64
  b     : BitVec 64
  start : Nat
  due   : Option Nat
  held  : Option (BitVec 64 × BitVec 5 × Bool × Bool × Bool)
  deriving DecidableEq, Repr

/-- A place in the order in which a functional unit takes dispatches (R389): the functional unit, the cycle of the dispatch, the physical slot,
the operation's number, the cycle of its start, the cycle from which the unit takes the next one. -/
structure FuUse where
  fu    : Nat
  at_   : Nat
  slot  : Nat
  op    : Nat
  start : Nat
  free  : Nat
  deriving DecidableEq, Repr

/-- What the context of a pool-window access does when it completes: it goes on, ends its program, or takes the exception that its microword requests. -/
inductive PoolFin where
  | go
  | finish
  | raise (cause sec : Nat)
  deriving DecidableEq, Repr

/-- A pool-window access (R283): context, load or store, the destination's register numbers most significant first, what places of a wider
destination take with the data (R250), the first word's place in its line, the line's address, whether an interrupt has retired it (R206), the words of its
instruction, its bank and offset, and what follows. -/
structure PoolOp where
  ctx     : Nat
  load    : Bool
  dst     : List Nat
  up      : List (Nat × Half)
  word    : Nat
  addr    : PAddr
  retired : Bool
  len     : Nat
  at_     : Nat × Nat
  fin     : PoolFin
  deriving DecidableEq, Repr

/-- How far a tier operation has come: a page-table line is read; lines are written; lines of a form are read; a lane of the compression engine works;
finished. -/
inductive TierPhase where
  | table | writing | reading | lane | finished
  deriving DecidableEq, Repr

/-- A tier operation that a data-mover command carries (R147): its operands and its progress: the transfers whose answers are
awaited, the lines kept (the header and stream lines of a form, or of TSTORE the four header lines and then the lines of the page), whether the
media refused a write, the cycle from which it waits for a lane (R404), its result. -/
structure TierRun where
  kind   : TierKind
  op     : TierOp
  ch     : Nat
  left   : Nat
  lines  : List (Nat × Line)
  phase  : TierPhase
  refused : Bool
  laneAt : Nat
  result : Nat
  value  : BitVec 64
  deriving DecidableEq, Repr

/-- A data-mover command (R291): context, the command, the pool lines it names, its class, whether a line of bay
memory could not be read, the tier operation it carries, whether its turn among the context's commands has come (R294). -/
structure DmOp where
  ctx   : Nat
  cmd   : BitVec 64
  lines : List PAddr
  cls   : Nat
  bad   : Bool
  tier  : Option TierRun
  started : Bool
  deriving DecidableEq, Repr

/-- The installed patch (R258 to R261): its match entries in image order, and its level. -/
structure Patch where
  entries : List (BitVec 13 × BitVec 10)
  level   : Half
  deriving DecidableEq, Repr

/-- The accumulators of a descriptor in a unit (R367 to R370): lines evaluated, rows counted, integer sum, the eight lanes, flags,
minimum, maximum, NaN rows, values gathered in row order. -/
structure SvAcc where
  lines : Nat
  count : Nat
  sum   : Int
  lanes : List (Option (BitVec 64))
  fl    : BitVec 5
  mn    : Option (BitVec 64)
  mx    : Option (BitVec 64)
  nan   : Nat
  gath  : List (BitVec 64)
  deriving DecidableEq, Repr

/-- Accumulators before the first line. -/
def SvAcc.zero : SvAcc :=
  { lines := 0, count := 0, sum := 0, lanes := List.replicate 8 none, fl := 0, mn := none, mx := none, nan := 0, gath := [] }

/-- What a Sieve unit reads next: line `j` of the IN set of descriptor `i`, a null-bitmap line, a column line. -/
inductive SvRead where
  | set (i j : Nat)
  | nulls (j : Nat)
  | col
  deriving DecidableEq, Repr

/-- A Sieve unit that runs a chain (R363): submission, chain, tile, descriptor within the chain, line of its column, the IN sets past the
sixteenth (log 169), the
null-bitmap line held (descriptor, line, data), the read awaited with its number, the accumulators by descriptor. -/
structure SvUnit where
  sub   : Nat
  chain : Nat
  tile  : Nat
  d     : Nat
  line  : Nat
  sets  : List (Nat × BitVec 4096)
  nulls : Option (Nat × Nat × Line)
  want  : Option SvRead
  no    : Nat
  accs  : List (Nat × SvAcc)
  deriving DecidableEq, Repr

/-- The progress of a chain (R371, R375). -/
inductive ChainSt where
  | waiting | running | done | failed
  deriving DecidableEq, Repr

/-- A chain: first descriptor and number of descriptors, the units of its channel set, those still running, progress, its place in the order
of becoming ready. -/
structure SvChain where
  lo    : Nat
  n     : Nat
  units : List Nat
  left  : List Nat
  st    : ChainSt
  ready : Option Nat
  deriving DecidableEq, Repr

/-- How far a submission has come: accepted and waiting for one of 64 places (R378), running, its result lines being written. -/
inductive SubSt where
  | queued | running | results
  deriving DecidableEq, Repr

/-- A submission (R110 to R113, R371 to R379): its doorbell's place and fields, descriptor lines, chains, partial results by descriptor
and unit, descriptors with partial results (RSTAT 2), failures (descriptor slot, DETAIL, STATUS), frame at start, result lines to write, descriptors
done. -/
structure SvSub where
  bay    : Nat
  port   : Nat
  seg    : Nat
  q      : Nat
  seq    : BitVec 16
  first  : Nat
  result : PAddr
  reslim : Nat
  descs  : List Line
  chains : List SvChain
  parts  : List (Nat × Nat × SvAcc)
  broken : List Nat
  fails  : List (Nat × Nat × Nat)
  fstart : FrameIx
  st     : SubSt
  lines  : Nat
  done   : Nat
  deriving DecidableEq, Repr

/-- A pin engine (R453) but for its program and its registers: counters, shift register, FIFOs, the cycle of the last push into the
receive FIFO with the pushes in it (R11), pause counter, divider accumulator, the cycle of the next tick, whether the program has changed, the current instruction stalls, an unfinished PAUSE. -/
structure PinEng where
  pc      : BitVec 5
  sr      : Word
  bc      : Nat
  ca      : Half
  cb      : Half
  pause   : Nat
  last    : Word
  tx      : List Word
  rx      : List Word
  put     : Nat × Nat
  acc     : Byte
  tick    : Nat
  changed : Bool
  stall   : Bool
  deriving DecidableEq, Repr

/-- A pin engine after reset. -/
def PinEng.reset : PinEng :=
  { pc := 0, sr := 0, bc := 0, ca := 0, cb := 0, pause := 0, last := 0, tx := [], rx := [], put := (0, 0), acc := 0, tick := 0, changed := false, stall := false }

/-- The shared flags (R463): as they stood before pin-engine cycle `cyc`, and the operations of that cycle. -/
structure PinFlags where
  base : Half
  cyc  : Nat
  set  : Half
  clr  : Half
  inv  : Half
  deriving DecidableEq, Repr

/-- A transaction of the power arbiter on PMBus (R478, R482): a poll's two reads, the three writes of a slot's start, its power-down. -/
inductive PmTxn where
  | vin
  | iin
  | slot (k step : Nat)
  | off (k : Nat)
  deriving DecidableEq, Repr

/-- The power arbiter (R476 to R482): transaction in progress with its start, those that wait, the cycle from which the polls count, whether
a poll is due, failed polls in a row, whether the poll's VIN read failed, the start of the last slot, the cycles in which UV and PMFAIL
were entered and left, assertions of PWR_ALERT_N, the last frame boundary, whether a floor was short there. -/
structure PwrArb where
  cur    : Option (PmTxn × Nat)
  wait   : List PmTxn
  pollAt : Nat
  fails  : Nat
  vinOk  : Bool
  slotAt : Option Nat
  uvOn   : Nat
  uvOff  : Option Nat
  pmOn   : Nat
  pmOff  : Option Nat
  alerts : List Nat
  bndAt  : Nat
  short  : Bool
  deriving DecidableEq, Repr

/-- The power arbiter after reset. -/
def PwrArb.reset : PwrArb :=
  { cur := none, wait := [], pollAt := 0, fails := 0, vinOk := false, slotAt := none, uvOn := 0, uvOff := none, pmOn := 0,
    pmOff := none, alerts := [], bndAt := 0, short := false }

/-- No fuse field, as before fuse load (R559). -/
def FuseCopy.zero : FuseCopy := { uds := 0, unitid := 0, life := 0, own := 0, pwd := 0, psec := 0, revoke := 0, rep := 0 }

/-- An SPDM request that waits for a signature (R490). -/
inductive SpdmReq where
  | challenge (meas : Byte) (nonce : BitVec 256)
  | measurements (index : Byte) (nonce : BitVec 256)
  deriving DecidableEq, Repr

/-- The errors of SPDM responses (R487, R489, R490): that of BLANK has no code in the spec. -/
inductive SpdmErr where
  | unsupported | busy | unspecified | blank
  deriving DecidableEq, Repr

/-- An SPDM response (R490, R491). -/
inductive SpdmRsp where
  /-- version 1.2 -/
  | version (v : Byte)
  /-- CERT_CAP, CHAL_CAP, MEAS_CAP -/
  | capabilities (cert chal : Bool) (meas : Nat)
  /-- ECDSA P-384, SHA-384, DMTF measurements with SHA-384 -/
  | algorithms (p384 sha384 dmtf : Bool)
  | digests (d : BitVec 384)
  | certificate (part : List Byte) (rest : Nat)
  | challengeAuth (chain summary : BitVec 384) (nonce : BitVec 256) (sig : BitVec 768)
  | measurements (blocks : List (Nat × BitVec 384)) (sig : Option (BitVec 768))
  | error (e : SpdmErr)
  deriving DecidableEq, Repr

/-- The Trust and Debug Unit's state that no register holds (16). -/
structure Trust where
  /-- the fuse fields in force, zero before fuse load; UDS is erased with the derivation (R486, R488) -/
  fuses    : FuseCopy
  /-- a GO held until fuse load ends (R559) -/
  goHeld   : Bool
  /-- the DeviceID public key and the Alias key (R488) -/
  ident    : Option (BitVec 768 × BitVec 384)
  /-- token words written (R494) -/
  token    : List (Nat × Word)
  /-- the authorisation attempt in progress: password, and the level and SRC it will grant (R495) -/
  auth     : Option (Bool × Option (Nat × Nat))
  /-- the highest level granted since reset and its SRC (R491) -/
  top      : Nat × Nat
  /-- the health test of the random bit generator has failed (R515) -/
  rbgBad   : Bool
  /-- the certificate chain accepted (R489) -/
  chain    : Option (List Byte)
  /-- the SPDM request in progress, the responses sent in order, the number of signatures made -/
  spdm     : Option SpdmReq
  spdmTx   : List SpdmRsp
  sigs     : Nat
  /-- the SEQ of the monitor command in progress (R498), breakpoints that the monitor set, 64 bay + register (R497), sources that
  Sage has completed on T33 (R499) -/
  seq      : Byte
  brk      : List (Nat × Unit)
  sage     : List Nat
  /-- engines whose halt is deferred, and a deferred halt of the block (R506) -/
  defer    : List (Nat × Unit)
  deferBlk : Bool
  /-- the halts that the monitor and a BREAK ask for in this cycle, with FORCE, and the cross-trigger channels pulsed in it (R504, R505) -/
  asks     : List (Domain × Bool)
  pulses   : List Nat
  /-- the context that a STEP runs, and whether it runs a microword (R508) -/
  step     : Option (Nat × Bool)
  /-- the plaintext payload of the installed patch (R491) -/
  payload  : List Byte
  deriving DecidableEq, Repr

/-- The Trust and Debug Unit after reset. -/
def Trust.reset : Trust :=
  { fuses := FuseCopy.zero, goHeld := false, ident := none, token := [], auth := none, top := (0, 0), rbgBad := false, chain := none,
    spdm := none, spdmTx := [], sigs := 0, seq := 0, brk := [], sage := [], defer := [], deferBlk := false, asks := [], pulses := [], step := none, payload := [] }

/-- The instructions of the test port (R553). -/
inductive TapIns where
  | idcode | sample | extest | clamp | highz | bypass
  deriving DecidableEq, Repr

/-- The test port (R553 to R555): instruction, boundary register, the data register last captured and shifted out, and whether a release
of BLK_RST_N has turned the instruction into BYPASS. -/
structure Tap where
  ins   : TapIns
  bound : BitVec 412
  out   : BitVec 412
  off   : Bool
  deriving DecidableEq, Repr

/-- The test port after its reset. -/
def Tap.reset : Tap := { ins := .idcode, bound := 0, out := 0, off := false }

/-- A copy of the boot image (R560, R561): the cycle of the last reading of BLK_SCRATCH3, and the copy in progress: lines, SUM, entry; whether the
boot program has ended. -/
structure BootRun where
  at_   : Nat
  lines : Nat
  sum   : Word
  cb    : Byte
  pc    : Half
  busy  : Bool
  ended : Bool
  deriving DecidableEq, Repr

/-- The management port (R470): the dynamic address, and the answers to common command codes, `none` where it ignores one. -/
structure I3cPort where
  dyn : Option (BitVec 7)
  tx  : List (Option (BitVec 64))
  deriving DecidableEq, Repr

/-- What the pins hold that no register shows: BLK_RST_N released, the levels sampled with its release (TW_ROLE, straps, the Twin Port's pins),
whether the part is one of life state BLANK (R487), the synchronised levels of the pads last seen and their pin-engine cycle, the output and direction bits that pin engines drive. -/
structure Pins where
  rstN  : Bool
  role  : Bool
  strap : BitVec 4
  tw    : TwPins
  blank : Bool
  padIn : BitVec 128
  padAt : Option Nat
  out   : BitVec 128
  dir   : BitVec 128
  deriving DecidableEq, Repr

/-- The pins of a block that runs. -/
def Pins.reset : Pins := { rstN := true, role := false, strap := 0, tw := ⟨false, false, true⟩, blank := false, padIn := 0, padAt := none, out := 0, dir := 0 }

/-- What hardware and software did to registers in cycle `cyc`: under the offset of each register that hardware updated in it, the word
before the updates and the updates over a cleared word (R10, R11); under that of each register that software wrote in it, the word before;
the meters of power consumers before the actions of the cycle (R477). -/
structure Fresh where
  cyc : Nat
  hw  : List (Nat × (Word × Word))
  sw  : List (Nat × Word)
  met : List (Nat × Int)
  deriving DecidableEq, Repr

/-- What a cycle began with, for the rules that judge a cycle by it (R252, R431, R435, R506): tracker, registers, slot-table bytes with wrong parity, the
Event Controller, the bays whose supervisor has its idle flag set, the contexts that hold LOCK. -/
structure Dawn where
  tb   : Timebase
  regs : List (Nat × Word)
  bad  : List Nat
  ev   : EvState
  idle : List (Nat × Unit)
  locks : List Nat
  deriving DecidableEq, Repr

/-- What falls at the end of a cycle, after every arrival of that cycle (R440): the expiry of a timer, a silence, a loss of the steps, the claim of a
port-B agent (R413), the new offers (R431). -/
inductive Dusk where
  | ctxWd (k : Nat)
  | engWd (b x : Nat)
  | bayWd (b : Nat)
  | blkWd
  | txn (p i : Nat)
  | txnFail (p i : Nat)
  | silence
  | msgSilence
  | freeze
  | socket (k : Nat)
  | loss
  | xclaim (b n : Nat) (v : Word)
  | offers
  deriving DecidableEq, Repr

/-- A line transfer of a port-B agent (R408, R411, R414, R415): the agent by its code in BM_XCOLL, write or read, the Exchange line, the line
written or so far read, the words of the line moved, whether a word met a collision, whether one was uncorrectable. -/
structure PortB where
  agent : Nat
  wr    : Bool
  line  : Nat
  data  : Line
  done  : Nat
  coll  : Bool
  bad   : Bool
  deriving DecidableEq, Repr

/-- The accesses to bay memory in cycle `cyc`: the grants of arrays, 8 bay + array with the requester's code (R409), and the Exchange words that
port A has written, by bay and bay word address, with what each held before (R414, R415). -/
structure Ports where
  cyc   : Nat
  given : List (Nat × Nat)
  wrote : List (Nat × Half)
  deriving DecidableEq, Repr

/-- Everything of the block but bay memory and the queue of commands. -/
structure Blk where
  /-- the cycle count since State.reset (R7) -/
  now : Nat
  /-- in reset, or running (R547, R548) -/
  phase : Phase
  /-- the block PLL is locked (R546) -/
  pll : Bool
  /-- lock was lost after the block left reset, and BLK_RST_N has not been asserted since (R549) -/
  lockLost : Bool
  /-- BLK_CYC: the count at a cycle, and whether it counts (R532) -/
  cyc : Wd
  /-- the registers of the control window by normal-view offset, reset value where not listed (R13, R516) -/
  regs : List (Nat × Word)
  /-- the updates of registers in one cycle (R10, R11) -/
  fresh : Fresh
  /-- what this cycle began with (R252, R431, R435) -/
  dawn : Dawn
  /-- the captures of R519 -/
  caps : List (Nat × Nat)
  /-- the last completion of a control-window access (R520) -/
  winRsp : Option WinRsp
  /-- what falls at the end of this cycle (R440) -/
  dusk : List Dusk
  /-- the contexts whose requests fail (R30) -/
  lost : List Nat
  /-- the tracker (02) -/
  tb : Timebase
  /-- the table switch (02) -/
  sched : Sched
  /-- the Event Controller (14) -/
  ev : EvState
  /-- the block watchdog (R441, R445) -/
  blkWd : Wd
  /-- the bay watchdogs by bay (R441) -/
  bayWd : List (Nat × Wd)
  /-- the engine watchdogs by 9 b + e (R441) -/
  engWd : List (Nat × Wd)
  /-- the trigger latches of the pin engines, with the pin-engine cycle in which they were set (R464, R55) -/
  peTrig : List (Nat × Nat)
  /-- the bays whose supervisor has its idle flag set (R436) -/
  idle : List (Nat × Unit)
  /-- the stopped bays whose asynchronous latches have caught an edge, with the cycle of the first (R438) -/
  latch : List (Nat × Nat)
  /-- the cycle of the last activity in a bay that R437 counts -/
  idleAt : List (Nat × Nat)
  /-- the cycle in which the block left reset (R13, R548) -/
  relAt : Nat
  /-- the ledgers: entry i of port p under 8192 p + i, FREE where not listed (R94) -/
  led : List (Nat × Led)
  /-- the number of accesses accepted, which orders them (R96) -/
  seqNo : Nat
  /-- the responses handed to the boundary queues of the CXL controllers, in order (R24) -/
  s2m : List S2M
  /-- Q(K, c) under 32 K + c, K = 1 for G and 2 for B (R98) -/
  qCnt : List (Nat × Nat)
  /-- the segment-table words, 4 segment + word, that hold an uncorrectable error (R88) -/
  segBad : List (Nat × Unit)
  /-- the posted operator-control work, oldest first (R110) -/
  bells : List Doorbell
  /-- the queues of the command segments, under 64 segment + queue (R112) -/
  cmdQ : List (Nat × CmdQueue)
  /-- the line accesses of the engine path by number (R19) -/
  jobs : List (Nat × Job)
  /-- the number of the next line access -/
  jobNo : Nat
  /-- the slices of the Media Unit, as after reset where not listed (04) -/
  mu : List (Nat × Slice)
  /-- the number of the next line command -/
  cmdNo : Nat
  /-- answers on their way to their work within a command -/
  ans : List Ans
  /-- ends of line accesses on their way to their owners within a command -/
  fin : List (Owner × JobOut × PAddr)
  /-- the lines at the crypto neighbour by number (R405) -/
  crypt : List (Nat × CryptOp)
  /-- the messages sent to the fabric ports, in order -/
  fabTx : List (BitVec 4 × FabMsg)
  /-- the meters of the power consumers (R476) -/
  meter : List (Nat × Int)
  /-- the Twin Port (05) -/
  tw : Twin
  /-- ends of line accesses kept for the command that collects them -/
  got : List (Owner × JobOut)
  /-- answers of tier transfers, by operation and transfer -/
  tgot : List (Nat × Nat × Ans)
  /-- the contexts under 8 × logical engine + context, as after reset where not listed (R196, R197) -/
  ctxs : List (Nat × Ctx)
  /-- the logical engines, as after reset where not listed (R195) -/
  engs : List (Nat × Eng)
  /-- the move that runs in a bay (R216) -/
  moves : List (Nat × Move)
  /-- moves due while another move of the bay runs: bay, source, context, cause (R220) -/
  moveQ : List (Nat × Nat × Nat × MoveKind)
  /-- the single-bit register errors corrected, by bay (R212 names no register that shows the count) -/
  regCe : List (Nat × Nat)
  /-- the number of the next long operation -/
  opNo : Nat
  /-- the coprocessor operations whose result has not been written (R203) -/
  cops : List (Nat × CopOp)
  /-- the order of the dispatches in each functional unit of each bay (R389): 16 × bay + unit -/
  fu : List FuUse
  /-- the pool-window accesses that have not completed (R283) -/
  pools : List (Nat × PoolOp)
  /-- the data-mover commands that have not completed (R293) -/
  dms : List (Nat × DmOp)
  /-- the result code and value of the last tier operation of a context (R147, R150) -/
  tierRes : List (Nat × Nat × BitVec 64)
  /-- the bay-memory words with a stored error, under 2 ^ 19 bay + bay word address (R416, R417) -/
  bmErr : List (Nat × WordErr)
  /-- the bays whose self-test has completed since reset (R529) -/
  bistDone : List (Nat × Unit)
  /-- the cycle in which a running self-test of a bay started (R419) -/
  bistAt : List (Nat × Nat)
  /-- the cycle in which the clearing of a bay's memory started (R421) -/
  clearAt : List (Nat × Nat)
  /-- the accesses to bay memory in this cycle (R409, R414) -/
  ports : Ports
  /-- the transfers that wait for port B of a bay or run there, and those that have ended, in order (R411) -/
  xfer : List (Nat × PortB)
  xdone : List (Nat × PortB)
  /-- the words of the ROM that have been fetched: every ROM holds the same (R228) -/
  rom : List (Nat × BitVec 161)
  /-- match registers written of late: the offset, the last cycle whose fetches see the word before, that word (R256) -/
  matchOld : List (Nat × Nat × Word)
  /-- the cycle in which a request that a frame boundary carries out was accepted (R6): 2 b the planned swap of bay b, 2 b + 1 its EA_SUB,
  64 the patch activation, 65 the end of the resync -/
  asked : List (Nat × Nat)
  /-- the cycle of an activation that takes effect in the next one (R261) -/
  patchNow : Option Nat
  /-- the patch RAM words installed; the others are empty (R228, R259) -/
  patchRam : List (Nat × BitVec 160)
  /-- the patch RAM words marked bad, under 1024 bay + word (R263) -/
  patchBad : List (Nat × Unit)
  /-- the words of the patch image window (R259) -/
  patchWin : List (Nat × Word)
  /-- the installed patch (R260) -/
  patch : Option Patch
  /-- the socket-present straps sampled at the release of BLK_RST_N (R387) -/
  straps : BitVec 4
  /-- the Sieve units that run a chain, by bay (R363) -/
  svUnits : List (Nat × SvUnit)
  /-- the submissions by number (R112, R371) -/
  svSubs : List (Nat × SvSub)
  /-- the number of the next submission, and of the next chain to become ready -/
  svNo : Nat
  /-- the pin engines, as after reset where not listed (R453) -/
  pes : List (Nat × PinEng)
  /-- the shared flags of the pin engines (R463) -/
  peFlags : PinFlags
  /-- the pins -/
  pins : Pins
  /-- the power arbiter -/
  pwr : PwrArb
  /-- the Trust and Debug Unit -/
  td : Trust
  /-- the test port -/
  tap : Tap
  /-- the repair-fuse bits that FUSE_PROG has blown (R512) -/
  burnt : BitVec 4480
  /-- the boot program's copy by bay (R560, R561) -/
  boots : List (Nat × BootRun)
  /-- the management port -/
  i3c : I3cPort
  deriving DecidableEq, Repr

/-- The block, its bay memory and the commands that wait for it. -/
structure State where
  /-- all of the block but the two below -/
  blk : Blk
  /-- bay memory: byte 2 w + h of bay b, h = 0 for [7:0] of word w, lies at 2 ^ 20 b + 2 w + h; unlisted bytes are 0
  (R407, R421) -/
  mem : List Host.Cell
  /-- the commands that wait, first in, first out -/
  pending : List Instr
  deriving DecidableEq, Repr

/-- The reasons the machine stops. -/
inductive Fault where
  /-- Raised by FUSE_PROG with VPP_FUSE beyond the ratings of R543, where no behaviour of the manual holds.  Safe. -/
  | beyondRatings
  deriving DecidableEq, Repr

/-- The reasons a command is turned away. -/
inductive Refusal where
  /-- Raised by Dispatch for a command without a meaning yet.  Safe. -/
  | notModelled (mnemonic : String)
  deriving DecidableEq, Repr

/-- The block right after reset: every register at its Reset column (R13). -/
def Blk.reset : Blk :=
  { now := 0,
    phase := .running,
    pll := true,
    lockLost := false,
    cyc := ⟨0, 0, true⟩,
    regs := [],
    fresh := ⟨0, [], [], []⟩,
    dawn := ⟨Timebase.reset, [], [], EvState.reset, [], []⟩,
    caps := [],
    winRsp := none,
    dusk := [],
    lost := [],
    tb := Timebase.reset,
    sched := ⟨[], 0, 0, 0, false, none⟩,
    ev := EvState.reset,
    blkWd := ⟨8192 * 4096, 0, false⟩,
    bayWd := [],
    engWd := [],
    peTrig := [],
    idle := [],
    latch := [],
    idleAt := [],
    relAt := 0,
    led := [],
    seqNo := 0,
    s2m := [],
    qCnt := [],
    segBad := [],
    bells := [],
    cmdQ := [],
    jobs := [],
    jobNo := 0,
    mu := [],
    cmdNo := 0,
    ans := [],
    fin := [],
    crypt := [],
    fabTx := [],
    meter := [],
    tw := Twin.reset,
    got := [],
    tgot := [],
    ctxs := [],
    engs := [],
    moves := [],
    moveQ := [],
    regCe := [],
    opNo := 0,
    cops := [],
    fu := [],
    pools := [],
    dms := [],
    tierRes := [],
    bmErr := [],
    bistDone := [],
    bistAt := [],
    clearAt := [],
    ports := ⟨0, [], []⟩,
    xfer := [],
    xdone := [],
    rom := [],
    matchOld := [],
    asked := [],
    patchNow := none,
    patchRam := [],
    patchBad := [],
    patchWin := [],
    patch := none,
    straps := 0,
    svUnits := [],
    svSubs := [],
    svNo := 0,
    pes := [],
    peFlags := ⟨0, 0, 0, 0, 0⟩,
    pins := Pins.reset,
    pwr := PwrArb.reset,
    td := Trust.reset,
    tap := Tap.reset,
    burnt := 0,
    boots := [],
    i3c := ⟨none, []⟩ }

/-- The machine right after reset (R13, R548). -/
def State.reset : State := { blk := Blk.reset, mem := [], pending := [] }

end Sys2Proof.Machine
end

