-- ==== Sys2Proof/Machine/Ops.lean ====
section
/-! DEFINITION. The named operations over the block's state that every subsystem uses: registers and fields, time,
event sources with error codes, the page lock and the access errors of the control window. -/

namespace Sys2Proof.Machine

/-! ### Registers and fields -/

/-- The mask of the lowest `w` bits of a word. -/
def lowMask (w : Nat) : Word := BitVec.ofNat 32 (2 ^ w - 1)

/-- The value of a field in a register word (00, Numbers, sizes and bits). -/
def Fld.get (f : Fld) (v : Word) : Nat := ((v >>> f.lo) &&& lowMask f.w).toNat

/-- A register word with one field replaced. -/
def Fld.put (f : Fld) (v : Word) (n : Nat) : Word :=
  (v &&& ~~~(lowMask f.w <<< f.lo)) ||| ((BitVec.ofNat 32 n &&& lowMask f.w) <<< f.lo)

/-- The value held by the register at a normal-view offset. -/
def Blk.rd (s : Blk) (off : Nat) : Word := tget regReset s.regs off
/-- The register at a normal-view offset takes a value. -/
def Blk.wr (s : Blk) (off : Nat) (v : Word) : Blk := { s with regs := tset regReset s.regs off v }
/-- The value of a field. -/
def Blk.fld (s : Blk) (f : Fld) : Nat := f.get (s.rd f.off)
/-- A field takes a value, modulo its width. -/
def Blk.setFld (s : Blk) (f : Fld) (n : Nat) : Blk := s.wr f.off (f.put (s.rd f.off) n)
/-- A one-bit field as a truth value. -/
def Blk.bit (s : Blk) (f : Fld) : Bool := s.fld f != 0
/-- A one-bit field is set. -/
def Blk.set1 (s : Blk) (f : Fld) : Blk := s.setFld f 1
/-- A one-bit field is cleared. -/
def Blk.clr1 (s : Blk) (f : Fld) : Blk := s.setFld f 0
/-- A one-bit field takes a truth value. -/
def Blk.setBit (s : Blk) (f : Fld) (b : Bool) : Blk := s.setFld f b.toNat
/-- Bit `i` of the register at an offset. -/
def Blk.rbit (s : Blk) (off i : Nat) : Bool := (s.rd off).getLsbD i
/-- Bit `i` of the register at an offset takes a value. -/
def Blk.setRbit (s : Blk) (off i : Nat) (b : Bool) : Blk := s.setFld ⟨off, i, 1⟩ b.toNat

/-! ### Updates and accesses of one cycle (R10, R11) -/

/-- The record of this cycle. -/
def Blk.freshNow (s : Blk) : Fresh := if s.fresh.cyc = s.now then s.fresh else ⟨s.now, [], [], []⟩
/-- The word before this cycle's hardware updates, and those updates over a cleared word. -/
def Blk.freshOf (s : Blk) (off : Nat) : Word × Word := (pget s.freshNow.hw off).getD (s.rd off, 0)
/-- Hardware updates a register: it takes `v`, and `z` is what the updates of this cycle make of a cleared word. -/
def Blk.hwPut (s : Blk) (off : Nat) (v z : Word) : Blk :=
  { s.wr off v with fresh := { s.freshNow with hw := pset s.freshNow.hw off ((s.freshOf off).1, z) } }
/-- Hardware updates a field, given its new value and that over a cleared word. -/
def Blk.hw2 (s : Blk) (f : Fld) (n m : Nat) : Blk := s.hwPut f.off (f.put (s.rd f.off) n) (f.put (s.freshOf f.off).2 m)
/-- Hardware updates a field from its value. -/
def Blk.hw (s : Blk) (f : Fld) (g : Nat → Nat) : Blk := s.hw2 f (g (s.fld f)) (g (f.get (s.freshOf f.off).2))
/-- Hardware sets a one-bit field, which a write of 1 in the same cycle does not clear (R10). -/
def Blk.hwSet (s : Blk) (f : Fld) : Blk := s.hw f fun _ => 1
/-- Hardware sets bit `i` of the register at an offset. -/
def Blk.hwBit (s : Blk) (off i : Nat) : Blk := s.hwSet ⟨off, i, 1⟩
/-- A field counts `k` more and saturates at its greatest value. -/
def Blk.bump (s : Blk) (f : Fld) (k : Nat := 1) : Blk := s.hw f fun n => min (n + k) (2 ^ f.w - 1)
/-- The bits that hardware has set in a register in this cycle. -/
def Blk.hwBits (s : Blk) (off : Nat) : Word := match pget s.freshNow.hw off with | some x => x.2 | none => 0
/-- Software's access to a register has met this cycle's updates; a second access in the cycle meets none. -/
def Blk.hwSeen (s : Blk) (off : Nat) : Blk := { s with fresh := { s.freshNow with hw := pdel s.freshNow.hw off } }
/-- Software is about to write a register: what it holds is kept as the value of this cycle. -/
def Blk.keepOld (s : Blk) (off : Nat) : Blk :=
  if (pget s.freshNow.sw off).isSome then s
  else { s with fresh := { s.freshNow with sw := pset s.freshNow.sw off (s.rd off) } }
/-- The register as hardware sees it in this cycle: a write of the same cycle does not yet show. -/
def Blk.rd0 (s : Blk) (off : Nat) : Word := (pget s.freshNow.sw off).getD (s.rd off)
@[inherit_doc Blk.rd0] def Blk.fld0 (s : Blk) (f : Fld) : Nat := f.get (s.rd0 f.off)
@[inherit_doc Blk.rd0] def Blk.bit0 (s : Blk) (f : Fld) : Bool := s.fld0 f != 0
/-- A write of 1 clears each W1C bit of a mask, unless hardware has set it in this cycle (R8, R10). -/
def Blk.w1c (s : Blk) (off : Nat) (mask v : Word) : Blk :=
  (s.wr off ((s.rd off &&& ~~~(v &&& mask)) ||| (s.hwBits off &&& v &&& mask))).hwSeen off

/-! ### Time -/

/-- Whether the block is halted (R503). -/
def Blk.blockHalted (s : Blk) : Bool := s.bit F.TD_HSTATX_BLOCK


/-- The count left of a counter (R441), 0 when it has run out. -/
def Wd.leftAt (w : Wd) (now : Nat) : Nat := if w.run then w.left - (now - w.since) else w.left
/-- A running counter whose count has run out. -/
def Wd.due (w : Wd) (now : Nat) : Bool := w.run && decide (w.left ≤ now - w.since)
/-- A counter reloads and keeps its condition (R440, R441). -/
def Wd.reload (w : Wd) (now n : Nat) : Wd := { w with left := n, since := now }
/-- A counter starts or stops counting with the count it has. -/
def Wd.gate (w : Wd) (now : Nat) (run : Bool) : Wd := { left := w.leftAt now, since := now, run := run }

/-- BLK_CYC at this cycle (R532). -/
def Blk.cycles (s : Blk) : Nat :=
  (if s.cyc.run then s.cyc.left + (s.now - s.cyc.since) else s.cyc.left) % 2 ^ 48

/-- Whether events take place: the block is out of reset (R547 to R549) and not halted (R503). -/
def Blk.live (s : Blk) : Bool := s.phase == .running && !s.blockHalted

/-! ### Pages and error codes -/

/-- The base of the page that holds a source, and the lowest source of that page's subsystem (R424, R425, R79). -/
def srcPage (n : Nat) : Nat × Nat :=
  if n < 2 then (0x2000, 0)
  else if n < 6 then (0x1000, 2)
  else if n < 14 then (0xC000, 6)
  else if n < 22 then (0x3000, 14)
  else if n < 34 then (if n < 26 ∨ (30 ≤ n ∧ n < 33) then (0x7000, 22) else (0x6000, 22))
  else if n < 42 then (0x8000 + 0x1000 * ((n - 34) / 2), 34 + 2 * ((n - 34) / 2))
  else if n < 46 then (0xD000, 42)
  else if n < 50 then (0x5000, 46)
  else if n < 58 then (0x4000, 50)
  else if n < 186 then (0x40000 + 0x4000 * ((n - 58) / 4), 58 + 4 * ((n - 58) / 4))
  else (0x10000 + 0x1000 * ((n - 186) / 2), 186 + 2 * ((n - 186) / 2))

/-- A raise with an error code: ERR_CODE and ERR_INFO of the page (R523, R524).  Beside it stands what the raise makes of the registers
after a read of ERR_CODE that falls in this cycle (R525). -/
def Blk.raiseErr (s : Blk) (page code info : Nat) : Blk :=
  let s := s.bump (F.ERR_CODE_COUNT page)
  let x := s.freshOf (F.ERR_CODE_CODE page).off
  let hold := s.bit (F.PAGE_STAT_INFOHOLD page)
  let holdZ := hold || (F.ERR_CODE_CODE page).get x.1 != 0
  let put := s.bit (F.PAGE_CTRL_ERRLAST page) || s.fld (F.ERR_CODE_CODE page) == 0
  let putZ := s.bit (F.PAGE_CTRL_ERRLAST page) || (F.ERR_CODE_CODE page).get x.2 == 0
  let s := s.hw2 (F.ERR_CODE_CODE page) (if put then code else s.fld (F.ERR_CODE_CODE page))
    (if putZ then code else (F.ERR_CODE_CODE page).get x.2)
  let s := s.hw2 (F.ERR_CODE_NOINFO page) (if put && hold then 1 else s.fld (F.ERR_CODE_NOINFO page))
    (if putZ && holdZ then 1 else (F.ERR_CODE_NOINFO page).get x.2)
  if put && !hold then s.hw (F.ERR_INFO_INFO page) fun _ => info else s

/-! ### Event sources -/

/-- The word and bit of source `n` in EV_PEND and in EV_MASK (R448). -/
def evPendBit (n : Nat) : Fld := ⟨F.EV_PEND_off (n / 32), n % 32, 1⟩
@[inherit_doc evPendBit] def evMaskBit (n : Nat) : Fld := ⟨F.EV_MASK_off (n / 32), n % 32, 1⟩

/-- Hardware sets an EV_PEND bit, in the shadow copy during a freeze (R426, R429). -/
def Blk.evPend (s : Blk) (n : Nat) : Blk :=
  if s.ev.frozen then { s with ev := { s.ev with heldPend := pset s.ev.heldPend n () } }
  else s.set1 (evPendBit n)

/-- A set of EV_PEND (`mask` false) or EV_MASK that takes effect at the end of the next cycle (R426, R429). -/
def Blk.evLater (s : Blk) (mask : Bool) (n : Nat) : Blk :=
  { s with ev := { s.ev with due := s.ev.due ++ [(mask, n, s.now)] } }

/-- Hardware sets an EV_MASK bit, in the shadow copy during a freeze (R428, R429). -/
def Blk.evMask (s : Blk) (n : Nat) : Blk :=
  if s.ev.frozen then { s with ev := { s.ev with heldMask := pset s.ev.heldMask n () } }
  else { s.set1 (evMaskBit n) with ev := { s.ev with maskAt := pset s.ev.maskAt n s.now } }

/-- The page's record of a raise, its error code, and EV_PEND unless the page masks the source (R425, R426, R523). -/
def Blk.raiseCore (s : Blk) (n : Nat) (err : Option (Nat × Nat)) : Blk :=
  let (page, f) := srcPage n
  let s := s.hwBit (page + 0xC) (n - f)
  let s := match err with
    | some (code, info) => s.raiseErr page code info
    | none => s
  if s.rbit (page + 0x10) (n - f) then s else s.evLater false n

/-- A raise of source `n` (R426) with the storm guard's count (R428). -/
def Blk.raise (s : Blk) (n : Nat) (err : Option (Nat × Nat) := none) : Blk :=
  let s := s.raiseCore n err
  let k := tget (fun _ => 0) s.ev.storm n + 1
  let s := { s with ev := { s.ev with storm := tset (fun _ => 0) s.ev.storm n k } }
  let limit := s.fld F.EV_GCTL_STORM
  if limit ≠ 0 ∧ s.fld F.EV_GCTL_URG ≤ n ∧ k = limit + 1 then
    let s := (s.evMask n).hwSet F.EV_STAT_STORMED
    let s := { s with ev := { s.ev with storm := tset (fun _ => 0) s.ev.storm 1 (tget (fun _ => 0) s.ev.storm 1 + 1) } }
    s.raiseCore 1 (some (0x20, n))
  else s

/-! ### What falls due as time passes -/

/-- One set that was due takes effect; of EV_MASK, in the shadow copy during a freeze. -/
def Blk.evLands (s : Blk) (x : Bool × Nat × Nat) : Blk :=
  if x.1 then
    if s.ev.frozen then { s with ev := { s.ev with heldMask := pset s.ev.heldMask x.2.1 () } } else s.set1 (evMaskBit x.2.1)
  else s.evPend x.2.1

/-- An expiry is seen in this cycle; it falls at its end, after every arrival of the cycle (R440). -/
def Blk.atDusk (s : Blk) (d : Dusk) : Blk := { s with dusk := s.dusk ++ [d] }

/-- The block with what this cycle began with. -/
def Blk.atDawn (s : Blk) : Blk :=
  { s with tb := s.dawn.tb, regs := s.dawn.regs, sched := { s.sched with badParity := s.dawn.bad }, ev := s.dawn.ev, idle := s.dawn.idle }

/-- The sets of EV_PEND and EV_MASK whose cycle has passed take effect (R426, R429). -/
def Blk.evDue (s : Blk) : Blk :=
  (s.ev.due.filter fun x => decide (x.2.2 + 2 ≤ s.now)).foldl Blk.evLands
    { s with ev := { s.ev with due := s.ev.due.filter fun x => decide (s.now < x.2.2 + 2) } }

/-- SPEED takes the mean of the period accepted in an earlier cycle, and SPVALID sets (R51). -/
def Blk.speedDue (s : Blk) : Blk :=
  match s.tb.spNext with
  | some (c, v) =>
    if c < s.now then
      ({ s with tb := { s.tb with spNext := none } }.setFld F.SC_TB_SPEED_SPEED v).set1 F.SC_TB_STAT_SPVALID
    else s
  | none => s

/-- SC_TB_STAT.STATE (R57). -/
def Blk.tbState (s : Blk) : Nat := s.fld F.SC_TB_STAT_STATE
/-- LOCKED or DRIFT, where boundaries come from accepted steps (R43). -/
def Blk.tbCounts (s : Blk) : Bool := s.tbState == 2 || s.tbState == 3

/-- The retransmission outputs are held low unless OUTEN is 1 in LOCKED or DRIFT; what was begun is cut off (R37). -/
def Blk.tbOutGate (s : Blk) : Blk :=
  if s.bit F.SC_TB_CTRL_OUTEN && s.tbCounts then s
  else { s with tb := { s.tb with outB := false, outBNext := none, pulses := [] } }

/-- The tracker enters HOLDOVER (R46, R572, R79; R79 gives no ERR_INFO layout, and the model writes 0, log 141). -/
def Blk.enterHoldover (s : Blk) : Blk :=
  let s := (s.setFld F.SC_TB_STAT_STATE 4).raise 24 (some (4, 0))
  { s with tb := { s.tb with acc := 0, accAt := s.now, perOpen := false } }.tbOutGate

/-- In the cycle after a write of LOSS the new value is in force, and a count that has reached it enters HOLDOVER (R572). -/
def Blk.lossDue (s : Blk) : Blk :=
  match s.tb.lossWas with
  | some (c, _) =>
    if c < s.now then
      let t := { s with now := c + 1, tb := { s.tb with lossWas := none } }
      let t := if t.tbCounts && decide (t.fld F.SC_TB_TIMING_LOSS ≤ t.now - t.tb.lossFrom) then t.enterHoldover else t
      { t with now := s.now }
    else s
  | none => s

/-- An access to the control window, which a halted block performs too (R503, R533). -/
def State.reg (s : State) (f : Blk → Blk) : Host.Outcome State Fault Refusal :=
  .next { s with blk := if s.blk.phase = .running then f s.blk else s.blk }

/-- The same for an access that reaches bay memory or the queues beside the block. -/
def State.regM (s : State) (f : State → State) : Host.Outcome State Fault Refusal :=
  .next (if s.blk.phase = .running then f s else s)

/-- CS_VERSION of this chip (R264). -/
def Blk.csVersion (s : Blk) : Word := Config.romVersion ++ (s.rd F.CS_VERSION_off).setWidth 16

/-- Whether the partner's CS_VERSION has come with a message (R193). -/
def Blk.partnerKnown (s : Blk) : Bool := s.tw.helloRx.isSome || decide (2 ≤ s.fld F.TW_STAT_STATE) || s.rd F.TW_PVER_off != 0
/-- A change of this chip's CS_VERSION shows in VERDIFF once the partner's is known (R193, R262). -/
def Blk.verSeen (s : Blk) : Blk :=
  if s.partnerKnown then s.setBit F.TW_STAT_VERDIFF (s.rd F.TW_PVER_off != s.csVersion) else s

/-! ### Power gates -/

/-- The meter of consumer `k` (R476). -/
def Blk.meterOf (s : Blk) (k : Nat) : Int := tget (fun _ => 0) s.meter k
/-- Whether a consumer's gate is open: all actions of a cycle see the meter as it stood at its start (R477). -/
def Blk.gateOpen (s : Blk) (k : Nat) : Bool :=
  !s.bit F.SB_PWR_CTRL_EN || s.fld (F.SB_TOK_COST_COST k) == 0 || decide (0 < (pget s.freshNow.met k).getD (s.meterOf k))
/-- `n` actions of a consumer are paid for (R477). -/
def Blk.spend (s : Blk) (k : Nat) (n : Nat := 1) : Blk :=
  if s.bit F.SB_PWR_CTRL_EN then
    { s with
      meter := tset (fun _ => 0) s.meter k (s.meterOf k - (n * s.fld (F.SB_TOK_COST_COST k) : Nat)),
      fresh := { s.freshNow with met := if (pget s.freshNow.met k).isSome then s.freshNow.met else pset s.freshNow.met k (s.meterOf k) } }
  else s
/-! ### The control window's gates -/

/-- The requester's number on BLK_ACCERR.PATH (R529). -/
def pathCode : Req → Nat
  | .mailbox => 0 | .i3c => 1 | .engine _ => 2 | .monitor => 3

/-- BLK_ACCERR with a record of an access error, where it holds none (R520, R529). -/
def accRecord (req : Req) (isWrite : Bool) (cause off : Nat) (w : Word) : Word :=
  if F.BLK_ACCERR_VALID.get w = 1 then w
  else
    let w := F.BLK_ACCERR_PATH.put (F.BLK_ACCERR_VALID.put w 1) (pathCode req)
    F.BLK_ACCERR_OFFSET.put (F.BLK_ACCERR_CAUSE.put (F.BLK_ACCERR_WR.put w isWrite.toNat) cause) off

/-- An access error: recorded in BLK_ACCERR when it holds none and on the page, and reported (R12, R520). -/
def Blk.accErr (s : Blk) (req : Req) (isWrite : Bool) (cause off : Nat) : Blk :=
  let s := match pageOf (off % 0x200000) with
    | some p =>
      (match p.kind with
       | .segTable | .slotTable | .patchWin => s
       | _ => s.hwSet (F.PAGE_STAT_ACCERR p.base))
    | none => s
  let s := { s with winRsp := some ⟨req, 0, true⟩ }
  let note := accRecord req isWrite cause off
  s.hwPut F.BLK_ACCERR_off (note (s.rd F.BLK_ACCERR_off)) (note (s.freshOf F.BLK_ACCERR_off).2)

/-- The write path of a management requester that its enable closes (R531). -/
def Blk.pathClosed (s : Blk) (req : Req) : Bool :=
  match req with
  | .mailbox => !s.bit F.BLK_CTRL_MBXWR
  | .i3c => !s.bit F.BLK_CTRL_I3CWR
  | _ => false

/-- KIND and ID of PAGE_LOCK that name a requester; the monitor has none (R527, R528). -/
def lockName : Req → Option (Nat × Nat)
  | .engine b => some (1, b.val)
  | .mailbox => some (2, 0)
  | .i3c => some (3, 0)
  | .monitor => none

/-- Whether the page lock refuses a write of `req` (R527, R528). -/
def Blk.lockedOut (s : Blk) (req : Req) (page : Nat) : Bool :=
  match lockName req with
  | none => false
  | some (k, i) => s.fld (F.PAGE_LOCK_KIND page) != 0 &&
      !(s.fld (F.PAGE_LOCK_KIND page) == k && s.fld (F.PAGE_LOCK_ID page) == i)

/-- The context that is the bay supervisor (R196, R223). -/
def Blk.supervisor (s : Blk) (b : Nat) : Nat := 8 * (8 * b + s.fld (F.EA_BAY_CTRL_SUPV b))

/-- The bit of TD_HSTAT of a logical engine. -/
def hstatFld (e : Nat) : Fld := ⟨F.TD_HSTAT_off (e / 32), e % 32, 1⟩

/-- Whether logical engine `e` lies in a halted domain (R503). -/
def Blk.halted (s : Blk) (e : Nat) : Bool :=
  s.bit (hstatFld e) || (s.rbit F.TD_HSTATB_off (e / 8) && (pget s.td.defer e).isNone) || s.blockHalted

/-- The domains that this cycle's trigger halts: those that the monitor and a BREAK ask for, and the union of the targets of the channels
pulsed in it, by the masks that the cycle began with (R504). -/
def Blk.triggers (s : Blk) (d : Domain) : Bool :=
  let m := s.atDawn
  s.td.asks.any (fun x => x.1 == d) || s.td.pulses.any fun c =>
    match d with
    | .engine e => m.rbit (F.TD_XT_ENG_off c (e / 32)) (e % 32)
    | .bay b => m.rbit (F.TD_XT_BAY_off c) b
    | .block => m.bit (F.TD_XT_CTL_BLOCK c)
    | .other => false

/-- Whether a halt of this cycle covers a logical engine. -/
def Blk.haltAsked (s : Blk) (e : Nat) : Bool := s.triggers (.engine e) || s.triggers (.bay (e / 8)) || s.triggers .block

/-- Whether a STEP runs context `k`, and whether it runs one of engine `e` (R508). -/
def Blk.stepping (s : Blk) (k : Nat) : Bool := s.td.step.any fun x => x.1 == k
@[inherit_doc Blk.stepping] def Blk.stepsEngine (s : Blk) (e : Nat) : Bool := s.td.step.any fun x => x.1 / 8 == e

/-- The reload value of the bay watchdogs (R441). -/
def Blk.bayReload (s : Blk) : Nat := s.fld F.EV_WD_BAY_LIMIT * 4096
/-- The watchdog of a bay, full where nothing has touched it. -/
def Blk.bayWdOf (s : Blk) (b : Nat) : Wd := (pget s.bayWd b).getD ⟨s.bayReload, 0, false⟩
/-- A bay's watchdog counts while its engines are enabled, its clocks run and the supervisor's engine is not halted
(R441, R446, R447). -/
def Blk.bayWatch (s : Blk) (b : Nat) : Blk :=
  let run := s.bit (F.EA_BAY_CTRL_EN b) && !s.rbit F.EV_BAYSTOP_off b && !s.halted (s.supervisor b / 8) && s.bayReload != 0
  { s with bayWd := pset s.bayWd b ((s.bayWdOf b).gate s.now run) }

/-- Activity in a bay: the cycles of R437 count from here. -/
def Blk.stir (s : Blk) (b : Nat) : Blk := { s with idleAt := pset s.idleAt b s.now }

/-- A bay's clocks run again (R438, R439), and its bay watchdog goes on from the count it held (R447). -/
def Blk.wakeBay (s : Blk) (b : Nat) : Blk :=
  if s.rbit F.EV_BAYSTOP_off b then
    let s := { s.setRbit F.EV_BAYSTOP_off b false with latch := pdel s.latch b }
    (s.stir b).bayWatch b
  else s

/-- A latch of a stopped bay catches an edge; the first one restarts the clocks (R438). -/
def Blk.edge (s : Blk) (b : Nat) : Blk :=
  if s.rbit F.EV_BAYSTOP_off b ∧ (pget s.latch b).isNone then { s with latch := pset s.latch b s.now } else s

/-- A normal-view aligned 32-bit write that reaches a register of a page: refused by a closed write path (R531) or by
the page lock (R527), else performed by `f`; a stopped bay first wakes (R439). -/
def Blk.gated (s : Blk) (req : Req) (off : Nat) (f : Blk → Blk) : Blk :=
  if s.pathClosed req then s.accErr req true 2 off
  else
    let s := { s.keepOld off with winRsp := some ⟨req, 0, false⟩ }
    match pageOf off with
    | none => s
    | some p =>
      match p.kind with
      | .segTable | .slotTable | .patchWin => f s
      | .bay | .sieve | .eng =>
        if s.lockedOut req p.base then s.hwSet (F.PAGE_STAT_LOCKREF p.base) else f (s.wakeBay p.inst)
      | _ => if s.lockedOut req p.base then s.hwSet (F.PAGE_STAT_LOCKREF p.base) else f s

/-- A register word after a write by the access codes of R8. -/
def accessWrite (r : RegRow) (old v : Word) : Word :=
  let rw := BitVec.ofNat 32 r.rw
  ((old &&& ~~~rw) ||| (v &&& rw)) &&& ~~~(v &&& BitVec.ofNat 32 r.w1c) ||| (v &&& BitVec.ofNat 32 r.w1s)

/-- A write of the register at `off` by its access codes alone (R8); a W1C bit that hardware sets in this cycle stays set (R10). -/
def Blk.plainWrite (s : Blk) (off : Nat) (v : Word) : Blk :=
  match regRow off with
  | some r =>
    let s' := s.wr off (accessWrite r (s.rd off) v ||| (s.hwBits off &&& v &&& BitVec.ofNat 32 r.w1c))
    if r.w1c = 0 then s' else s'.hwSeen off
  | none => s

/-- A write's word with a field forced to a value: the bit that a command's name says is written 1. -/
def force (f : Fld) (v : Word) (n : Nat) : Word := f.put v n

end Sys2Proof.Machine
end

