-- ==== Sys2Proof/Machine/BayMem.lean ====
section
/-! DEFINITION. Bay memory (13): reads and writes of words, their errors (R416, R417), reservations (R326), the Exchange buffers'
owners (R412, R413), the ports of a cycle (R408 to R411, R414, R415), self-test and column repair (R418 to R420), clearing and power (R421, R422). -/

namespace Sys2Proof.Machine

/-! ### Words -/

/-- The place in `mem` of the less significant byte of a word. -/
def memKey (b w : Nat) : Nat := 2 ^ 20 * b + 2 * w

/-- The byte at a place; unlisted bytes are 0 (R421). -/
def memByte (m : List Host.Cell) (k : Nat) : Byte := tget (fun _ => 0) m k
/-- A byte takes a value. -/
def setByte (m : List Host.Cell) (k : Nat) (v : Byte) : List Host.Cell := tset (fun _ => 0) m k v

/-- Bay memory in its one form: addresses strictly rising, no zero byte listed. -/
def Memory.wf (m : List Host.Cell) : Bool := twf (fun _ => (0 : Byte)) m

/-- The word stored at a bay word address. -/
def State.peek (s : State) (b w : Nat) : Half := memByte s.mem (memKey b w + 1) ++ memByte s.mem (memKey b w)

/-- A word is stored. -/
def State.poke (s : State) (b w : Nat) (v : Half) : State :=
  { s with mem := setByte (setByte s.mem (memKey b w) (v.setWidth 8)) (memKey b w + 1) (v.extractLsb' 8 8) }

/-- Every word of a bay's memory becomes zero (R421). -/
def State.wipe (s : State) (b : Nat) : State :=
  { s with mem := s.mem.filter fun c => c.1 / 2 ^ 20 != b,
           blk := { s.blk with bmErr := s.blk.bmErr.filter fun e => e.1 / 2 ^ 19 != b } }

/-- The key of a word among the stored errors. -/
def bmKey (b w : Nat) : Nat := 2 ^ 19 * b + w

/-- Whether the memory serves requests (R421, R423). -/
def Blk.bmReady (s : Blk) (b : Nat) : Bool := s.bit (F.BM_STAT_READY b)

/-! ### Ports -/

/-- The physical slot of logical engine `e`: EA_SUB first, then EA_MAP (R195, R221). -/
def Blk.slotOf (s : Blk) (e : Nat) : Nat :=
  let b := e / 8
  if s.bit (F.EA_SUB_VALID b) && s.fld (F.EA_SUB_LOG b) == e % 8 then s.fld (F.EA_SUB_SLOT b)
  else s.fld ⟨F.EA_MAP_off b, 4 * (e % 8), 4⟩

/-- The first bay word address of the Exchange region (R407). -/
def xchgBase : Nat := 0x78000
/-- The array of a word: a single-port one by bits [2:1], or the Exchange array (R407). -/
def arrayOf (w : Nat) : Nat := if xchgBase ≤ w then 4 else w / 2 % 4

/-- The accesses of this cycle. -/
def Blk.portsNow (s : Blk) : Ports := if s.ports.cyc = s.now then s.ports else ⟨s.now, [], []⟩
/-- The array of a word is granted to a requester in this cycle (R408, R409). -/
def Blk.grant (s : Blk) (b w req : Nat) : Blk :=
  let x := (8 * b + arrayOf w, req)
  let p := s.portsNow
  { s with ports := { p with given := if p.given.contains x then p.given else x :: p.given } }
/-- Port A writes a word: of an Exchange word the value before the cycle is kept (R414, R415). -/
def State.wroteA (s : State) (b w : Nat) : State :=
  let p := s.blk.portsNow
  if w < xchgBase ∨ (pget p.wrote (bmKey b w)).isSome then s
  else { s with blk := { s.blk with ports := { p with wrote := pset p.wrote (bmKey b w) (s.peek b w) } } }
/-- Whether `t`, which adds accesses of requester `req` to those of `s`, asks for an array of a bay that another requester has been granted in
this cycle (R408, R409); a stolen cycle keeps no one off (R410). -/
def Blk.clash (s t : Blk) (b req : Nat) : Bool :=
  s.portsNow.given.any fun x => x.1 / 8 == b && x.2 != req && x.2 != 12 && t.portsNow.given.contains (x.1, req)

/-! ### Accesses -/

/-- A read by a requester, its array granted: the word, or none where it holds an uncorrectable error (R416, R417). -/
def State.bmRead (s : State) (b w req : Nat) : State × Option Half :=
  let s : State := { s with blk := s.blk.grant b w req }
  match pget s.blk.bmErr (bmKey b w) with
  | none | some .found => (s, some (s.peek b w))
  | some .single =>
    let k := { s.blk with bmErr := pset s.blk.bmErr (bmKey b w) .found }
    ({ s with blk := k.bump (F.BM_CE_CNT_COUNT b) }, some (s.peek b w))
  | some .double =>
    let k := ((s.blk.bump (F.BM_UE_CNT_COUNT b)).setFld (F.BM_UE_REQ b) req).setFld (F.BM_UE_ADDR b) w
    ({ s with blk := k.raise (58 + 4 * b) (some (0x09, req * 2 ^ 28 + w)) }, none)

/-- A write from another requester breaks the reservations on its word (R326). -/
def breakResv (cs : List (Nat × Ctx)) (b w : Nat) (self : Option Nat) : List (Nat × Ctx) :=
  cs.map fun c => if c.1 / 64 = b ∧ c.2.resv = some w ∧ self ≠ some c.1 then (c.1, { c.2 with resv := none }) else c

/-- A word is stored with valid check bits, and reservations of others on it break (R326, R417). -/
def State.bmStore (s : State) (b w : Nat) (v : Half) (self : Option Nat) : State :=
  { s.poke b w v with blk := { s.blk with bmErr := pdel s.blk.bmErr (bmKey b w), ctxs := breakResv s.blk.ctxs b w self } }

/-- A write of a word through port A by a context (`self`), or by the requester with code `req`. -/
def State.bmWrite (s : State) (b w : Nat) (v : Half) (self : Option Nat) (req : Nat := 9) : State :=
  let s := s.wroteA b w
  { s with blk := s.blk.grant b w (match self with | some k => s.blk.slotOf (k / 8) | none => req) }.bmStore b w v self

/-- Words of consecutive addresses, each read; none where one is uncorrectable. -/
def State.bmReads (s : State) (b req : Nat) : List Nat → State × Option (List Half)
  | [] => (s, some [])
  | w :: ws =>
    match s.bmRead b w req with
    | (t, some v) =>
      (match t.bmReads b req ws with
       | (u, some vs) => (u, some (v :: vs))
       | (u, none) => (u, none))
    | (t, none) => (t, none)

/-- Words written one by one. -/
def State.bmWrites (s : State) (b : Nat) (self : Option Nat) (l : List (Nat × Half)) (req : Nat := 9) : State :=
  l.foldl (fun s x => s.bmWrite b x.1 x.2 self req) s

/-- The words of a line, lowest address first (R268, R281). -/
def lineWords (d : Line) : List Half := (List.range 32).map fun i => d.extractLsb' (16 * i) 16
/-- The line of 32 words. -/
def wordsLine (l : List Half) : Line :=
  l.foldr (fun w (a : Line) => (a <<< 16) ||| w.setWidth 512) 0

/-- A line of bay memory is read (bay line = bay word address [18:5]). -/
def State.bmLine (s : State) (b line req : Nat) : State × Option Line :=
  match s.bmReads b req ((List.range 32).map fun i => 32 * line + i) with
  | (t, some ws) => (t, some (wordsLine ws))
  | (t, none) => (t, none)

/-- A line of bay memory is written. -/
def State.bmPutLine (s : State) (b line : Nat) (d : Line) : State :=
  s.bmWrites b none ((lineWords d).mapIdx fun i v => (32 * line + i, v))

/-- A corrected word is written back in a cycle in which no requester asks for its array, where no write came first (R416). -/
def Blk.bmWriteback (s : Blk) (b w : Nat) : Blk :=
  if pget s.bmErr (bmKey b w) = some .found ∧ !(s.portsNow.given.any fun x => x.1 == 8 * b + arrayOf w) then { s with bmErr := pdel s.bmErr (bmKey b w) } else s

/-! ### Port B -/

/-- The transfer that port B of a bay serves in a cycle: of the agents that ask, the lowest (R411). -/
def Blk.portBNext (s : Blk) (b : Nat) : Option PortB :=
  let l := (s.xfer.filter fun x => x.1 == b).map (·.2)
  (List.range 6).findSome? fun a => l.find? fun x => x.agent == a

/-- A collision on an Exchange word (R414). -/
def Blk.collides (s : Blk) (b agent w : Nat) : Blk :=
  let s := (s.hwSet (F.BM_STAT_XCOLL b)).hwPut (F.BM_XCOLL_off b) (BitVec.ofNat 32 (agent * 2 ^ 28 + (w - 0x70000)))
    (BitVec.ofNat 32 (agent * 2 ^ 28 + (w - 0x70000)))
  (s.bump (F.BM_XCOLL_CNT_COUNT b)).raise (58 + 4 * b) (some (0x08, 11 * 2 ^ 28 + w))

/-- One word of a transfer: a write that meets one of port A's has no effect, a read returns the word before the cycle (R414, R415). -/
def State.portBWord (s : State) (b : Nat) (x : PortB) (i : Nat) : State × PortB :=
  let w := xchgBase + 32 * x.line + i
  let old := pget s.blk.portsNow.wrote (bmKey b w)
  if x.wr then
    if old.isSome then ({ s with blk := s.blk.collides b x.agent w }, { x with coll := true })
    else (s.bmStore b w (x.data.extractLsb' (16 * i) 16) none, x)
  else
    let (t, v) := s.bmRead b w 11
    let s : State := { t with blk := { t.blk with ports := s.blk.ports } }
    let v := match old with | some o => some o | none => v
    let d : Line := (v.getD (0 : Half)).setWidth 512
    (s, { x with data := (x.data &&& ~~~((0xFFFF : Line) <<< (16 * i))) ||| (d <<< (16 * i)), bad := x.bad || v.isNone })

/-- Port B of a bay moves four words (R408); a transfer that has moved all 32 ends, and its agent is told (R414). -/
def State.portBOne (s : State) (b : Nat) : State :=
  match s.blk.portBNext b with
  | some x =>
    if s.blk.bmReady b then
      let (t, y) := (List.range 4).foldl (fun (t : State × PortB) i => t.1.portBWord b t.2 (x.done + i)) (s, x)
      let y := { y with done := y.done + 4 }
      let rest := t.blk.xfer.erase (b, x)
      let k := t.blk
      if y.done < 32 then { t with blk := { k with xfer := (b, y) :: rest } }
      else { t with blk := { k with xfer := rest, xdone := k.xdone ++ [(b, y)] } }
    else s
  | none => s

/-- Port B of every bay for `n` cycles, from this one on. -/
def State.portB (s : State) : Nat → State
  | 0 => s
  | n + 1 =>
    let t := (List.range 32).foldl State.portBOne s
    { t with blk := { t.blk with now := t.blk.now + 1 } }.portB n

/-- What port B does in the next `dt` cycles. -/
def State.portBFor (s : State) (dt : Nat) : State :=
  if s.blk.xfer.isEmpty || s.blk.blockHalted then s
  else
    let t := s.portB (min dt (8 * s.blk.xfer.length))
    { t with blk := { t.blk with now := s.blk.now } }

/-! ### Exchange buffers -/

/-- Requester code of the engine slot that serves an owner's ID, or of port B (R423). -/
def Blk.ownerReq (s : Blk) (b kind id : Nat) : Nat :=
  if kind = 1 then (s.rd (F.EA_MAP_off b)).toNat / 2 ^ (4 * (id / 8)) % 16 else 11

/-- A claim or release is refused (R412). -/
def Blk.xbufRefuse (s : Blk) (b n kind id : Nat) : Blk :=
  (s.hwSet (F.BM_STAT_OWNCONF b)).raise (58 + 4 * b) (some (0x0B, s.ownerReq b kind id * 2 ^ 28 + 0x78000 + 0x200 * n))

/-- A claim of a buffer (R412, R421). -/
def Blk.xbufClaim (s : Blk) (b n : Nat) (v : Word) : Blk :=
  let kind := (F.BM_XBUF_OWN_KIND b n).get v
  let id := (F.BM_XBUF_OWN_ID b n).get v
  if s.bit (F.BM_STAT_CLEARING b) then s
  else if s.fld (F.BM_XBUF_OWN_KIND b n) = 0 then (s.setFld (F.BM_XBUF_OWN_KIND b n) kind).setFld (F.BM_XBUF_OWN_ID b n) id
  else s.xbufRefuse b n kind id

/-- A write of BM_XBUF_OWN (R412); KIND 3 is not valid and changes nothing (log 162).  A port-B claim of a free buffer waits for the end of the cycle, so
that an engine-side claim of the cycle takes the buffer (R413). -/
def Blk.wrXbufOwn (s : Blk) (b n : Nat) (v : Word) : Blk :=
  let kind := (F.BM_XBUF_OWN_KIND b n).get v
  let id := (F.BM_XBUF_OWN_ID b n).get v
  let k := s.fld (F.BM_XBUF_OWN_KIND b n)
  if kind = 3 then s
  else if k = 0 then
    if kind = 0 then s else if kind = 2 then s.atDusk (.xclaim b n v) else s.xbufClaim b n v
  else if kind = 0 ∧ id = s.fld (F.BM_XBUF_OWN_ID b n) then s.wr (F.BM_XBUF_OWN_off b n) 0
  else s.xbufRefuse b n (if kind = 0 then k else kind) id

/-! ### Self-test, clearing, power -/

/-- BLK_STAT.CLEARED follows READY of every bay (R529). -/
def Blk.clearedView (s : Blk) : Blk := s.setBit F.BLK_STAT_CLEARED ((List.range 32).all fun b => s.bmReady b)

/-- Self-test of a bay starts; its contents are lost (R419). -/
def State.bistStart (s : State) (b : Nat) : State :=
  let s := s.wipe b
  let k := ((s.blk.set1 (F.BM_CTRL_BIST b)).clr1 (F.BM_STAT_READY b)).clr1 (F.BM_STAT_CLEARING b)
  { s with blk := ({ k with bistAt := pset k.bistAt b k.now, clearAt := pdel k.clearAt b }).clearedView }

/-- Clearing of a bay's memory starts (R421). -/
def State.clearStart (s : State) (b : Nat) : State :=
  let s := s.wipe b
  let k := (s.blk.set1 (F.BM_STAT_CLEARING b)).clr1 (F.BM_STAT_READY b)
  { s with blk := ({ k with clearAt := pset k.clearAt b k.now }).clearedView }

/-- The repair entry `i` of array `a`. -/
def repFld (b a i lo w : Nat) : Fld := ⟨F.BM_REPAIR_off b a, 8 * i + lo, w⟩

/-- Whether a valid entry of an array repairs a column (R418). -/
def Blk.repaired (s : Blk) (b a col : Nat) : Bool :=
  (List.range 4).any fun i => s.bit (repFld b a i 7 1) && s.fld (repFld b a i 0 6) == col

/-- A failing column gets the lowest free spare of its array; the result says whether the array is to be tested again, or
none where no spare is free (R420). -/
def Blk.repair (s : Blk) (b a col : Nat) : Blk × Option Bool :=
  if s.repaired b a col then (s, some false)
  else
    match (List.range 4).find? fun i => !s.bit (repFld b a i 7 1) with
    | some i => ((s.setFld (repFld b a i 0 8) (0xC0 + col)), some true)
    | none => (s, none)

/-- An array keeps a failing column (R420). -/
def Blk.bistFails (s : Blk) (b a : Nat) : Blk :=
  ((s.setFld ⟨F.BM_BIST_RES_off b, a, 1⟩ 1).hwSet (F.BM_STAT_BISTFAIL b)).raise (58 + 4 * b) (some (0x0A, 0))

/-- Self-test ends with the failing columns found: soft entries and another run, or clearing (R419, R420). -/
def State.bistEnd (s : State) (b : Nat) (bad : List (Nat × Nat)) : State :=
  match pget s.blk.bistAt b with
  | none => s
  | some t0 =>
    if s.blk.now < t0 + 614400 then s
    else
      let (k, again) := bad.foldl (fun (x : Blk × Bool) c =>
        match x.1.repair b c.1 c.2 with
        | (k, some r) => (k, x.2 || r)
        | (k, none) => (k.bistFails b c.1, x.2)) (s.blk, false)
      if again then { s with blk := { k with bistAt := pset k.bistAt b k.now } }
      else
        let k := { k.clr1 (F.BM_CTRL_BIST b) with bistAt := pdel k.bistAt b, bistDone := pset k.bistDone b () }
        let k := k.setBit F.BLK_STAT_BISTDONE ((List.range 32).all fun i => (pget k.bistDone i).isSome)
        ({ s with blk := k }).clearStart b

/-- Clearing ends (R421). -/
def State.clearEnd (s : State) (b : Nat) : State :=
  match pget s.blk.clearAt b with
  | none => s
  | some t0 =>
    if s.blk.now < t0 + 61440 then s
    else
      let s := s.wipe b
      let k := { (s.blk.clr1 (F.BM_STAT_CLEARING b)).set1 (F.BM_STAT_READY b) with clearAt := pdel s.blk.clearAt b }
      { s with blk := k.clearedView }

/-- Whether no engine, Sieve unit or Exchange owner uses a bay's memory (R419, R422). -/
def Blk.bmQuiet (s : Blk) (b : Nat) : Bool := !s.bit (F.EA_BAY_CTRL_EN b) && !s.bit (F.SV_UNIT_STAT_BUSY b)

/-- The memory goes OFF, or refuses (R422). -/
def State.bmOff (s : State) (b : Nat) : State :=
  let owned := (List.range 64).any fun n => s.blk.fld (F.BM_XBUF_OWN_KIND b n) != 0
  if s.blk.bmQuiet b && !owned then
    let s := s.wipe b
    let k := (((s.blk.set1 (F.BM_CTRL_OFF b)).set1 (F.BM_STAT_PWROFF b)).clr1 (F.BM_STAT_READY b)).clr1 (F.BM_STAT_CLEARING b)
    let k := { k.clr1 (F.BM_CTRL_BIST b) with bistAt := pdel k.bistAt b, clearAt := pdel k.clearAt b }
    { s with blk := k.clearedView }
  else { s with blk := s.blk.hwSet (F.BM_STAT_OFFREF b) }

/-- A write of BM_CTRL (R419, R422). -/
def State.wrBmCtrl (s : State) (b : Nat) (v : Word) : State :=
  let off := s.blk.bit (F.BM_CTRL_OFF b)
  let s :=
    if (F.BM_CTRL_OFF b).get v = 1 then (if off then s else s.bmOff b)
    else if off then ({ s with blk := (s.blk.clr1 (F.BM_CTRL_OFF b)).clr1 (F.BM_STAT_PWROFF b) }).clearStart b
    else s
  if (F.BM_CTRL_BIST b).get v = 1 && s.blk.bmQuiet b && !s.blk.bit (F.BM_CTRL_OFF b) && !s.blk.bit (F.BM_CTRL_BIST b) then
    s.bistStart b
  else s

/-- A normal-view write of a register that reaches bay memory or the engines, refused as `Blk.gated` says. -/
def State.gatedM (s : State) (req : Req) (off : Nat) (f : State → State) : State :=
  if s.blk.pathClosed req then { s with blk := s.blk.accErr req true 2 off }
  else
    let s := { s with blk := { s.blk.keepOld off with winRsp := some ⟨req, 0, false⟩ } }
    match pageOf off with
    | none => s
    | some p =>
      match p.kind with
      | .segTable | .slotTable | .patchWin => f s
      | .bay | .sieve | .eng =>
        if s.blk.lockedOut req p.base then { s with blk := s.blk.hwSet (F.PAGE_STAT_LOCKREF p.base) }
        else f { s with blk := s.blk.wakeBay p.inst }
      | _ => if s.blk.lockedOut req p.base then { s with blk := s.blk.hwSet (F.PAGE_STAT_LOCKREF p.base) } else f s

end Sys2Proof.Machine
end

