-- ==== Sys2Proof/Machine/Codes.lean ====
section
/-! DEFINITION. The codes of the block over bits: the CRC folds of R313 and R314, with Mint's value (R91) and the table
check (R71) as uses of them, and byte order (R281). -/

namespace Sys2Proof.Machine

/-- A row of R313: width, polynomial, and whether bytes enter bit 7 first. -/
structure CrcPoly where
  w    : Nat
  poly : BitVec 32
  msb  : Bool
  deriving DecidableEq, Repr

/-- The eight polynomials of R313. -/
def crcPoly (p : Nat) : CrcPoly :=
  match p with
  | 0 => ⟨24, 0x864CFB, true⟩
  | 1 => ⟨32, 0x1EDC6F41, false⟩
  | 2 => ⟨32, 0x04C11DB7, false⟩
  | 3 => ⟨16, 0x1021, true⟩
  | 4 => ⟨16, 0x8005, false⟩
  | 5 => ⟨8, 0x07, true⟩
  | 6 => ⟨8, 0x1D, true⟩
  | _ => ⟨32, 0x741B8CD7, false⟩

/-- The lowest `w` bits in reverse order (R314, reverse_W). -/
def reverseLow (w : Nat) (x : BitVec 32) : BitVec 32 :=
  (List.range w).foldl (fun a i => if x.getLsbD i then a ||| (1#32 <<< (w - 1 - i)) else a) 0

/-- The mask of a state of width `w`. -/
def crcMask (w : Nat) : BitVec 32 := BitVec.ofNat 32 (2 ^ w - 1)

/-- One bit of a fold, most significant first (R314). -/
def crcBitMsb (c : CrcPoly) (st : BitVec 32) (d : Bool) : BitVec 32 :=
  let fb := st.getLsbD (c.w - 1) != d
  let st := (st <<< 1) &&& crcMask c.w
  if fb then st ^^^ c.poly else st

/-- One bit of a fold, reflected (R314). -/
def crcBitLsb (c : CrcPoly) (st : BitVec 32) (d : Bool) : BitVec 32 :=
  let fb := st.getLsbD 0 != d
  let st := st >>> 1
  if fb then st ^^^ reverseLow c.w c.poly else st

/-- The fold of one byte into a state (R314). -/
def crcByte (c : CrcPoly) (st : BitVec 32) (d : Byte) : BitVec 32 :=
  let st := st &&& crcMask c.w
  if c.msb then [7, 6, 5, 4, 3, 2, 1, 0].foldl (fun a i => crcBitMsb c a (d.getLsbD i)) st
  else [0, 1, 2, 3, 4, 5, 6, 7].foldl (fun a i => crcBitLsb c a (d.getLsbD i)) st

/-- The fold of bytes in order. -/
def crcBytes (c : CrcPoly) (st : BitVec 32) (ds : List Byte) : BitVec 32 := ds.foldl (crcByte c) st

/-- The `n` bytes of a value, lowest byte first. -/
def bytesLE {w : Nat} (n : Nat) (x : BitVec w) : List Byte := (List.range n).map fun i => (x >>> (8 * i)).setWidth 8

/-- The `n` bytes of a value, highest byte first. -/
def bytesBE {w : Nat} (n : Nat) (x : BitVec w) : List Byte :=
  (List.range n).map fun i => (x >>> (8 * (n - 1 - i))).setWidth 8

/-- CRC-32C of bytes with initial value and final exclusive or all ones (R71). -/
def crc32c (ds : List Byte) : BitVec 32 := crcBytes (crcPoly 1) 0xFFFFFFFF ds ^^^ 0xFFFFFFFF

end Sys2Proof.Machine
end

