-- ==== Sys2Proof/Machine/Store.lean ====
section
/-! DEFINITION. The control store: its codes (R229 to R231), and the fetch of a microword from ROM or patch RAM with the match registers (R226 to
R228, R255, R256, R263). -/

namespace Sys2Proof.Machine

/-! ### Microword code -/

/-- The columns of MECC (R230): the integers 3 to 255 that are not powers of two, ascending. -/
def meccCols : List Nat := (List.range 256).filter fun n => decide (3 ≤ n) && !([4, 8, 16, 32, 64, 128].contains n)

/-- The MECC of the function bits of a microword (R230). -/
def mecc (w : BitVec 160) : Byte :=
  (meccCols.take 152).zipIdx.foldl (fun a c => if w.getLsbD c.2 then a ^^^ BitVec.ofNat 8 c.1 else a) 0

/-- The syndrome of a stored microword (R230). -/
def meccSyndrome (w : BitVec 160) : Byte := w.extractLsb' 152 8 ^^^ mecc w

/-- Whether a number of 1 bits is odd. -/
def oddOnes {w : Nat} (x : BitVec w) : Bool := (List.range w).foldl (fun a i => a != x.getLsbD i) false

/-- The stored word of a microword: its word parity above it (R229). -/
def storedWord (w : BitVec 160) : BitVec 161 := (BitVec.ofBool (oddOnes w)) ++ w

/-- What stage F makes of a fetched word (R231): the microword and whether it was corrected, or none for a detected error. -/
def meccCheck (x : BitVec 161) : Option (BitVec 160 × Bool) :=
  let w : BitVec 160 := x.setWidth 160
  let syn := (meccSyndrome w).toNat
  let odd := oddOnes x
  if syn = 0 then some (w, odd)
  else if !odd then none
  else
    match (List.range 8).find? fun i => 2 ^ i == syn with
    | some i => some (w ^^^ (1#160 <<< (152 + i)), true)
    | none =>
      match (meccCols.take 152).idxOf? syn with
      | some j => some (w ^^^ (1#160 <<< j), true)
      | none => none


/-! ### Fetch -/

/-- What a fetch delivers (R226, R231, R255). -/
inductive UFetch where
  /-- a word of the control store, with the patch-RAM word it comes from, and the cycles the fetch adds -/
  | word (x : BitVec 161) (patch : Option Nat) (more : Nat)
  | trap (code : Nat)
  deriving DecidableEq, Repr

/-- A fetch from a word of the patch RAM (R228, R263). -/
def Blk.patchFetch (s : Blk) (b i more : Nat) : UFetch :=
  if (pget s.patchBad (1024 * b + i)).isSome then .trap 8
  else match pget s.patchRam i with
    | some w => .word (storedWord w) (some i) more
    | none => .trap 5

/-- A match register as a fetch in cycle `c` sees it (R256). -/
def Blk.matchWord (s : Blk) (off c : Nat) : Word :=
  match s.matchOld.find? fun x => x.1 == off && decide (c ≤ x.2.1) with
  | some x => x.2.2
  | none => s.rd off
/-- A field of it. -/
def Blk.matchFld (s : Blk) (f : Fld) (c : Nat) : Nat := f.get (s.matchWord f.off c)
/-- A match register takes a word; the fetches up to cycle `last` see the one before (R256). -/
def Blk.setMatch (s : Blk) (off : Nat) (v : Word) (last : Nat) : Blk :=
  { s.wr off v with matchOld := (s.matchOld.filter fun x => decide (s.now ≤ x.2.1 + 2)) ++ [(off, last, s.rd off)] }

/-- The fetch of microaddress `ua` by an engine, in the cycle before the word executes (R199, log 164); `mark` when a breakpoint has stopped this
fetch before (R255, R509). -/
def Blk.ufetch (s : Blk) (e : Nat) (ua : Nat) (rom : BitVec 161) (mark : Bool) : UFetch :=
  let b := e / 8
  let c := s.now - 1
  if 0x2400 ≤ ua then .trap 4
  else if 0x2000 ≤ ua then s.patchFetch b (ua - 0x2000) 0
  else
    let hit := (List.range 64).find? fun n =>
      s.matchFld (F.CS_MATCH_ADDR_EN b n) c == 1 && (s.matchFld (F.CS_MATCH_ADDR_ENGMASK b n) c).testBit (e % 8) &&
      s.matchFld (F.CS_MATCH_ADDR_ROMADDR b n) c == ua
    match (if mark then none else hit) with
    | some n => if s.matchFld (F.CS_MATCH_ADDR_KIND b n) c == 1 then .trap 6 else s.patchFetch b (s.matchFld (F.CS_MATCH_TGT_TARGET b n) c) 1
    | none => .word rom none 0

/-- The word of the ROM at a microaddress: once fetched it is the same in every ROM (R228); before, the one given. -/
def Blk.romWord (s : Blk) (ua : Nat) (given : BitVec 161) : BitVec 161 := (pget s.rom ua).getD given
/-- The ROM has delivered a word. -/
def Blk.romSeen (s : Blk) (ua : Nat) (x : BitVec 161) : Blk := if (pget s.rom ua).isSome then s else { s with rom := pset s.rom ua x }

end Sys2Proof.Machine
end

