-- ==== Sys2Proof/Machine/Engine.lean ====
section
/-! DEFINITION. Contexts and engines (06): selection (R201), watchdog conditions (R441), results of long operations (R203), retry
(R212 to R214), moves to the spare (R216 to R222), and entries, faults and third faults (10). -/

namespace Sys2Proof.Machine

/-! ### Contexts and their places -/

/-- The number of a context: 8 × logical engine + context. -/
def ctxKey (c : CtxRef) : Nat := 8 * c.eng.val + c.ctx.val

/-- The context with a number. -/
def Blk.ctx (s : Blk) (k : Nat) : Ctx := tget (fun _ => Ctx.reset) s.ctxs k
/-- The logical engine with a number. -/
def Blk.eng (s : Blk) (e : Nat) : Eng := tget (fun _ => Eng.reset) s.engs e
/-- A logical engine takes a content. -/
def Blk.setEng (s : Blk) (e : Nat) (x : Eng) : Blk := { s with engs := tset (fun _ => Eng.reset) s.engs e x }

/-- The logical engine that runs on slot `x` of bay `b`. -/
def Blk.onSlot (s : Blk) (b x : Nat) : Option Nat := ((List.range 8).map fun k => 8 * b + k).find? fun e => s.slotOf e == x

/-- The state of slot `x` (R216), and its change. -/
def slotFld (b x : Nat) : Fld := ⟨F.EA_SLOT_STAT_off b, 3 * x, 3⟩

/-- Whether logical engine `e` executes: its bay fetches (R223) with its clocks running (R437), its slot is ACTIVE and it is in no halted domain or
a STEP runs a context of it (R508). -/
def Blk.executes (s : Blk) (e : Nat) : Bool :=
  s.bit (F.EA_BAY_CTRL_EN (e / 8)) && s.fld (slotFld (e / 8) (s.slotOf e)) == 0 && (!s.halted e || s.stepsEngine e) &&
  !s.rbit F.EV_BAYSTOP_off (e / 8)

/-- ERR_INFO of an event about slot `x` and context `k`, and of one about a context where it runs (R225). -/
def slotInfo (x k : Nat) : Nat := x * 2 ^ 24 + (k % 8) * 2 ^ 16 + k / 8
@[inherit_doc slotInfo] def Blk.eaInfo (s : Blk) (k : Nat) : Nat := slotInfo (s.slotOf (k / 8)) k

/-- Event 58 + 4b of a context (R225, R351). -/
def Blk.eaEvt (s : Blk) (k code : Nat) : Blk := s.raise (58 + 4 * (k / 64)) (some (code, s.eaInfo k))

/-- The contexts of logical engine `e`, in order. -/
def engCtxs (e : Nat) : List Nat := (List.range 8).map fun c => 8 * e + c

/-! ### Watchdog conditions and state changes -/

/-- Reload of the context and the engine watchdogs (R441). -/
def Blk.ctxReload (s : Blk) : Nat := s.fld F.EV_WD_CFG_CLIM * 256
@[inherit_doc Blk.ctxReload] def Blk.engReload (s : Blk) : Nat := s.fld F.EV_WD_CFG_ELIM * 256

/-- Whether a context's watchdog counts (R441). -/
def CtxSt.watched : CtxSt → Bool
  | .ready | .run | .wait => true
  | _ => false

/-- The state that a context's watchdog and its stopped bay see: a frozen one's is the state it returns to (R218). -/
def Ctx.seen (c : Ctx) : CtxSt := if c.st = .frozen then c.base else c.st

/-- The watchdog of a slot. -/
def Blk.engWdOf (s : Blk) (b x : Nat) : Wd := tget (fun _ => ⟨64 * 256, 0, false⟩) s.engWd (9 * b + x)

/-- A slot's watchdog counts while some context of its engine is READY or RUN (R441). -/
def Blk.engWatch (s : Blk) (e : Nat) : Blk :=
  let b := e / 8
  let x := s.slotOf e
  let run := s.engReload != 0 && !s.stepsEngine e && (engCtxs e).any fun k => (s.ctx k).seen == .ready || (s.ctx k).seen == .run
  { s with engWd := pset s.engWd (9 * b + x) ((s.engWdOf b x).gate s.now run) }

/-- The supervisor's idle flag clears when another context of its engine becomes READY (R436). -/
def Blk.unidle (s : Blk) (k : Nat) (st : CtxSt) : Blk :=
  let b := k / 64
  if st = .ready ∧ k ≠ s.supervisor b ∧ k / 8 = s.supervisor b / 8 then { s with idle := pdel s.idle b } else s

/-- A context that R437 counts as quiet. -/
def Blk.quietCtx (s : Blk) (k : Nat) : Bool :=
  match (s.ctx k).st with
  | .idle | .stopped | .frozen => true
  | _ => k == s.supervisor (k / 64) && (pget s.idle (k / 64)).isSome

/-- A context takes a content, its watchdog counting as its state says. -/
def Blk.setCtx (s : Blk) (k : Nat) (c : Ctx) : Blk :=
  let c := { c with wd := c.wd.gate s.now (c.seen.watched && s.ctxReload != 0 && !s.stepsEngine (k / 8)) }
  let s := if s.quietCtx k then s else s.stir (k / 64)
  let s := s.unidle k c.st
  ({ s with ctxs := tset (fun _ => Ctx.reset) s.ctxs k c }).engWatch (k / 8)

/-- A context changes by a function. -/
def Blk.onCtx (s : Blk) (k : Nat) (f : Ctx → Ctx) : Blk := s.setCtx k (f (s.ctx k))

/-! ### Selection -/

/-- The context of an engine in RUN. -/
def Blk.running (s : Blk) (e : Nat) : Option Nat := (engCtxs e).find? fun k => (s.ctx k).st == .run
/-- The context of an engine that holds LOCK. -/
def Blk.locked (s : Blk) (e : Nat) : Option Nat := (engCtxs e).find? fun k => (s.ctx k).lock

/-- An engine that turns to another context: its first microword is fetched in the next cycle and executes in the one after (R201). -/
def Blk.turnTo (s : Blk) (e : Nat) : Blk :=
  let x := s.eng e
  s.setEng e { x with free := max (x.free + 1) (s.now + 2) }

/-- Stage E of an engine is occupied `n` cycles more. -/
def Blk.spendE (s : Blk) (e n : Nat) : Blk :=
  let x := s.eng e
  s.setEng e { x with free := max x.free s.now + n }

/-- An engine executes microwords for `n` cycles: stage E is occupied, and its bay's consumer pays (R475, R477). -/
def Blk.work (s : Blk) (e n : Nat) : Blk := (s.spendE e n).spend (8 + e / 8) n

/-- Whether the power gate of its bay keeps a context from running (R477). -/
def Blk.unpowered (s : Blk) (k : Nat) : Bool :=
  ((s.ctx k).wclass == 2 || (s.ctx k).wclass == 3) && !s.gateOpen (8 + k / 64)

/-- An engine without a context in RUN selects the next READY one; while one holds LOCK, only that one (R201, R323, R477). -/
def Blk.select (s : Blk) (e : Nat) : Blk :=
  if (s.running e).isSome || !s.executes e then s
  else
    let order := (List.range 8).map fun i => 8 * e + ((s.eng e).last + 1 + i) % 8
    let may := match s.locked e with | some k => [k] | none => order
    match may.find? fun k => (s.ctx k).st == .ready && !s.unpowered k with
    | some k => (s.onCtx k fun c => { c with st := .run }).turnTo e
    | none => s

/-- A context leaves RUN, or another state, for `st`, and its engine selects (R198, R201). -/
def Blk.leave (s : Blk) (k : Nat) (st : CtxSt) (w : Option WaitFor) : Blk :=
  let s := if (s.ctx k).st = .run then s.setEng (k / 8) { s.eng (k / 8) with last := k % 8 } else s
  (s.onCtx k fun c => { c with st := st, waitFor := w }).select (k / 8)

/-- A context enters STOPPED with a cause (R198), and the requests of its work fail (R30). -/
def Blk.stopCtx (s : Blk) (k cause : Nat) : Blk :=
  ({ s with lost := if s.lost.contains k then s.lost else k :: s.lost }.onCtx k fun c => { c with cause := BitVec.ofNat 8 cause, lock := false, resv := none, lockLen := 0 }).leave k .stopped none

/-! ### Registers and pending results -/

/-- The place of Gn in the bank in use (R197). -/
def Ctx.gi (c : Ctx) (n : Nat) : Nat := n % 32 + (if c.sw.getLsbD 12 then 32 else 0)
/-- The value of Gn. -/
def Ctx.gr (c : Ctx) (n : Nat) : Half := tget (fun _ => 0) c.g (c.gi n)
/-- T`j` of a context (07). -/
def Ctx.tr (c : Ctx) (j : Nat) : Word := tget (fun _ => 0) c.u.t j
/-- T`j` takes a value. -/
def Ctx.setT (c : Ctx) (j : Nat) (v : Word) : Ctx := { c with u := { c.u with t := tset (fun _ => 0) c.u.t j v } }

/-- A place of the microdatapath takes a half word (R243): T0 to T3 as upper and lower half from 64, the upper half of ACC with its guard bits
at 72 and its lower half at 73, the flags of SW at 74. -/
def Ctx.uset (c : Ctx) (i : Nat) (v : Half) : Ctx :=
  if i < 72 then
    let j := (i - 64) / 2
    c.setT j (if i % 2 = 0 then v ++ (c.tr j).setWidth 16 else (c.tr j).extractLsb' 16 16 ++ v)
  else if i = 72 then { c with u := { c.u with acc := (v.signExtend 24) ++ c.u.acc.setWidth 16 } }
  else if i = 73 then { c with u := { c.u with acc := c.u.acc.extractLsb' 16 24 ++ v } }
  else { c with sw := (c.sw &&& 0xFFF0) ||| (v &&& 0xF) }

/-- A register place takes a value; its stored error is gone. -/
def Ctx.gset (c : Ctx) (i : Nat) (v : Half) : Ctx :=
  if i < 64 then { c with g := tset (fun _ => 0) c.g i v, gErr := pdel c.gErr i } else c.uset i v
/-- Gn takes a value. -/
def Ctx.gw (c : Ctx) (n : Nat) (v : Half) : Ctx := c.gset (c.gi n) v
/-- A system register held in `sys` (R273). -/
def Ctx.sr (c : Ctx) (n : Nat) : Half := tget (fun _ => 0) c.sys n
/-- A system register held in `sys` takes a value. -/
def Ctx.setSr (c : Ctx) (n : Nat) (v : Half) : Ctx := { c with sys := tset (fun _ => 0) c.sys n v }
/-- SW.PRIV (R271). -/
def Ctx.priv (c : Ctx) : Nat := c.sw.toNat / 2 ^ 13 % 4
/-- Open nesting mode (R330): CEIL P and WCLASS B or Q, owner codes 2 and 3 of R61. -/
def Ctx.isOpen (c : Ctx) : Bool := c.ceil == 0 && (c.wclass == 2 || c.wclass == 3)

/-- Whether a register place awaits the result of a long operation or of a retired load (R202, R206). -/
def Blk.pendingReg (s : Blk) (k i : Nat) : Bool :=
  (s.cops.any fun x => x.2.ctx == k && x.2.dst.contains i) ||
  s.pools.any fun x => x.2.ctx == k && x.2.load && x.2.retired && x.2.dst.contains i

/-- Entries of the coprocessor port, and of the data mover's queue, that an engine holds (R203). -/
def Blk.portUse (s : Blk) (e : Nat) : Nat := (s.cops.filter fun x => x.2.ctx / 8 == e).length
@[inherit_doc Blk.portUse] def Blk.moverUse (s : Blk) (e : Nat) : Nat := (s.dms.filter fun x => x.2.ctx / 8 == e).length

/-- Whether what a context waits for has come (R200). -/
def Blk.arrived (s : Blk) (k : Nat) : WaitFor → Bool
  | .reg i => !s.pendingReg k i
  | .port => decide (s.portUse (k / 8) < 4)
  | .queue => decide (s.moverUse (k / 8) < 8)
  | .tag t => (pget (s.ctx k).tags t).isNone
  | .grant c => decide (c < s.now) && s.bmReady (k / 64)
  | .pool => false

/-- A context in WAIT whose wait is over becomes READY (R200); held from the state it returns to where it is halted or frozen. -/
def Blk.wakeCtx (s : Blk) (k : Nat) : Blk :=
  let c := s.ctx k
  match c.waitFor with
  | some w =>
    if s.arrived k w then
      match c.st with
      | .wait => s.leave k .ready none
      | .halt => s.onCtx k fun c => { c with under := .ready, waitFor := none }
      | .frozen => s.onCtx k fun c =>
          if c.base = .halt then { c with under := .ready, waitFor := none }
          else { c with base := if c.base = .wait then .ready else c.base, waitFor := none }
      | _ => s.onCtx k fun c => { c with waitFor := none }
    else s
  | none => s

/-- The contexts of an engine look again at what they wait for. -/
def Blk.wakeEng (s : Blk) (e : Nat) : Blk := ((engCtxs e).foldl (fun s k => s.wakeCtx k) s).select e

/-- Contexts that bay memory did not serve ask again, each cycle (R409). -/
def Blk.grantsDue (s : Blk) : Blk :=
  (s.ctxs.filter fun x => match x.2.waitFor with | some (.grant _) => true | _ => false).foldl (fun s x => s.wakeCtx x.1) s

/-- Words of a value, most significant first. -/
def valWords (v : BitVec 64) (n : Nat) : List Half := (List.range n).map fun i => v.extractLsb' (16 * (n - 1 - i)) 16

/-- Register places take the words of a value. -/
def Ctx.gsets (c : Ctx) (dst : List Nat) (v : BitVec 64) : Ctx :=
  (dst.zip (valWords v dst.length)).foldl (fun c x => c.gset x.1 x.2) c

/-- CPF takes the flags of a result: ORed into the sticky bits, and the last result's (R275). -/
def cpfResult (cpf : Half) (fl : BitVec 5) : Half :=
  (cpf &&& 0xFFE0) ||| (fl.setWidth 16 <<< 11) ||| fl.setWidth 16

/-- A coprocessor operation writes its result and flags (R388, R391); its registers are free and its entry is empty. -/
def Blk.copWrite (s : Blk) (n : Nat) (op : CopOp) (v : BitVec 64) (fl : BitVec 5) (cpf intV par : Bool) : Blk :=
  let s := { s with cops := pdel s.cops n }.stir (op.ctx / 64)
  let s := s.onCtx op.ctx fun c =>
    let c := c.gsets op.dst v
    let c := if par then { c with parErr := op.dst.foldl (fun m i => pset m i ()) c.parErr } else c
    let c := if cpf then
        { c.setSr 0x18 (cpfResult (c.sr 0x18) fl) with cpfHw := (s.now, fl ||| if c.cpfHw.1 = s.now then c.cpfHw.2 else 0) } else c
    { c with cpl := fl, intV := intV }
  s.wakeEng (op.ctx / 8)

/-- Results held for a context are written (R196, R507). -/
def Blk.copFlush (s : Blk) (k : Nat) : Blk :=
  s.cops.foldl (fun s x =>
    match x.2.held with
    | some (v, fl, cpf, iv, par) => if x.2.ctx = k then s.copWrite x.1 x.2 v fl cpf iv par else s
    | none => s) s

/-! ### Retirement -/

/-- An instruction that microwords run is abandoned: its context is at its start again (R210, R213, R237). -/
def Ctx.home (c : Ctx) : Ctx :=
  match c.u.start with
  | some p => { c with cb := p.cb, pc := p.pc, u := { c.u with pc := p.ua, stack := [], start := none, issued := false } }
  | none => c

/-- An instruction that microwords run ends where it stands: its context goes on with the next one, which the same word fetches (R206). -/
def Ctx.ended (c : Ctx) : Ctx :=
  match c.u.start with
  | some p => { c with u := { c.u with pc := p.ua, stack := [], start := none, issued := false } }
  | none => { c with u := { c.u with issued := false } }

/-- The CB and PC of the current instruction. -/
def Ctx.place (c : Ctx) : Byte × Half := (c.u.start.map fun p => (p.cb, p.pc)).getD (c.cb, c.pc)

/-- The attempt count of the current instruction is kept while its context does other work (R214). -/
def Ctx.keep (c : Ctx) : Ctx :=
  if c.attempt = 0 then c
  else { c with attempt := 0, kept := (c.cb, c.pc, c.attempt) :: c.kept.filter fun x => !(x.1 == c.cb && x.2.1 == c.pc) }

/-- A context comes back to an instruction that it had abandoned, with its attempt count (R211, R214). -/
def Ctx.recall (c : Ctx) : Ctx :=
  match c.kept.find? fun x => x.1 == c.cb && x.2.1 == c.pc with
  | some x => { c with attempt := x.2.2, kept := c.kept.erase x }
  | none => c

/-- LOCK is released and the reservation cleared (R325, R327). -/
def Ctx.unlock (c : Ctx) : Ctx := { c with lock := false, resv := none, lockLen := 0 }

/-- One more instruction of a locked sequence has completed; the 16th releases LOCK (R324). -/
def Ctx.countLock (c : Ctx) : Ctx :=
  if c.lock then
    if c.lockLen + 1 < 16 then { c with lockLen := c.lockLen + 1 } else { c.unlock with lockOut := true }
  else c

/-- A context after the retirement of its instruction at {`cb0`, `pc0`}: the lock counts, the attempt count clears (R213), TRIPLED clears with
the checkpoint instruction (R339). -/
def Ctx.retired (c : Ctx) (cb0 : Byte) (pc0 : Half) : Ctx :=
  { c.countLock with
    attempt := 0, u := { c.u with start := none, issued := false },
    tripled := c.tripled && !(match c.ckpt with | some p => p.pc == pc0 && p.cb == cb0 | none => false) }

/-- A successful retry counts (R214). -/
def Blk.retryCount (s : Blk) (k : Nat) : Blk := if (s.ctx k).attempt = 0 then s else s.bump (F.EA_RETRY_CNT_COUNT (k / 64))

/-- The watchdog of an engine reloads (R441). -/
def Blk.engKick (s : Blk) (e : Nat) : Blk :=
  let b := e / 8
  let x := s.slotOf e
  { s with engWd := pset s.engWd (9 * b + x) ((s.engWdOf b x).reload s.now s.engReload) }

/-- The supervisor's idle flag clears with an instruction that is not idle (R436). -/
def Blk.busy (s : Blk) (k : Nat) (keepsIdle : Bool) : Blk :=
  if k = s.supervisor (k / 64) ∧ !keepsIdle then { s with idle := pdel s.idle (k / 64) } else s

/-- The instruction at {`cb0`, `pc0`} of a context retires after `n` cycles of stage E; watchdogs reload (R441). -/
def Blk.retire (s : Blk) (k n : Nat) (keepsIdle : Bool) (cb0 : Byte) (pc0 : Half) : Blk :=
  let s := s.retryCount k
  let s := s.onCtx k fun c => { c.retired cb0 pc0 with wd := c.wd.reload s.now s.ctxReload }
  ((s.engKick (k / 8)).busy k keepsIdle).work (k / 8) n

/-! ### Moves -/

/-- The contexts of an engine enter FROZEN (R217). -/
def Blk.freezeEng (s : Blk) (e : Nat) : Blk :=
  (engCtxs e).foldl (fun s k =>
    let c := s.ctx k
    if c.st = .frozen then s else s.setCtx k { c with base := c.st, st := .frozen }) s

/-- The lowest-numbered slot in SPARE (R216). -/
def Blk.spare (s : Blk) (b : Nat) : Option Nat := (List.range 9).find? fun x => s.fld (slotFld b x) == 1

/-- The source of a move that cannot take place is FAILED (R219, R220); `k` is the context that failed, context 0 otherwise. -/
def Blk.moveFails (s : Blk) (b x k code : Nat) : Blk :=
  ((s.setFld (slotFld b x) 5).freezeEng (k / 8)).raise (58 + 4 * b) (some (code, slotInfo x k))

/-- A move starts with a named receiver (R217). -/
def Blk.moveTo (s : Blk) (b x dst k : Nat) (kind : MoveKind) : Blk :=
  let s := ((s.setFld (slotFld b x) 2).setFld (slotFld b dst) 3).freezeEng (k / 8)
  { s with moves := pset s.moves b ⟨x, dst, k / 8 % 8, k % 8, kind, s.now, false⟩ }

/-- A move of the engine of context `k` from slot `x` is due (R216, R220). -/
def Blk.moveDue (s : Blk) (b x k : Nat) (kind : MoveKind) : Blk :=
  if (pget s.moves b).isSome then { s.freezeEng (k / 8) with moveQ := s.moveQ ++ [(b, x, k, kind)] }
  else
    match s.spare b with
    | some dst => s.moveTo b x dst k kind
    | none => s.moveFails b x k 0x01

/-- The moves that wait in a bay are taken up in turn, until one starts (R220). -/
def Blk.moveNext (s : Blk) (b : Nat) : Blk :=
  (s.moveQ.filter fun q => q.1 == b).foldl (fun s q =>
    if (pget s.moves b).isSome then s else { s with moveQ := s.moveQ.erase q }.moveDue b q.2.1 q.2.2.1 q.2.2.2) s

/-- Field `k` of EA_MAP and EA_MAP_NEXT takes the slot that EA_SUB shows, and EA_SUB clears (R221). -/
def Blk.subCommit (s : Blk) (b : Nat) : Blk :=
  if s.bit (F.EA_SUB_VALID b) then
    let k := s.fld (F.EA_SUB_LOG b)
    let x := s.fld (F.EA_SUB_SLOT b)
    ((s.setFld ⟨F.EA_MAP_off b, 4 * k, 4⟩ x).setFld ⟨F.EA_MAP_NEXT_off b, 4 * k, 4⟩ x).wr (F.EA_SUB_off b) 0
  else s

/-- The commit at a frame boundary strictly after the cycle in which EA_SUB was set (R6, R221). -/
def Blk.subFrame (s : Blk) (b : Nat) : Blk := if pget s.asked (2 * b + 1) = some s.tb.bndAt then s else s.subCommit b

/-- The contexts of the logical engine in a move. -/
def Move.ctxs (m : Move) (b : Nat) : List Nat := engCtxs (8 * b + m.log)

/-- A move has reached +2273: EA_SUB shows the receiver, and the held items are released to it (R196, R217, R221). -/
def Blk.moveSub (s : Blk) (b : Nat) : Blk :=
  match pget s.moves b with
  | some m =>
    if m.sub ∨ s.now < m.at_ + 2273 then s
    else
      let s := { s with moves := pset s.moves b { m with sub := true } }
      let s := if m.kind = .swap then s
        else
          let t := (((s.subCommit b).set1 (F.EA_SUB_VALID b)).setFld (F.EA_SUB_SLOT b) m.dst).setFld (F.EA_SUB_LOG b) m.log
          { t with asked := pset t.asked (2 * b + 1) (m.at_ + 2273) }
      (m.ctxs b).foldl Blk.copFlush s
  | none => s

/-- Every move that has reached +2273. -/
def Blk.movesDue (s : Blk) : Blk := s.moves.foldl (fun s x => s.moveSub x.1) s

/-- A context resumes from FROZEN with its attempt count cleared; the copy has corrected the registers with single-bit errors (R217). -/
def Blk.thaw (s : Blk) (k : Nat) : Blk :=
  let s := s.copFlush k
  s.onCtx k fun c => { c with st := c.base, attempt := 0, gErr := c.gErr.filter fun x => x.2 == .double }

/-- A move ends well at +2274: slot states, the contexts on their receiver, those with an uncorrectable register STOPPED (R215, R217, R219). -/
def Blk.moveDone (s : Blk) (b : Nat) (m : Move) (bad : List (Fin 8)) : Blk :=
  let e := 8 * b + m.log
  let s := { s.moveSub b with moves := pdel s.moves b }.stir b
  let s := (s.setFld (slotFld b m.src) (if m.kind = .swap then 1 else 4)).setFld (slotFld b m.dst) 0
  let s := (engCtxs e).foldl Blk.thaw s
  let s := ((engCtxs e).filter fun k => bad.any (fun c => c.val == k % 8) || (s.ctx k).gErr.any fun x => x.2 == .double).foldl
    (fun s k => (s.stopCtx k 0x80).eaEvt k 0x03) s
  let s := s.bump (F.EA_SPARE_CNT_COUNT b)
  let code := match m.kind with | .failure => 0x10 | .retire => 0x11 | .swap => 0x12
  let s := s.raise (60 + 4 * b) (some (code, slotInfo m.dst (8 * e + m.ctx)))
  (s.wakeEng e).moveNext b

/-- The receiver's control-store check fails: another spare, or FAILED (R219). -/
def Blk.moveBad (s : Blk) (b : Nat) (m : Move) : Blk :=
  let s := s.setFld (slotFld b m.dst) 4
  match s.spare b with
  | some x =>
    let s := s.setFld (slotFld b x) 3
    { s with moves := pset s.moves b { m with dst := x, at_ := s.now - 33 } }
  | none =>
    let s := { s with moves := pdel s.moves b }.stir b
    (s.moveFails b m.src (8 * (8 * b + m.log) + m.ctx) 0x02).moveNext b

/-- A running move reaches its end, or an error in its receiver's check, which lasts to +2080 (R217, R219). -/
def Blk.moveEnd (s : Blk) (b : Nat) (bad : Bool) (regs : List (Fin 8)) : Blk :=
  match pget s.moves b with
  | none => s
  | some m =>
    if bad && decide (s.now ≤ m.at_ + 2080) then (if m.at_ + 33 ≤ s.now then s.moveBad b m else s)
    else if m.at_ + 2274 ≤ s.now then s.moveDone b m regs else s

/-- RETIRE of a slot: ignored unless ACTIVE with an engine on it (R216, R224). -/
def Blk.retireSlot (s : Blk) (b x : Nat) : Blk :=
  if s.fld (slotFld b x) = 0 then
    match s.onSlot b x with
    | some e => s.moveDue b x (8 * e) .retire
    | none => s
  else s

/-- The fields of a map (R195). -/
def mapFields (w : Word) : List Nat := (List.range 8).map fun k => w.toNat / 16 ^ k % 16

/-- A swap is refused; ERR_INFO names the first field that differs (R222, R225, log 163). -/
def Blk.swapRefuse (s : Blk) (b k : Nat) : Blk :=
  let x := (mapFields (s.rd (F.EA_MAP_off b))).getD k 0
  ((s.hwSet (F.EA_SWAP_REFUSED b)).wr (F.EA_MAP_NEXT_off b) (s.rd (F.EA_MAP_off b))).raise (60 + 4 * b)
    (some (0x13, slotInfo x (8 * (8 * b + k))))

/-- The planned swap of a bay at a frame boundary strictly after its request (R6, R222). -/
def Blk.swapStep (s : Blk) (b : Nat) : Blk :=
  if s.bit (F.EA_SWAP_PEND b) && pget s.asked (2 * b) != some s.tb.bndAt then
    let s := (s.clr1 (F.EA_SWAP_PEND b)).clr1 (F.EA_SWAP_ARM b)
    let old := mapFields (s.rd (F.EA_MAP_off b))
    let new := mapFields (s.rd (F.EA_MAP_NEXT_off b))
    let diff := (List.range 8).filter fun k => old.getD k 0 != new.getD k 0
    let dup := (List.range 8).any fun i => (List.range i).any fun j => new.getD i 0 == new.getD j 0
    if new.any (fun x => decide (8 < x)) || dup || (pget s.moves b).isSome then s.swapRefuse b (diff.headD 0)
    else
      match diff with
      | [] => s
      | [k] =>
        let x := old.getD k 0
        let dst := new.getD k 0
        if s.fld (slotFld b dst) = 1 ∧ s.fld (slotFld b x) = 0 then
          (s.wr (F.EA_MAP_off b) (s.rd (F.EA_MAP_NEXT_off b))).moveTo b x dst (8 * (8 * b + k)) .swap
        else s.swapRefuse b k
      | k :: _ => s.swapRefuse b k
  else s

/-! ### Retry -/

/-- A detected error of a context's instruction: a restart, or a move at count 2 (R213, R214). -/
def Blk.detected (s : Blk) (k : Nat) : Blk :=
  let s := s.onCtx k Ctx.home
  if (s.ctx k).attempt = 2 then s.moveDue (k / 64) (s.slotOf (k / 8)) k .failure
  else (s.onCtx k fun c => { c with attempt := c.attempt + 1, u := { c.u with stack := [] } }).spendE (k / 8) 4

/-- An uncorrectable register or memory word stops the context (R215, R417). -/
def Blk.regUe (s : Blk) (k : Nat) : Blk := (s.stopCtx k 0x80).eaEvt k 0x03

/-! ### Stacks -/

/-- The stack registers of a level: SPB, SP, SPL, SPH (R273). -/
def stkReg (lvl i : Nat) : Nat := 0x08 + 4 * lvl + i

/-- Whether the stack of a level is valid (R288). -/
def Ctx.stackValid (c : Ctx) (lvl : Nat) : Bool :=
  let b := (c.sr (stkReg lvl 0)).toNat
  let sp := (c.sr (stkReg lvl 1)).toNat
  let l := (c.sr (stkReg lvl 2)).toNat
  let h := (c.sr (stkReg lvl 3)).toNat
  (decide (b ≤ 6) || (b == 7 && decide (l < 0x8000) && decide (sp < 0x8000) && decide (h < 0x8000))) &&
  decide (l ≤ sp) && decide (sp ≤ h)

/-- Whether a push of `n` words has room (R288). -/
def Ctx.pushRoom (c : Ctx) (lvl n : Nat) : Bool :=
  decide ((c.sr (stkReg lvl 2)).toNat + n ≤ (c.sr (stkReg lvl 1)).toNat)
/-- Whether a pop of `n` words stays within the stack (R288). -/
def Ctx.popRoom (c : Ctx) (lvl n : Nat) : Bool :=
  decide ((c.sr (stkReg lvl 1)).toNat + n ≤ (c.sr (stkReg lvl 3)).toNat)

/-- The bay word address of offset `off` of bank `bank` (R291). -/
def bayWord (bank off : Nat) : Nat := bank * 0x10000 + off % 0x10000
/-- The bay word address of a word of a level's stack. -/
def Ctx.stackWord (c : Ctx) (lvl off : Nat) : Nat := bayWord (c.sr (stkReg lvl 0)).toNat off

/-- A stack slice (R342): SPB, SP := SPH, SPL, SPH for bay index `x` of an area. -/
def Ctx.loadSlice (c : Ctx) (lvl bank base stride x : Nat) : Ctx :=
  let l := BitVec.ofNat 16 (base + stride * x)
  let h := l + BitVec.ofNat 16 stride
  (((c.setSr (stkReg lvl 0) (BitVec.ofNat 16 bank)).setSr (stkReg lvl 1) h).setSr (stkReg lvl 2) l).setSr (stkReg lvl 3) h

/-- The S and M stacks of a context from the bay's exception-stack slices (R330, R342, R346). -/
def Blk.xStacks (s : Blk) (k : Nat) (c : Ctx) : Ctx :=
  let b := k / 64
  (c.loadSlice 1 (s.fld (F.EA_XSTK_S_BANK b)) (s.fld (F.EA_XSTK_S_BASE b)) (s.fld (F.EA_XSTK_STRIDE_SSTRIDE b)) (k % 64)).loadSlice 2
    (s.fld (F.EA_XSTK_M_BANK b)) (s.fld (F.EA_XSTK_M_BASE b)) (s.fld (F.EA_XSTK_STRIDE_MSTRIDE b)) (k % 64)

/-- The twelve stack registers of a context. -/
def Ctx.stkRegs (c : Ctx) : List (Nat × Half) := c.sys.filter fun x => decide (8 ≤ x.1) && decide (x.1 < 0x14)

/-! ### Entries -/

/-- A fault of an instruction: cause, secondary cause, and the address whose check failed (R336, R348). -/
structure ZFault where
  cause : Nat
  sec   : Nat
  addr  : Option (Nat × Nat)
  deriving DecidableEq, Repr

/-- The microaddress of an entry's handler: that of DIRQ for an interrupt (R240), else one that the spec does not give (log 165). -/
def entryUa (cause : Nat) : BitVec 14 :=
  if cause = 0x40 then 0x0010
  else if 0x41 ≤ cause ∧ cause ≤ 0x43 then BitVec.ofNat 14 (0x14 + 4 * (cause - 0x41))
  else Config.entryVector cause

/-- What an entry does to the context before its push (R209, R270, R331): the shadow bank's G20 to G23, the shadow bank in use,
IE cleared, the level entered, the handler's microaddress; the attempt count of the instruction that it abandons is kept (R214). -/
def Ctx.arrive (c : Ctx) (lvl cause sec : Nat) : Ctx :=
  let c1 := ((c.keep.gset 52 c.sw).gset 53 (c.cb ++ c.bk)).gset 54 c.pc
  let c1 := c1.gset 55 (BitVec.ofNat 16 (sec % 256 * 256 + cause % 256))
  { c1 with
    sw := (c.sw &&& 0x0FFF) ||| 0x1000 ||| (BitVec.ofNat 16 lvl <<< 13),
    lcause := BitVec.ofNat 8 cause, scause := BitVec.ofNat 8 sec, waitFor := none, farBad := false,
    u := { c.u with stack := [], pc := entryUa cause, start := none, issued := false } }

/-- The context continues at a vector of its bay (R331, R350). -/
def Blk.toVector (s : Blk) (k i : Nat) (c : Ctx) : Ctx :=
  { c with pc := BitVec.ofNat 16 (s.fld (F.EA_XVEC_PC (k / 64) i)), cb := BitVec.ofNat 8 (s.fld (F.EA_XVEC_CB (k / 64) i)) }

/-- The entry frame of R336 for state `c` before the entry. -/
def Ctx.frame (c : Ctx) (kind cause sec : Nat) (fa : Option (Nat × Nat)) : List Half :=
  let a := fa.getD (0, 0)
  [c.pc, c.cb ++ c.bk, c.sw, BitVec.ofNat 16 (kind * 2 ^ 14 + cause), BitVec.ofNat 16 a.2,
   BitVec.ofNat 16 (sec % 256 * 256 + a.1 % 256), 0, BitVec.ofNat 16 (c.df.toNat * 256 + c.fdepth.toNat)]

/-- Eight words are pushed on the stack of a level (R335). -/
def State.pushFrame (s : State) (k lvl : Nat) (c : Ctx) (fr : List Half) : State × Ctx :=
  let sp := c.sr (stkReg lvl 1) - 8
  (s.bmWrites (k / 64) (some k) (fr.mapIdx fun i w => (c.stackWord lvl (sp.toNat + i), w)), c.setSr (stkReg lvl 1) sp)

/-- Whether eight words can be pushed on the stack of a level (R288, R335). -/
def Ctx.pushes (c : Ctx) (lvl : Nat) : Bool := c.stackValid lvl && c.pushRoom lvl 8

/-- The checkpoint of a context at its current instruction (R337). -/
def Ctx.checkpoint (c : Ctx) : Checkpoint := { pc := c.pc, cb := c.cb, bk := c.bk, sw := c.sw, stk := c.stkRegs }

/-- FDEPTH counts one more, saturating; the first records the checkpoint `ck` (R337). -/
def Ctx.deepen (c : Ctx) (ck : Checkpoint) : Ctx :=
  { c with fdepth := BitVec.ofNat 8 (min 255 (c.fdepth.toNat + 1)), ckpt := if c.fdepth = 0 then some ck else c.ckpt }

/-- The context runs on its handler: it enters RUN, another that ran becomes READY (R209). -/
def Blk.toHandler (s : Blk) (k : Nat) (c : Ctx) (cycles : Nat) : Blk :=
  let s := match s.running (k / 8) with
    | some j => if j = k then s else (s.setEng (k / 8) { s.eng (k / 8) with last := j % 8 }).onCtx j fun x => { x with st := .ready }
    | none => s
  (s.setCtx k { c with st := .run }).work (k / 8) cycles

/-- Cycles to the first handler instruction (R335). -/
def Ctx.entryCycles (c : Ctx) (lvl : Nat) : Nat := if (c.sr (stkReg lvl 1)).getLsbD 0 then 16 else 12

/-- The entry sequencer of an engine starts in this cycle, or is idle again (R209, R332, R339). -/
def Blk.sequence (s : Blk) (e : Nat) (at_ : Option Nat) : Blk := s.setEng e { s.eng e with entry := at_ }

/-- A context at a checkpoint, its attempt count that of the checkpoint's instruction (R214, R339). -/
def Ctx.backTo (c : Ctx) (p : Checkpoint) : Ctx :=
  Ctx.recall { c with
    pc := p.pc, cb := p.cb, bk := p.bk, sw := p.sw,
    sys := p.stk.foldl (fun m x => tset (fun _ => 0) m x.1 x.2) (c.sys.filter fun x => decide (x.1 < 8) || decide (0x14 ≤ x.1)),
    fdepth := 0, df := false, u := { c.u with stack := [] } }

/-- A third fault of a context whose entry has come to `c` (R339): the engine resets it to its checkpoint, `ck` where none is recorded, and
counts a detected error. -/
def Blk.thirdFault (s : Blk) (k : Nat) (c : Ctx) (ck : Checkpoint) : Blk :=
  let c := c.backTo (c.ckpt.getD ck)
  let s := (s.toHandler k c 0).sequence (k / 8) none
  if c.tripled then (s.stopCtx k 0x82).eaEvt k 0x04
  else
    let s := s.eaEvt k 0x06
    let s := if c.attempt = 2 then s.onCtx k fun c => { c with tripled := true } else s
    s.detected k

/-- The double-fault entry without a push (R338). -/
def State.stackInvalid (s : State) (k : Nat) (c0 : Ctx) (ck : Checkpoint) (cause : Nat) : State :=
  let c := (c0.arrive 2 0x30 cause).deepen ck
  let c := s.blk.toVector k 3 { c with df := true }
  { s with blk := (s.blk.toHandler k c 9).eaEvt k 0x05 }

/-- A double fault (R337): level M at EA_XVEC3 with a frame of kind 3; on an M stack that is not valid nothing is pushed, and
one without room is a third fault. -/
def State.doubleFault (s : State) (k : Nat) (c0 : Ctx) (ck : Checkpoint) (cause sec : Nat) : State :=
  if !c0.stackValid 2 then s.stackInvalid k c0 ck cause
  else
    let c := (c0.arrive 2 cause sec).deepen ck
    if !c0.pushRoom 2 8 then { s with blk := s.blk.thirdFault k c ck }
    else
      let (s, c) := s.pushFrame k 2 c (c0.frame 3 cause sec none)
      let c := s.blk.toVector k 3 { c with df := true }
      { s with blk := (s.blk.toHandler k c (c0.entryCycles 2 + (if cause = 0x31 then 1 else 0))).eaEvt k 0x05 }

/-- An entry at a level through a vector with a frame kind, or what R337 makes of a push that fails; `c0` is the context before it, `ck` the
checkpoint of the instruction that caused it. -/
def State.enter (s : State) (k : Nat) (c0 : Ctx) (ck : Checkpoint) (lvl vec kind cause sec : Nat) (fa : Option (Nat × Nat)) (f : Ctx → Ctx) :
    State :=
  let s : State := { s with blk := s.blk.sequence (k / 8) (some s.blk.now) }
  if !c0.pushes lvl then
    if c0.df then { s with blk := s.blk.thirdFault k (c0.arrive lvl cause sec) ck }
    else if !c0.stackValid lvl then s.stackInvalid k c0 ck cause
    else s.doubleFault k c0 ck 0x31 cause
  else
    let (s, c) := s.pushFrame k lvl (f (c0.arrive lvl cause sec)) (c0.frame kind cause sec fa)
    { s with blk := s.blk.toHandler k (s.blk.toVector k vec c) (c0.entryCycles lvl) }

/-- The entry of an interrupt or of TRAP (R331, R337): S from P, otherwise the current level. -/
def State.trapEntry (s : State) (k cause sec : Nat) (ck : Checkpoint) : State :=
  let c := s.blk.ctx k
  s.enter k c ck (max 1 c.priv) 2 1 cause sec none id

/-! ### Interrupts -/

/-- Whether target Tb holds a deliverable event (R431, R435). -/
def Blk.deliverable (s : Blk) (b : Nat) : Bool := (pget s.ev.offer b).isSome && (pget s.ev.released b).isSome

/-- The interrupt that a context would take: its cause (R207, R240, R348). -/
def Blk.irqOf (s : Blk) (k : Nat) : Option Nat :=
  let c := s.ctx k
  let l := c.pend &&& c.en
  if k = s.supervisor (k / 64) ∧ s.deliverable (k / 64) then some 0x40
  else if l.getLsbD 0 then some 0x41 else if l.getLsbD 1 then some 0x42 else if l.getLsbD 2 then some 0x43 else none

/-- Whether the context in RUN would execute in this cycle a word that holds interrupts (R207); a word of the ROM not yet seen does not (log 84). -/
def Blk.nextHolds (s : Blk) (e : Nat) : Bool :=
  match s.running e with
  | some k =>
    let u := (s.ctx k).u
    decide ((s.eng e).free ≤ s.now) &&
    (match s.ufetch e u.pc.toNat (s.romWord u.pc.toNat 0) (u.skip == some u.pc.toNat) with
     | .word x _ _ => x.extractLsb' 8 2 == 1#2
     | .trap _ => false)
  | none => false

/-- Whether the microword in stage E holds interrupts (R207, condition 3). -/
def Blk.holdsIrq (s : Blk) (e : Nat) : Bool := decide (s.now < (s.eng e).hold) || s.nextHolds e

/-- Whether an interrupt of a context is eligible (R207); none is during a step (R508). -/
def Blk.eligible (s : Blk) (k : Nat) : Bool :=
  let c := s.ctx k
  let e := k / 8
  (s.irqOf k).isSome && c.sw.getLsbD 15 && !s.holdsIrq e && (s.locked e).isNone && s.executes e && !s.stepsEngine e && !s.haltAsked e &&
  (match (s.eng e).entry with | some t => decide (t + 7 ≤ s.now) | none => true) &&
  c.st != .idle && c.st != .stopped && c.st != .frozen && c.st != .halt

/-- An instruction whose access has been issued retires as an entry meets it; `len` is what its PC has still to advance (R206, R210). -/
def Blk.retireIssued (s : Blk) (k len : Nat) : Blk :=
  let at_ := (s.ctx k).place
  (s.onCtx k fun c => { c.ended with pc := c.pc + BitVec.ofNat 16 len }).retire k 0 false at_.1 at_.2

/-- A pool-window access that the context waits for is retired by an interrupt entry (R206, R210). -/
def Blk.retirePool (s : Blk) (k : Nat) : Blk :=
  match s.pools.find? fun x => x.2.ctx == k && !x.2.retired with
  | some (n, op) => { s with pools := pset s.pools n { op with retired := true } }.retireIssued k op.len
  | none => s

/-- The instruction of a context is disposed of as an entry finds it (R210): retired where it has issued a control-window access, otherwise
abandoned. -/
def Blk.dispose (s : Blk) (k : Nat) : Blk := if (s.ctx k).u.issued then s.retireIssued k 0 else s.onCtx k Ctx.home

/-- The context of an engine whose interrupt is served next: the lowest-numbered eligible one (R208). -/
def Blk.served (s : Blk) (e : Nat) : Option Nat := (engCtxs e).find? fun j => s.eligible j

/-- The entry of an eligible interrupt (R208, R209). -/
def State.irqEntry (s : State) (k : Nat) : State :=
  let e := k / 8
  if s.blk.served e = some k then
    match s.blk.irqOf k with
    | some cause =>
      let b := s.blk.setEng e { s.blk.eng e with free := s.blk.now }
      let b := if (b.ctx k).st = .wait then b.retirePool k else b
      let b := match b.running e with | some j => b.dispose j | none => b
      let b := b.dispose k
      { s with blk := b }.trapEntry k cause 0 (b.ctx k).checkpoint
    | none => s
  else s

/-- A fault of a context (R327, R331, R332, R337); where an interrupt of its engine is eligible in this cycle, that takes the entry sequencer
and the fault is not recorded (R333).  `taken` is what the record of the fault does to the context. -/
def State.fault (s : State) (k : Nat) (f : ZFault) (taken : Ctx → Ctx := id) : State :=
  match s.blk.served (k / 8) with
  | some j =>
    let b := s.blk.onCtx k Ctx.home
    let b := if (b.ctx k).st = .wait then b.leave k .ready none else b
    State.irqEntry { s with blk := b } j
  | none =>
    let c := taken (s.blk.ctx k).home.unlock
    let s := { s with blk := (s.blk.setCtx k c).sequence (k / 8) (some s.blk.now) }
    let lvl := if c.priv = 2 then 2 else 1
    if c.df then { s with blk := s.blk.thirdFault k (c.arrive lvl f.cause f.sec) c.checkpoint }
    else if c.pushes lvl && !c.isOpen && c.fdepth != 0 then s.doubleFault k c c.checkpoint 0x32 f.cause
    else s.enter k c c.checkpoint lvl (if lvl = 2 then 1 else 0) 0 f.cause f.sec f.addr fun x => x.deepen c.checkpoint

/-! ### Halts -/

/-- The contexts of an engine enter HALT (R198, R503); one in a move is halted when it resumes (R218). -/
def Blk.haltCtxs (s : Blk) (e : Nat) : Blk :=
  (engCtxs e).foldl (fun s k =>
    let c := s.ctx k
    match c.st with
    | .idle | .stopped | .halt => s
    | .frozen => if c.base = .idle ∨ c.base = .stopped ∨ c.base = .halt then s else s.setCtx k { c with base := .halt, under := c.base }
    | st => s.setCtx k { c with st := .halt, under := st, tim := c.tim.gate s.now false }) s

/-- The contexts of an engine return to the states they held, with held results written and watchdogs reloaded (R446, R507). -/
def Blk.resumeCtxs (s : Blk) (e : Nat) : Blk :=
  let s := (engCtxs e).foldl (fun s k =>
    let s := s.copFlush k
    let c := s.ctx k
    let c := { c with wd := c.wd.reload s.now s.ctxReload, tim := c.tim.gate s.now (c.tim.left != 0) }
    match c.st with
    | .halt => s.setCtx k { c with st := c.under }
    | .frozen => if c.base = .halt then s.setCtx k { c with base := c.under } else s
    | _ => s) s
  (s.engKick e).wakeEng e

/-- The end of a monitor command: status and data words (R530). -/
def Blk.monEnd (s : Blk) (status : Nat) (data : List Word) : Blk :=
  let s := s.wr (F.TD_MON_RSP_off 0) (BitVec.ofNat 32 (status + s.td.seq.toNat * 2 ^ 8 + data.length * 2 ^ 16))
  let s := (data.zipIdx).foldl (fun s x => s.wr (F.TD_MON_RSP_off (x.2 + 1)) x.1) s
  (((s.clr1 F.TD_MON_STAT_BUSY).hwSet F.BLK_ATTN_MON).setFld F.TD_MON_STAT_SEQ s.td.seq.toNat).setFld F.TD_MON_STAT_STATUS status

/-- A STEP of context `k` ends: its engine halts again, and the monitor answers with the new PC, or the microaddress (R508). -/
def Blk.stepEnd (s : Blk) (k : Nat) : Blk :=
  match s.td.step with
  | some (j, uword) =>
    if j ≠ k then s
    else
      let s := { s with td := { s.td with step := none } }
      let other := (engCtxs (k / 8)).any fun i => i != k && (s.ctx i).st == .halt && (s.ctx i).under == .run
      let s := s.haltCtxs (k / 8)
      let s := s.onCtx k fun c => if c.st = .halt ∧ c.under = .run ∧ other then { c with under := .ready } else c
      let c := s.ctx k
      s.monEnd 0 [if uword then c.u.pc.setWidth 32 else c.pc.setWidth 32]
  | none => s

/-! ### Enabling a bay -/

/-- Context 0 of an engine starts when its bay is enabled; in a move it starts frozen (R217, R240, R330). -/
def Blk.startZero (s : Blk) (e : Nat) : Blk :=
  let k := 8 * e
  let c := s.xStacks k { Ctx.reset with
    st := .ready, sw := 0x4000, ceil := 2, wclass := 0, pend := (s.ctx k).pend, en := (s.ctx k).en,
    wd := (s.ctx k).wd.reload s.now s.ctxReload }
  let c := if s.halted e then { c with st := .halt, under := .ready } else c
  let c := if (s.ctx k).st = .frozen then { c with st := .frozen, base := c.st } else c
  (s.setCtx k c).select e

/-- A write of EA_BAY_CTRL (R223, R240, R441). -/
def Blk.wrBayCtrl (s : Blk) (b : Nat) (v : Word) : Blk :=
  let was := s.bit (F.EA_BAY_CTRL_EN b)
  let on := (F.EA_BAY_CTRL_EN b).get v = 1
  let s := if was then s else s.setFld (F.EA_BAY_CTRL_SUPV b) ((F.EA_BAY_CTRL_SUPV b).get v)
  let s := s.setBit (F.EA_BAY_CTRL_EN b) on
  let s := s.bayWatch b
  if on && !was then (List.range 8).foldl (fun s k => s.startZero (8 * b + k)) { s with boots := pdel s.boots b } else s

end Sys2Proof.Machine
end

