-- ==== Sys2Proof/Machine/Deflate.lean ====
section
/-! DEFINITION. The Deflate stream of a compressed page (R145, R402, R403): what the decompressor makes of it, and what the compressor may return.
RFC 1951 gives the meaning of a block's bits (log 170). -/

namespace Sys2Proof.Machine

/-! ### Bits -/

/-- The bits of a stream: of each byte the least significant first. -/
def bitsOf (l : List Byte) : List Bool := (l.map fun b => (List.range 8).map fun i => b.getLsbD i).flatten

/-- A number of `n` bits, least significant first; SHORT where the stream ends before. -/
def takeBits : Nat → List Bool → Except Nat (Nat × List Bool)
  | 0, l => .ok (0, l)
  | _ + 1, [] => .error 6
  | n + 1, b :: l =>
    match takeBits n l with
    | .ok (v, r) => .ok (b.toNat + 2 * v, r)
    | .error e => .error e

/-! ### Codes -/

/-- A prefix code: how many codes there are of each length from 1 to 15, and the symbols in the order of their codes. -/
structure Huff where
  counts : List Nat
  syms   : List Nat
  deriving DecidableEq, Repr

/-- The code with the given lengths, 0 for a symbol without a code. -/
def huffOf (lens : List Nat) : Huff :=
  let ns := (List.range 15).map (· + 1)
  ⟨ns.map fun n => (lens.filter (· == n)).length,
   (ns.map fun n => ((lens.mapIdx fun i l => (i, l)).filter fun x => x.2 == n).map (·.1)).flatten⟩

/-- The codes of 15 bits that a code leaves free; none for an over-subscribed code. -/
def Huff.free (h : Huff) : Option Nat :=
  h.counts.foldl (fun m n => match m with | some x => if n ≤ 2 * x then some (2 * x - n) else none | none => none) (some 1)
/-- A complete code. -/
def Huff.full (h : Huff) : Bool := h.free == some 0
/-- A distance code: complete, or of one symbol at most (R403). -/
def Huff.distOk (h : Huff) : Bool := h.full || (h.free.isSome && decide (h.syms.length ≤ 1))

/-- The next symbol: the code so far, the first code of the length, the symbols of shorter codes; ILLEGAL_CODE where no code matches. -/
def huffNext (syms : List Nat) : List Nat → Nat → Nat → Nat → List Bool → Except Nat (Nat × List Bool)
  | [], _, _, _, _ => .error 3
  | _ :: _, _, _, _, [] => .error 6
  | n :: ns, code, first, idx, b :: l =>
    let c := 2 * code + b.toNat
    let f := 2 * first
    if c < f + n then .ok (syms.getD (idx + (c - f)) 0, l) else huffNext syms ns c (f + n) (idx + n) l
/-- The next symbol of a code. -/
def Huff.next (h : Huff) (l : List Bool) : Except Nat (Nat × List Bool) := huffNext h.syms h.counts 0 0 0 l

/-- The least length and the extra bits of length symbol 257 + `i`. -/
def lenBase (i : Nat) : Nat × Nat :=
  if i < 8 then (3 + i, 0) else if i = 28 then (258, 0) else ((4 + i % 4) * 2 ^ (i / 4 - 1) + 3, i / 4 - 1)
/-- The least distance and the extra bits of distance symbol `i`. -/
def distBase (i : Nat) : Nat × Nat := if i < 4 then (1 + i, 0) else ((2 + i % 2) * 2 ^ (i / 2 - 1) + 1, i / 2 - 1)

/-! ### Blocks -/

/-- A literal or the `n` bytes of a match join the output, last byte first; LENGTH_OVERRUN past 4096 bytes. -/
def copyBack (dist : Nat) : Nat → List Byte → List Byte
  | 0, out => out
  | n + 1, out => copyBack dist n (out.getD (dist - 1) 0 :: out)

/-- The data of a block with its codes, to the end-of-block symbol (R403). -/
def blockData (lit dist : Huff) : Nat → List Byte → List Bool → Except Nat (List Byte × List Bool)
  | 0, _, _ => .error 6
  | k + 1, out, l =>
    match lit.next l with
    | .error e => .error e
    | .ok (s, l) =>
      if s < 256 then
        if 4096 ≤ out.length then .error 5 else blockData lit dist k (BitVec.ofNat 8 s :: out) l
      else if s = 256 then .ok (out, l)
      else if 285 < s then .error 3
      else
        match takeBits (lenBase (s - 257)).2 l with
        | .error e => .error e
        | .ok (x, l) =>
          let n := (lenBase (s - 257)).1 + x
          if 4096 < out.length + n then .error 5
          else
            match dist.next l with
            | .error e => .error e
            | .ok (d, l) =>
              if 29 < d then .error 3
              else
                match takeBits (distBase d).2 l with
                | .error e => .error e
                | .ok (y, l) =>
                  let m := (distBase d).1 + y
                  if out.length < m then .error 4 else blockData lit dist k (copyBack m n out) l

/-- The bytes of a stored block. -/
def storedData : Nat → List Byte → List Bool → Except Nat (List Byte × List Bool)
  | 0, out, l => .ok (out, l)
  | n + 1, out, l =>
    match takeBits 8 l with
    | .error e => .error e
    | .ok (b, l) => if 4096 ≤ out.length then .error 5 else storedData n (BitVec.ofNat 8 b :: out) l

/-- A stored block: its length and the complement follow at the next byte. -/
def stored (out : List Byte) (l : List Bool) : Except Nat (List Byte × List Bool) :=
  match takeBits 32 (l.drop (l.length % 8)) with
  | .error e => .error e
  | .ok (v, l) => if v / 2 ^ 16 = 2 ^ 16 - 1 - v % 2 ^ 16 then storedData (v % 2 ^ 16) out l else .error 3

/-- `n` code lengths of the code-length code, in the order of their places. -/
def clLens : List Nat → Nat → List Bool → Except Nat (List (Nat × Nat) × List Bool)
  | p :: ps, n + 1, l =>
    (match takeBits 3 l with
     | .error e => .error e
     | .ok (v, l) =>
       match clLens ps n l with
       | .ok (r, l) => .ok ((p, v) :: r, l)
       | .error e => .error e)
  | _, _, l => .ok ([], l)
/-- The places of the code lengths of the code-length code. -/
def clOrder : List Nat := [16, 17, 18, 0, 8, 7, 9, 6, 10, 5, 11, 4, 12, 3, 13, 2, 14, 1, 15]

/-- The code lengths of a block, last first, up to `n` of them (R403). -/
def codeLens (cl : Huff) (n : Nat) : Nat → List Nat → List Bool → Except Nat (List Nat × List Bool)
  | 0, _, _ => .error 6
  | k + 1, acc, l =>
    if n ≤ acc.length then .ok (acc, l)
    else
      match cl.next l with
      | .error e => .error e
      | .ok (s, l) =>
        if s < 16 then codeLens cl n k (s :: acc) l
        else if s = 16 && acc.isEmpty then .error 3
        else
          let f : Nat × Nat × Nat := if s = 16 then (2, 3, acc.headD 0) else if s = 17 then (3, 3, 0) else (7, 11, 0)
          match takeBits f.1 l with
          | .error e => .error e
          | .ok (x, l) =>
            let m := f.2.1 + x
            if n < acc.length + m then .error 3 else codeLens cl n k (List.replicate m f.2.2 ++ acc) l

/-- A block with codes of its own. -/
def dynamic (out : List Byte) (l : List Bool) : Except Nat (List Byte × List Bool) :=
  match takeBits 14 l with
  | .error e => .error e
  | .ok (v, l) =>
    let hlit := v % 32
    let hdist := v / 32 % 32
    if 29 < hlit ∨ 29 < hdist then .error 3
    else
      match clLens clOrder (v / 1024 + 4) l with
      | .error e => .error e
      | .ok (ps, l) =>
        let cl := huffOf ((List.range 19).map fun i => ((ps.find? fun p => p.1 == i).map (·.2)).getD 0)
        if !cl.full then .error 3
        else
          match codeLens cl (hlit + hdist + 258) 320 [] l with
          | .error e => .error e
          | .ok (acc, l) =>
            let lens := acc.reverse
            let lit := huffOf (lens.take (hlit + 257))
            let dist := huffOf (lens.drop (hlit + 257))
            if lit.full && dist.distOk then blockData lit dist (l.length + 1) out l else .error 3

/-- The code lengths of a block with the fixed codes. -/
def fixedLit : Huff := huffOf (List.replicate 144 8 ++ List.replicate 112 9 ++ List.replicate 24 7 ++ List.replicate 8 8)
@[inherit_doc fixedLit] def fixedDist : Huff := huffOf (List.replicate 32 5)

/-- The blocks of a stream to the end of the final one. -/
def blocks : Nat → List Byte → List Bool → Except Nat (List Byte × List Bool)
  | 0, _, _ => .error 6
  | k + 1, out, l =>
    match takeBits 3 l with
    | .error e => .error e
    | .ok (v, l) =>
      let r := match v / 2 with
        | 0 => stored out l
        | 1 => blockData fixedLit fixedDist (l.length + 1) out l
        | 2 => dynamic out l
        | _ => .error 3
      match r with
      | .error e => .error e
      | .ok (out, l) => if v % 2 = 1 then .ok (out, l) else blocks k out l

/-- What the decompressor makes of the bytes of the stream lines: the 4096 bytes of the page, or the tier result of the first error in the order
of the stream (R403). -/
def inflate (stream : List Byte) : Except Nat (List Byte) :=
  match blocks (8 * stream.length + 1) [] (bitsOf stream) with
  | .error e => .error e
  | .ok (out, l) => if out.length < 4096 then .error 6 else if l.any id then .error 3 else .ok out.reverse

/-- Whether the compressor may return a stream for the bytes of a page: one block, final and of BTYPE 01 or 10, that gives them back (R402). -/
def streamOf (page stream : List Byte) : Bool :=
  (match bitsOf stream with
   | true :: a :: b :: _ => a != b
   | _ => false) && (match inflate stream with | .ok out => out == page | .error _ => false)

end Sys2Proof.Machine
end

