-- ==== Sys2Proof/Machine/Timebase.lean ====
section
/-! DEFINITION. The timebase tracker (02, R33 to R60, R572, R573): edges, position, speed, holdover and the compare
channels.  What a frame boundary does stands in Frame.lean. -/

namespace Sys2Proof.Machine

/-- The compare value of channel `n`. -/
def Blk.cmpOf (s : Blk) (n : Nat) : BitVec 48 := tget (fun _ => 0) s.tb.cmpVal n
/-- Channel `n` takes a compare value. -/
def Blk.setCmp (s : Blk) (n : Nat) (v : BitVec 48) : Blk :=
  { s with tb := { s.tb with cmpVal := tset (fun _ => 0) s.tb.cmpVal n v } }
/-- A channel is armed as STAT.ARMED says; channels 0 and 1, which belong to SC, are armed by the acquisition load (R44, R52, R60, log 142). -/
def Blk.cmpArmed (s : Blk) (n : Nat) : Bool := s.bit (F.SC_CMP_STAT_ARMED n)

/-- A retransmitted pulse that begins 6 cycles from now (R37); pulses that have ended are dropped. -/
def Blk.tbPulse (s : Blk) (o : TbOut) : Blk :=
  if s.bit F.SC_TB_CTRL_OUTEN && s.tbCounts then
    { s with tb := { s.tb with pulses := (o, s.now + 6) :: s.tb.pulses.filter fun p => decide (s.now < p.2 + 4) } }
  else s

/-- The level of a retransmission output at this cycle (R37). -/
def Blk.tbOutHigh (s : Blk) (o : TbOut) : Bool :=
  s.tb.pulses.any fun p => p.1 == o && decide (p.2 ≤ s.now) && decide (s.now < p.2 + 4)

/-- TB_OUT_B's held level at this cycle, in step/direction mode (R37). -/
def Blk.tbLevelB (s : Blk) : Bool :=
  match s.tb.outBNext with
  | some (c, v) => if c < s.now then v else s.tb.outB
  | none => s.tb.outB

/-- The retransmission of an accepted step: in step/direction mode TB_OUT_B takes the direction in the next cycle (R37). -/
def Blk.tbRetransmit (s : Blk) (down : Bool) : Blk :=
  if s.bit F.SC_TB_CTRL_OUTEN && s.tbCounts then
    if s.bit F.SC_TB_CTRL_MODE then s.tbPulse (if down then .b else .a)
    else
      let s := { s with tb := { s.tb with outB := s.tbLevelB, outBNext := some (s.now, down == s.bit F.SC_TB_CTRL_DIRPOL) } }
      s.tbPulse .a
  else s

/-- A tick fault (R35, R36); R79 gives no ERR_INFO layout, and the model writes 0 (log 141). -/
def Blk.tickFault (s : Blk) : Blk := (s.bump F.SC_TB_FAULTS_TICKFLT).raise 22 (some (1, 0))

/-- One up step of the position: compare hits fall due (R52) and a missing index is found and counted (R40, R49,
R59). -/
def Blk.tbUp (s : Blk) : Blk :=
  let p := s.tb.pos + 1
  let due := (List.range 8).foldl
    (fun d n => if s.cmpArmed n && s.cmpOf n == p then d ||| (1#8 <<< n) else d) s.tb.due
  let m : BitVec 28 := p.extractLsb' 20 28
  let fresh := p.extractLsb' 0 20 == 0#20 && m != s.tb.lastMult
  let s := { s with tb := { s.tb with pos := p, due := due, dueAt := if s.cmpArmed 0 && s.cmpOf 0 == p then s.now else s.tb.dueAt, lastMult := if fresh then m else s.tb.lastMult,
                                      idxSeen := s.tb.idxSeen && !fresh } }
  if s.tbState == 2 && p.extractLsb' 0 20 == 0x80000#20 && !s.tb.idxSeen then
    let s := ((s.set1 F.SC_TB_DRIFT_MISS).setFld F.SC_TB_DRIFT_DRIFT 0).bump F.SC_TB_FAULTS_DRIFTCNT
    (s.raise 23 (some (3, 0))).setFld F.SC_TB_STAT_STATE 3
  else s

/-- One down step of the position; crossing the slot's starting boundary counts (R40, R42). -/
def Blk.tbDown (s : Blk) : Blk :=
  let s' := { s with tb := { s.tb with pos := s.tb.pos - 1 } }
  if s.tb.pos = s.cmpOf 0 - 4 then s'.bump F.SC_TB_FAULTS_RETRACT else s'

/-- An accepted period enters the window, and SPEED follows once the window is full (R50, R51). -/
def Blk.tbPeriod (s : Blk) (p : Nat) : Blk :=
  let ps := (p :: s.tb.periods).take 256
  let n := min (s.tb.nPeriods + 1) 256
  let s := { s with tb := { s.tb with periods := ps, nPeriods := n } }
  let w := s.fld F.SC_TB_CTRL_SPWIN
  if 2 ^ w ≤ n then
    { s with tb := { s.tb with spNext := some (s.now, (ps.take (2 ^ w)).foldl (· + ·) 0 * 2 ^ 16 / 2 ^ w) } }
  else s

/-- An accepted edge (R35, R40, R43, R50, R572). -/
def Blk.tbAccept (s : Blk) (down : Bool) : Blk :=
  let st := s.tbState
  let s := match s.tb.lastEdge with
    | some c => if s.tb.perOpen && s.tb.lastDown == down && st != 4 then s.tbPeriod (min (s.now - c) 65535) else s
    | none => s
  let s := { s with tb := { s.tb with lastEdge := some s.now, lastDown := down, perOpen := st != 4, lossFrom := s.now } }
  let s := s.setBit F.SC_TB_STAT_DIR down
  let s := if s.tbCounts then (if down then s.tbDown else s.tbUp) else s
  s.tbRetransmit down

/-- A judged edge: a tick fault when it comes too soon after the last accepted one (R35). -/
def Blk.tbEdge (s : Blk) (down : Bool) : Blk :=
  match s.tb.lastEdge with
  | some c => if s.now - c < s.fld F.SC_TB_TIMING_MINSP then s.tickFault else s.tbAccept down
  | none => s.tbAccept down

/-- Rising edges on TB_A and TB_B as the input mode reads them (R33, R36); OFF ignores them (R35). -/
def Blk.tbInputs (s : Blk) (a b bLevel : Bool) : Blk :=
  if s.tbState == 0 then s
  else if s.bit F.SC_TB_CTRL_MODE then
    if a && b then s.tickFault else if a then s.tbEdge false else if b then s.tbEdge true else s
  else if a then s.tbEdge (bLevel == s.bit F.SC_TB_CTRL_DIRPOL) else s

/-- The LOSS value in force in this cycle (R572). -/
def Blk.lossNow (s : Blk) : Nat :=
  match s.tb.lossWas with
  | some (c, v) => if c = s.now then v else s.fld F.SC_TB_TIMING_LOSS
  | none => s.fld F.SC_TB_TIMING_LOSS

/-- The period of HOLDOVER, in 16.16 cycles (R46). -/
def Blk.holdPeriod (s : Blk) : Nat := if s.bit F.SC_TB_STAT_SPVALID then s.fld F.SC_TB_SPEED_SPEED else 0x200000

/-- One internal step of HOLDOVER when the phase accumulator has reached the period (R46). -/
def Blk.holdStep (s : Blk) : Blk :=
  let acc := s.tb.acc + (s.now - s.tb.accAt) * 2 ^ 16
  if s.tbState == 4 && decide (s.holdPeriod ≤ acc) then
    { s with tb := { s.tb with acc := acc - s.holdPeriod, accAt := s.now } }.tbUp
  else s

/-! ### Registers of the timebase page -/

/-- The tracker goes to OFF (R43, R51). -/
def Blk.tbOff (s : Blk) : Blk :=
  let s := ((s.setFld F.SC_TB_STAT_STATE 0).clr1 F.SC_TB_CTRL_ACQ).clr1 F.SC_TB_CTRL_REALIGN
  let s := (s.clr1 F.SC_TB_STAT_SPVALID).setFld F.SC_TB_SPEED_SPEED 0x200000
  { s with tb := { s.tb with lastEdge := none, perOpen := false, periods := [], nPeriods := 0, spNext := none } }.tbOutGate

/-- A write of SC_TB_CTRL (R43, R45, R51, R56, R573). -/
def Blk.wrTbCtrl (s : Blk) (v : Word) : Blk :=
  let wasOn := s.bit F.SC_TB_CTRL_EN
  let s := s.setFld F.SC_TB_CTRL_SPWIN (min (F.SC_TB_CTRL_SPWIN.get v) 8)
  let s := s.setFld F.SC_TB_CTRL_OUTEN (F.SC_TB_CTRL_OUTEN.get v)
  let s := s.setFld F.SC_TB_CTRL_DIRPOL (F.SC_TB_CTRL_DIRPOL.get v)
  let s := s.setFld F.SC_TB_CTRL_MODE (F.SC_TB_CTRL_MODE.get v)
  let s := s.setFld F.SC_TB_CTRL_EN (F.SC_TB_CTRL_EN.get v)
  if F.SC_TB_CTRL_EN.get v = 0 then s.tbOff
  else
    let s := if wasOn then s else { s with tb := { s.tb with periods := [], nPeriods := 0 } }
    let s := if F.SC_TB_CTRL_REALIGN.get v = 1 then s.set1 F.SC_TB_CTRL_REALIGN else s
    let s := if F.SC_TB_CTRL_ACQ.get v = 1 ∧ s.tbState = 0 then
        (s.set1 F.SC_TB_CTRL_ACQ).setFld F.SC_TB_STAT_STATE 1 else s
    s.tbOutGate

/-- A write of SC_TB_TIMING: clamped as R58 gives, in force from the next cycle, in which a count that has reached the
new LOSS enters HOLDOVER (R572). -/
def Blk.wrTbTiming (s : Blk) (v : Word) : Blk :=
  let s := { s with tb := { s.tb with lossWas := some (s.now, s.lossNow) } }
  let s := s.setFld F.SC_TB_TIMING_LOSS (max (F.SC_TB_TIMING_LOSS.get v) 64)
  s.setFld F.SC_TB_TIMING_MINSP (max (F.SC_TB_TIMING_MINSP.get v) 4)

/-! ### Compare channels -/

/-- A write of SC_CMP_OWN (R53).  A release clears ID too, which R53 does not say (log 143). -/
def Blk.wrCmpOwn (s : Blk) (n : Nat) (v : Word) : Blk :=
  let kind := (F.SC_CMP_OWN_KIND n).get v
  let id := (F.SC_CMP_OWN_ID n).get v
  let cur := s.fld (F.SC_CMP_OWN_KIND n)
  let conflict := s.hwSet (F.SC_CMP_STAT_CONFLICT n)
  if n < 2 then conflict
  else if kind = 0 then
    if cur = 0 then s
    else if id = s.fld (F.SC_CMP_OWN_ID n) then
      let s := (s.setFld (F.SC_CMP_OWN_KIND n) 0).setFld (F.SC_CMP_OWN_ID n) 0
      let s := (s.clr1 (F.SC_CMP_STAT_ARMED n)).clr1 (F.SC_CMP_STAT_LATE n)
      { s with tb := { s.tb with due := s.tb.due &&& ~~~(1#8 <<< n) } }
    else conflict
  else if kind = 3 ∨ cur ≠ 0 then conflict
  else (s.setFld (F.SC_CMP_OWN_KIND n) kind).setFld (F.SC_CMP_OWN_ID n) id

/-- Whether writes of CMP and SPC of a channel are taken: neither on a free channel nor on channels 0 and 1 (R54). -/
def Blk.cmpOpen (s : Blk) (n : Nat) : Bool := decide (2 ≤ n) && s.fld (F.SC_CMP_OWN_KIND n) != 0

/-- A write of SC_CMP_LO: the staging word (R54). -/
def Blk.wrCmpLo (s : Blk) (n : Nat) (v : Word) : Blk :=
  if s.cmpOpen n then { s with tb := { s.tb with cmpStage := tset (fun _ => 0) s.tb.cmpStage n v } } else s

/-- A write of SC_CMP_HI: the compare value as one, the arming and LATE (R54). -/
def Blk.wrCmpHi (s : Blk) (n : Nat) (v : Word) : Blk :=
  if s.cmpOpen n then
    let c : BitVec 48 := v.setWidth 16 ++ tget (fun _ => 0) s.tb.cmpStage n
    let s := (s.setCmp n c).set1 (F.SC_CMP_STAT_ARMED n)
    s.setBit (F.SC_CMP_STAT_LATE n) (decide (c ≤ s.tb.pos))
  else s

/-- A write of SC_CMP_SPC (R54, R60). -/
def Blk.wrCmpSpc (s : Blk) (n : Nat) (v : Word) : Blk := if s.cmpOpen n then s.wr (F.SC_CMP_SPC_off n) v else s

/-- Whether a hit of channel `n` waits for its command. -/
def Blk.hitDue (s : Blk) (n : Nat) : Bool := s.tb.due.getLsbD n
/-- The hit of channel `n` is performed. -/
def Blk.hitDone (s : Blk) (n : Nat) : Blk := { s with tb := { s.tb with due := s.tb.due &&& ~~~(1#8 <<< n) } }

/-- A hit sets the trigger latch of a pin engine in the pin-engine cycle that contains the next cycle, or in the one after where that is its last;
hits merge (R464). -/
def Blk.trigger (s : Blk) (n : Nat) : Blk :=
  if (pget s.peTrig n).isSome then s else { s with peTrig := pset s.peTrig n ((s.now + 2) / 4) }

/-- A hit of channel 2 to 7: the compare value advances or the channel disarms, HIT sets, and the owner is told
(R52, R55). -/
def Blk.cmpHit (s : Blk) (n : Nat) : Blk :=
  let spc := s.rd (F.SC_CMP_SPC_off n)
  let s := (s.hitDone n).setCmp n (s.cmpOf n + spc.setWidth 48)
  let s := if spc = 0 then s.clr1 (F.SC_CMP_STAT_ARMED n) else s
  let s := s.hwSet (F.SC_CMP_STAT_HIT n)
  match s.fld (F.SC_CMP_OWN_KIND n) with
  | 1 => s.raise (30 + (n - 2) / 2)
  | 2 => s.trigger (s.fld (F.SC_CMP_OWN_ID n))
  | _ => s

end Sys2Proof.Machine
end

