-- ==== Sys2Proof/Machine/Schedule.lean ====
section
/-! DEFINITION. Slot tables, budgets and table switching (02, R61 to R78, R574). -/

namespace Sys2Proof.Machine

/-- SC_TBL_STAT.STATE: 0 STABLE, 1 CHECKING, 2 ARMED (R70). -/
def Blk.tblState (s : Blk) : Nat := s.fld F.SC_TBL_STAT_STATE
/-- Enters a state of the table switch; ARM reads 1 in CHECKING and ARMED (R78). -/
def Blk.setTblState (s : Blk) (n : Nat) : Blk :=
  (s.setFld F.SC_TBL_STAT_STATE n).setBit F.SC_TBL_CTRL_ARM (n != 0)

/-- The copy or set, 0 for A and 1 for B, that holds an offset of the slot tables or of the budget sets (R63, R68). -/
def slotArea (off : Nat) : Option Nat :=
  if 0x120000 ≤ off ∧ off < 0x128000 then some 0
  else if 0x128000 ≤ off ∧ off < 0x130000 then some 1
  else if 0x6400 ≤ off ∧ off < 0x6600 then some 0
  else if 0x6600 ≤ off ∧ off < 0x6800 then some 1
  else none

/-- A write to a slot-table copy or a budget set: stored in the shadow in STABLE, else refused with WREF (R64, R70,
R75). -/
def Blk.wrSlotArea (s : Blk) (off : Nat) (v : Word) : Blk :=
  match slotArea off with
  | none => s
  | some c =>
    if s.tblState ≠ 0 ∨ c = s.fld F.SC_TBL_STAT_ACT then s.hwSet F.SC_TBL_STAT_WREF
    else
      let s := s.plainWrite off v
      { s with sched := { s.sched with badParity := s.sched.badParity.filter fun b => decide (b / 4 ≠ off / 4) } }

/-- The window offset of the slot-table byte of copy `c` for a slot and a channel (R63). -/
def slotByteOff (c slot ch : Nat) : Nat := 0x120000 + 0x8000 * c + 32 * slot + ch

/-- The active byte for a slot and a channel (R61, R63). -/
def Blk.slotByte (s : Blk) (slot ch : Nat) : Nat :=
  let off := slotByteOff (s.fld F.SC_TBL_STAT_ACT) slot ch
  s.fld ⟨off / 4 * 4, 8 * (off % 4), 8⟩

/-- A slot-table byte as OWNER, LIM and SUB, with every SUB not listed as 0 (R61, R62). -/
structure SlotOwner where
  owner : Nat
  lim   : Nat
  sub   : Nat
  deriving DecidableEq, Repr

/-- The reading of a slot-table byte (R61, R62). -/
def slotOwner (b : Nat) : SlotOwner :=
  let o := b / 32 % 8
  let l := b / 8 % 4
  let sub := b % 8
  { owner := o, lim := if l = 0 then 4 else l,
    sub := if o = 5 ∧ sub ≤ 2 then sub else if o = 7 ∧ sub ≤ 1 then sub else 0 }

/-- The live counter of class `o` (1 G to 7 X) on a channel (R61, R68). -/
def liveFld (o ch : Nat) : Fld :=
  let k := o - 1
  ⟨0x6800 + 16 * ch + 4 * (k / 2), 16 * (k % 2), 16⟩
/-- The word of a budget set `c` that holds class `o` of a channel. -/
def budgetFld (c o ch : Nat) : Fld :=
  let k := o - 1
  ⟨0x6400 + 0x200 * c + 16 * ch + 4 * (k / 2), 16 * (k % 2), 16⟩
/-- The bit of a channel in the SC_BUD_ZMAP register of class `o` (R78). -/
def zmapFld (o ch : Nat) : Fld := ⟨F.SC_BUD_ZMAP_off (o - 1), ch, 1⟩

/-- A transfer of class `o` on a channel is charged (R27, R69). -/
def Blk.charge (s : Blk) (o ch : Nat) : Blk :=
  let n := s.fld (liveFld o ch)
  if n = 0xFFFF ∨ n = 0 then s
  else
    let s := s.setFld (liveFld o ch) (n - 1)
    if n = 1 then (s.set1 (zmapFld o ch)).raise (if o = 1 then 28 else 29) else s

/-- The reload of every live counter from the set that goes with the active copy, step 4 of R25 (R69). -/
def Blk.reloadBudgets (s : Blk) : Blk :=
  let c := s.fld F.SC_TBL_STAT_ACT
  (List.range 32).foldl (fun s ch =>
    [1, 2, 3, 4, 5, 6, 7].foldl (fun s o =>
      let n := s.fld (budgetFld c o ch)
      (s.setFld (liveFld o ch) n).setBit (zmapFld o ch) (n == 0)) s) s

/-- The bytes of `n` words from a window offset, each word's lowest byte first (R71). -/
def Blk.windowBytes (s : Blk) (off n : Nat) : List Byte :=
  (List.range n).flatMap fun i => bytesLE 4 (s.rd (off + 4 * i))

/-- The CRC of the shadow copy and the shadow budget set (R71). -/
def Blk.shadowCrc (s : Blk) : Word :=
  let c := 1 - s.fld F.SC_TBL_STAT_ACT
  crc32c (s.windowBytes (0x120000 + 0x8000 * c) 8192 ++ s.windowBytes (0x6400 + 0x200 * c) 128)

/-- Whether a byte of the shadow copy has a parity error (R71). -/
def Blk.shadowBad (s : Blk) : Bool :=
  let base := 0x120000 + 0x8000 * (1 - s.fld F.SC_TBL_STAT_ACT)
  s.sched.badParity.any fun b => decide (base ≤ b) && decide (b < base + 0x8000)

/-- A 36-bit frame index from its low word and its field of four bits. -/
def frameOf (lo hi : Nat) : FrameIx := BitVec.ofNat 36 (hi % 16 * 2 ^ 32 + lo)

/-- The frame index of this cycle: in the cycle of a frame boundary that of the new frame (R25, R41). -/
def Blk.frameNow (s : Blk) : FrameIx := if s.tb.due.getLsbD 1 then (tget (fun _ => 0) s.tb.cmpVal 1).extractLsb' 12 36 else s.tb.frame

/-- The check of the shadow copy completes: the switch is armed for its target, or refused (R71, R72, R574); `parity` tells
of a parity error that no lookup has met.  `Later` is the plain order of 36-bit numbers (log 144), and event 27 has ERR_INFO 0 (log 141). -/
def Blk.tblComplete (s : Blk) (parity : Bool) : Blk :=
  let crc := s.shadowCrc
  let badCrc := crc != s.rd F.SC_TBL_SUM_off
  let badPar := parity || s.shadowBad
  let target := if s.bit F.SC_TBL_CTRL_NEXT then s.frameNow + 1
    else frameOf (s.fld F.SC_TBL_TGT_LO_TGT) (s.fld F.SC_TBL_TGT_HI_TGT)
  let late := decide (target ≤ s.frameNow)
  let s := s.wr F.SC_TBL_CALC_off crc
  let s := if badCrc then s.hwSet F.SC_TBL_STAT_SUMERR else s
  let s := if badPar then s.hwSet F.SC_TBL_STAT_PARERR else s
  let s := if late then s.hwSet F.SC_TBL_STAT_LATE else s
  if badCrc || badPar || late then
    (s.setTblState 0).raise 27 (some (if badCrc then 0x10 else if late then 0x11 else 0x12, 0))
  else { s.setTblState 2 with sched := { s.sched with target := target, armedAt := s.now, byNext := s.bit F.SC_TBL_CTRL_NEXT } }

/-- The running check has reached its completion cycle, +1040 (R71). -/
def Blk.tblDue (s : Blk) : Bool := s.tblState == 1 && decide (s.sched.checkAt + 1040 ≤ s.now)

/-- Whether an armed switch takes place at a frame boundary of this cycle whose command has not run yet (R73). -/
def Blk.switchDue (s : Blk) : Bool := s.tblState == 2 && s.tb.due.getLsbD 1 && decide (s.sched.target ≤ s.frameNow) && !(s.sched.armedAt == s.now)

/-- A CANCEL in CHECKING or ARMED: too late in the cycle of the target's frame boundary (R73, R74).  The cycle of one that cancels an armed
switch is kept, for a boundary of the same cycle whose command comes later. -/
def Blk.tblCancel (s : Blk) : Blk :=
  if s.switchDue then s
  else if s.tblState = 2 then { s.setTblState 0 with sched := { s.sched with cancelAt := if s.sched.armedAt = s.now then none else some s.now } }
  else s.setTblState 0

/-- A write of SC_TBL_CTRL: a completion due in this cycle comes first, and each bit is judged on the state it leaves
(R70, R71, R74). -/
def Blk.wrTblCtrl (s : Blk) (v : Word) : Blk :=
  let s := if s.tblDue then s.tblComplete false else s
  let s := s.setFld F.SC_TBL_CTRL_NEXT (F.SC_TBL_CTRL_NEXT.get v)
  let arm := F.SC_TBL_CTRL_ARM.get v
  let cancel := F.SC_TBL_CTRL_CANCEL.get v
  if s.tblState = 0 then
    if arm = 1 then { s.setTblState 1 with sched := { s.sched with checkAt := s.now } } else s
  else if cancel = 1 then s.tblCancel else s

/-- A switch armed in the boundary's own cycle has met the frame index that this boundary brings (R6, R72): NEXT names the frame after, and
a target that has come is late. -/
def Blk.rejudge (s : Blk) : Blk :=
  if s.tblState = 2 ∧ s.sched.armedAt = s.tb.bndAt ∧ s.sched.target ≤ s.tb.frame then
    if s.sched.byNext && s.tb.frame + 1 != 0 then { s with sched := { s.sched with target := s.tb.frame + 1 } }
    else ((s.hwSet F.SC_TBL_STAT_LATE).setTblState 0).raise 27 (some (0x11, 0))
  else s

/-- The table switch of step 2 of R25, when an armed target has come (R70, R76); a CANCEL of the boundary's own cycle is too late (R73). -/
def Blk.tableSwitch (s : Blk) : Blk :=
  let s := s.rejudge
  if (s.tblState = 2 ∨ s.sched.cancelAt = some s.tb.bndAt) ∧ s.sched.target ≤ s.tb.frame then
    let s := { s with sched := { s.sched with cancelAt := none } }
    let s := (s.setTblState 0).setFld F.SC_TBL_STAT_ACT (1 - s.fld F.SC_TBL_STAT_ACT)
    let s := s.setFld F.SC_TBL_SWF_LO_SWF (s.tb.frame.toNat % 2 ^ 32)
    let s := s.setFld F.SC_TBL_SWF_HI_SWF (s.tb.frame.toNat / 2 ^ 32)
    s.raise 26
  else s

end Sys2Proof.Machine
end

