-- ==== Sys2Proof/Machine/Outer.lean ====
section
/-! DEFINITION. The line's check value (R91), the codeword's layout (R120) and the outer code over GF(2^16) (R124,
R125, R129). -/

namespace Sys2Proof.Machine

/-- Mint's check value over a line, a line address and a key generation (R91). -/
def mint (data : Line) (addr : PAddr) (key : BitVec 8) : BitVec 24 :=
  (crcBytes (crcPoly 0) 0xFFFFFF (bytesLE 64 data ++ bytesBE 6 addr ++ [key])).setWidth 24

/-- A line with the bytes outside a mask zero (R93). -/
def maskLine (data : Line) (mask : BitVec 64) : Line :=
  (List.range 64).foldl (fun a i => if mask.getLsbD i then a ||| (((data >>> (8 * i)) &&& 0xFF#512) <<< (8 * i)) else a) 0

/-- The bytes of `new` under a mask over those of `old`. -/
def mergeLine (old new : Line) (mask : BitVec 64) : Line := maskLine old (~~~mask) ||| maskLine new mask

/-- Metadata word of a line: CHECK, WGEN, MVAL, POIS (04, Metadata). -/
def metaWord (chk : BitVec 24) (wgen : BitVec 4) (mval : BitVec 2) (pois : Bool) : Word :=
  chk ++ wgen ++ mval ++ (BitVec.ofBool pois) ++ 0#1

/-- CHECK, WGEN, MVAL and POIS of a metadata word. -/
def mCheck (m : Word) : BitVec 24 := m.extractLsb' 8 24
@[inherit_doc mCheck] def mWgen (m : Word) : BitVec 4 := m.extractLsb' 4 4
@[inherit_doc mCheck] def mVal (m : Word) : BitVec 2 := m.extractLsb' 2 2
@[inherit_doc mCheck] def mPois (m : Word) : Bool := m.getLsbD 1

/-! ### The field GF(2^16) -/

/-- Multiplication by α = x modulo x^16 + x^12 + x^3 + x + 1 (R124). -/
def gfX (a : BitVec 16) : BitVec 16 := if a.getLsbD 15 then (a <<< 1) ^^^ 0x100B else a <<< 1

/-- The product of two field elements. -/
def gfMul (a b : BitVec 16) : BitVec 16 :=
  ((List.range 16).foldl (fun (p : BitVec 16 × BitVec 16) i =>
    (if b.getLsbD i then p.1 ^^^ p.2 else p.1, gfX p.2)) (0, a)).1

/-- A power of a field element. -/
def gfPow (a : BitVec 16) : Nat → BitVec 16
  | 0 => 1
  | n + 1 => gfMul a (gfPow a n)

/-- The inverse of a field element, 0 for 0. -/
def gfInv (a : BitVec 16) : BitVec 16 :=
  ((List.range 15).foldl (fun (p : BitVec 16 × BitVec 16) _ =>
    let sq := gfMul p.2 p.2
    (gfMul p.1 sq, sq)) (1, a)).1

/-- The locator α^(39 − i) of symbol i (R124). -/
def locator (i : Nat) : BitVec 16 := gfPow 2 (39 - i)

/-- Symbol i of a codeword (R120). -/
def symbolOf (c : Codeword) (i : Nat) : BitVec 16 := c.extractLsb' (16 * i) 16

/-! ### Encoder and syndromes -/

/-- One step of the division by g(x); the remainder is held highest coefficient first (R124). -/
def encStep (r : List (BitVec 16)) (m : BitVec 16) : List (BitVec 16) :=
  let fb := m ^^^ r.headD 0
  List.zipWith (fun a g => a ^^^ gfMul fb g) (r.drop 1 ++ [0]) [0x003F, 0x0326, 0x1BD8, 0x64C0, 0xFC00, 0x8000]

/-- The 34 symbols of a line and its metadata (R120). -/
def messageSyms (data : Line) (mta : Word) : List (BitVec 16) :=
  let c : BitVec 544 := mta ++ data
  (List.range 34).map fun i => c.extractLsb' (16 * i) 16

/-- The check symbols 34 to 39 (R124). -/
def checkSyms (ms : List (BitVec 16)) : List (BitVec 16) := ms.foldl encStep [0, 0, 0, 0, 0, 0]

/-- The codeword of a line and its metadata (R120, R124). -/
def encode (data : Line) (mta : Word) : Codeword :=
  let chk := checkSyms (messageSyms data mta)
  let low : Codeword := (mta ++ data : BitVec 544).setWidth 640
  (List.range 6).foldl (fun c k => c ||| (((chk.getD k 0).setWidth 640) <<< (16 * (34 + k)))) low

/-- The data and the metadata of a codeword (R120). -/
def cwData (c : Codeword) : Line := c.extractLsb' 0 512
@[inherit_doc cwData] def cwMeta (c : Codeword) : Word := c.extractLsb' 512 32

/-- Syndrome j: the received word evaluated at α^j, by Horner's rule over symbols 0 to 39 (R124). -/
def syndrome (c : Codeword) (j : Nat) : BitVec 16 :=
  let a := gfPow 2 j
  (List.range 40).foldl (fun acc i => gfMul acc a ^^^ symbolOf c i) 0

/-- The six syndromes (R124). -/
def syndromes (c : Codeword) : List (BitVec 16) := (List.range 6).map (syndrome c)

/-! ### Decoder -/

/-- The coefficients, lowest first, of the product of (x + X) over a list of locators. -/
def locPoly : List (BitVec 16) → List (BitVec 16)
  | [] => [1]
  | x :: r =>
    let p := locPoly r
    List.zipWith (· ^^^ ·) (p.map (gfMul x) ++ [0]) (0 :: p)

/-- The sum of products of two lists. -/
def dotGf (a b : List (BitVec 16)) : BitVec 16 := (List.zipWith gfMul a b).foldl (· ^^^ ·) 0

/-- The value at symbol `p` of the error that has the given syndromes and lies on the symbols `ps`. -/
def errValue (ss : List (BitVec 16)) (ps : List Nat) (p : Nat) : BitVec 16 :=
  let l := locPoly ((ps.filter (· ≠ p)).map locator)
  let x := locator p
  gfMul (dotGf l ss) (gfInv (dotGf l ((List.range l.length).map (gfPow x))))

/-- The error values on the symbols `ps`, when they meet all six syndromes (R125). -/
def solveAt (ss : List (BitVec 16)) (ps : List Nat) : Option (List (Nat × BitVec 16)) :=
  let es := ps.map fun p => (p, errValue ss ps p)
  let ok := (List.range 6).all fun j =>
    es.foldl (fun a e => a ^^^ gfMul e.2 (gfPow (locator e.1) j)) 0 == ss.getD j 0
  if ok then some es else none

/-- The strictly rising lists of `n` symbols from those given. -/
def choose : Nat → List Nat → List (List Nat)
  | 0, _ => [[]]
  | _ + 1, [] => []
  | n + 1, x :: r => (choose n r).map (x :: ·) ++ choose (n + 1) r

/-- The solution with the fewest unknown errors, up to `max`, besides the erased symbols (R125). -/
def solve (ss : List (BitVec 16)) (erased : List Nat) (max : Nat) : Option (List (Nat × BitVec 16) × Nat) :=
  (List.range (max + 1)).findSome? fun n =>
    (choose n ((List.range 40).filter fun i => !erased.contains i)).findSome? fun ps =>
      (solveAt ss (erased ++ ps)).map fun es => (es, n)

/-- The four symbols of device d (R120). -/
def deviceSyms (d : Nat) : List Nat := [4 * d, 4 * d + 1, 4 * d + 2, 4 * d + 3]

/-- The outcomes of a decode (R125). -/
inductive Dec where
  | clean
  /-- corrected, with the number of unknown symbol errors found -/
  | fixed (c : Codeword) (unknown : Nat)
  | failed
  deriving DecidableEq, Repr

/-- A codeword with errors taken off. -/
def applyErrs (c : Codeword) (es : List (Nat × BitVec 16)) : Codeword :=
  es.foldl (fun (c : Codeword) e => c ^^^ ((e.2.setWidth 640 : Codeword) <<< (16 * e.1))) c

/-- The decode of a codeword with the marked device, if any, as erasure set (R125). -/
def decode (c : Codeword) (marked : Option Nat) : Dec :=
  let ss := syndromes c
  if ss.all (· == 0) then .clean
  else
    match marked with
    | none =>
      (match solve ss [] 3 with
       | some (es, n) => .fixed (applyErrs c es) n
       | none => .failed)
    | some d =>
      (match solve ss (deviceSyms d) 1 with
       | some (es, n) => .fixed (applyErrs c es) n
       | none => .failed)

/-- The devices whose erasure alone meets the syndromes: the trials of first-failure location that fit (R129). -/
def fittingDevices (c : Codeword) : List Nat :=
  (List.range 10).filter fun d => (solveAt (syndromes c) (deviceSyms d)).isSome

/-! ### Beats (R120, R121) -/

/-- The nibble of a codeword that lies on device `d` in DRAM beat `t`: DQ n mod 4 of bit n of symbol 4 d + t / 4 (R120). -/
def beatNibble (c : Codeword) (d t : Nat) : BitVec 4 := c.extractLsb' (4 * (16 * d + t)) 4

/-- The eight interface beats of a codeword: DRAM beat t lies at [40 t + 39 : 40 t], device d on its bits [4 d + 3 : 4 d] (R120, R121). -/
def toBeats (c : Codeword) : LineBeats :=
  (List.range 160).foldl (fun b k => b ||| ((beatNibble c (k % 10) (k / 10)).setWidth 640 <<< (4 * k))) 0

/-- The codeword that eight interface beats carry (R120, R121). -/
def ofBeats (b : LineBeats) : Codeword :=
  (List.range 160).foldl (fun c k => c ||| ((b.extractLsb' (4 * (10 * (k % 16) + k / 16)) 4).setWidth 640 <<< (4 * k))) 0

/-- Interface beat `m` of a line (R121). -/
def beatOf (b : LineBeats) (m : Nat) : BitVec 80 := b.extractLsb' (80 * m) 80

end Sys2Proof.Machine
end

