-- ==== Sys2Proof/Machine/Seg.lean ====
section
/-! DEFINITION. Segment-table entries (03, R87 to R90, R114) and the place of a line on its channel (04, R116, R117,
R144, R146). -/

namespace Sys2Proof.Machine

/-- A field of a 32-bit word. -/
def wordFld (w : Word) (lo n : Nat) : Nat := (w.toNat / 2 ^ lo) % 2 ^ n

/-- Fields of words 0 to 2 of a segment-table entry (R87). -/
def segVALID (w0 : Word) : Bool := w0.getLsbD 31
@[inherit_doc segVALID] def segREMOTE (w0 : Word) : Bool := w0.getLsbD 30
@[inherit_doc segVALID] def segMIRR (w0 : Word) : Bool := w0.getLsbD 29
@[inherit_doc segVALID] def segCOMP (w0 : Word) : Bool := w0.getLsbD 28
@[inherit_doc segVALID] def segCRYPT (w0 : Word) : Bool := w0.getLsbD 27
@[inherit_doc segVALID] def segCMDSEG (w0 : Word) : Bool := w0.getLsbD 26
@[inherit_doc segVALID] def segCLASS (w0 : Word) : Nat := wordFld w0 24 2
@[inherit_doc segVALID] def segHPMASK (w0 : Word) : Nat := wordFld w0 20 4
@[inherit_doc segVALID] def segHOMEPAIR (w0 : Word) : Nat := wordFld w0 16 4
@[inherit_doc segVALID] def segKEYGEN (w0 : Word) : BitVec 8 := w0.extractLsb' 8 8
@[inherit_doc segVALID] def segKEYIDX (w1 : Word) : BitVec 10 := w1.extractLsb' 16 10
@[inherit_doc segVALID] def segCHLOG (w1 : Word) : Nat := wordFld w1 8 3
@[inherit_doc segVALID] def segCHBASE (w1 : Word) : Nat := wordFld w1 0 5
@[inherit_doc segVALID] def segFPORT (w2 : Word) : BitVec 4 := w2.extractLsb' 16 4
@[inherit_doc segVALID] def segMBASE (w2 : Word) : Nat := wordFld w2 0 8

/-- The segment number of a pool address. -/
def segOf (a : PAddr) : Nat := a.toNat / 2 ^ 36
/-- The line address of a pool address (03, Segment table). -/
def lineAddr (a : PAddr) : PAddr := a &&& ~~~0x3F#48

/-- The causes of R88 but the entry ECC, of words 0 to 2. -/
def segValid (w0 w1 w2 : Word) : Bool :=
  segVALID w0 && decide (segCLASS w0 < 2) && decide (segCHLOG w1 ≤ 5) &&
  decide (segCHBASE w1 % 2 ^ segCHLOG w1 = 0) && decide (segMBASE w2 % (32 / 2 ^ segCHLOG w1) = 0) &&
  !(segCMDSEG w0 && (segREMOTE w0 || segMIRR w0 || segCOMP w0))

/-- The window offset of word `n` of a segment's entry (R87). -/
def segOff (seg n : Nat) : Nat := 0x100000 + 16 * seg + 4 * n
/-- Word `n` of a segment's entry as a lookup of this cycle sees it: a write of the same cycle does not show (R89). -/
def Blk.segWord0 (s : Blk) (seg n : Nat) : Word := s.rd0 (segOff seg n)
/-- Word `n` of a segment's entry. -/
def Blk.segWord (s : Blk) (seg n : Nat) : Word := s.rd (segOff seg n)
/-- Whether a word of the entry holds an uncorrectable error (R88). -/
def Blk.segEcc (s : Blk) (seg : Nat) : Bool := (List.range 4).any fun n => (pget s.segBad (4 * seg + n)).isSome
/-- The same as a lookup of this cycle sees it (R89): an error that a write of this cycle has removed is kept beside the old word. -/
def Blk.segEcc0 (s : Blk) (seg : Nat) : Bool :=
  s.segEcc seg || (List.range 4).any fun n => (pget s.freshNow.sw (segOff seg n + 1)).isSome
/-- Whether a segment's entry is valid under R88. -/
def Blk.segOk (s : Blk) (seg : Nat) : Bool :=
  !s.segEcc seg && segValid (s.segWord seg 0) (s.segWord seg 1) (s.segWord seg 2)

/-- The class code of a segment's class (R61, R87). -/
def segOwner (w0 : Word) : Nat := segCLASS w0 + 1

/-- The fold of a number's lowest `n` groups of six bits. -/
def fold6 (n x : Nat) : Nat := (List.range n).foldl (fun a i => a ^^^ (x / 2 ^ (6 * i) % 64)) 0

/-- Channel and CL of a line of a segment with COMP = 0 (R116). -/
def linePlace (w1 w2 : Word) (a : PAddr) : Nat × Nat :=
  let l := a.toNat / 64 % 2 ^ 30
  let n := segCHLOG w1
  (segCHBASE w1 + fold6 5 l % 2 ^ n, segMBASE w2 * 2 ^ 25 + l / 2 ^ n)

/-- Channel and index of a page of a segment with COMP = 1 (R117). -/
def pagePlace (w1 : Word) (a : PAddr) : Nat × Nat :=
  let p := a.toNat / 4096 % 2 ^ 24
  let n := segCHLOG w1
  (segCHBASE w1 + fold6 4 p % 2 ^ n, p / 2 ^ n)

/-- The first CL of a segment's share on each channel of its set (R87). -/
def shareBase (w2 : Word) : Nat := segMBASE w2 * 2 ^ 25
/-- The lines of a segment's share on a channel. -/
def shareSize (w1 : Word) : Nat := 2 ^ (30 - segCHLOG w1)

/-- The channel of a line, whose engine work goes to the bay of the same number (R19). -/
def lineChan (w0 w1 w2 : Word) (a : PAddr) : Nat := if segCOMP w0 then (pagePlace w1 a).1 else (linePlace w1 w2 a).1

/-- The bay to which the work on a line is dispatched: that of the line's channel, for a segment homed elsewhere that of the segment (R19); of an
entry that no bay holds, BAY of the ledger is this bay too (log 148). -/
def workBay (w0 w1 w2 : Word) (a : PAddr) : Nat := if segREMOTE w0 then segOf a % 32 else lineChan w0 w1 w2 a % 32

/-- The pool address of line `i` of the page with index `pj` on a channel, the inverse of R117: the channel bits select the
low bits of the page number. -/
def pageAddr (w1 : Word) (seg ch pj i : Nat) : PAddr :=
  let n := segCHLOG w1
  let hi := pj * 2 ^ n
  let low := (ch - segCHBASE w1) ^^^ (fold6 4 hi % 2 ^ n)
  BitVec.ofNat 48 (seg * 2 ^ 36 + (hi + low) * 4096 + 64 * i)

/-- The pool address of line `u` of a segment's share on a channel, the inverse of R116. -/
def shareAddr (w1 : Word) (seg ch u : Nat) : PAddr :=
  let n := segCHLOG w1
  let hi := u * 2 ^ n
  let low := (ch - segCHBASE w1) ^^^ (fold6 5 hi % 2 ^ n)
  BitVec.ofNat 48 (seg * 2 ^ 36 + (hi + low) * 64)

/-- The tier address of a share line (R146). -/
def tierAddr (seg ch off : Nat) : PAddr := BitVec.ofNat 48 (seg * 2 ^ 36 + 2 ^ 35 + ch * 2 ^ 30 + off)

/-- The metadata of a tier line (R146). -/
def tierMeta (data : Line) (seg ch off : Nat) (key : BitVec 8) : Word :=
  metaWord (mint data (tierAddr seg ch off) (~~~key)) 0 0 false

/-- A write of a segment-table word: restricted while VALID is 1, unless a word of the entry holds an uncorrectable error;
a performed write gives its word fresh check bits (R88, R90). -/
def Blk.wrSegWord (s : Blk) (seg n : Nat) (v : Word) : Blk :=
  let off := segOff seg n
  let old := s.rd off
  let fields := BitVec.ofNat 32 (tableWordMask .segTable off)
  let new := v &&& fields
  if segVALID (s.segWord seg 0) && !s.segEcc seg then
    let may : Word := if n = 0 then 0x83F00000 else 0
    let s := if (new ^^^ old) &&& ~~~may = 0 then s
      else (List.range 4).foldl (fun s p => s.hwSet (F.HP_STAT_SEGREF p)) s
    s.wr off ((old &&& ~~~may) ||| (new &&& may))
  else
    let s := if (pget s.segBad (4 * seg + n)).isSome then
        { s with fresh := { s.freshNow with sw := pset s.freshNow.sw (off + 1) 1 } } else s
    { s.wr off new with segBad := pdel s.segBad (4 * seg + n) }

end Sys2Proof.Machine
end

