-- ==== Sys2Proof/Machine/Media.lean ====
section
/-! DEFINITION. The slices of the Media Unit (04): channel queues, issue (R65 to R67), codec outcomes (R122 to R133),
controller errors, poison list and fencing (R134 to R136), maintenance runs (R137), scrub (R141 to R143), retirement of a
channel (R568 to R570) and their registers. -/

namespace Sys2Proof.Machine

/-- The state of slice `c`. -/
def Blk.slice (s : Blk) (c : Nat) : Slice := tget (fun _ => Slice.reset) s.mu c
/-- Slice `c` takes a state. -/
def Blk.setSlice (s : Blk) (c : Nat) (x : Slice) : Blk := { s with mu := tset (fun _ => Slice.reset) s.mu c x }

/-- The populated capacity of a channel in lines (R118). -/
def Blk.capacity (s : Blk) (c : Nat) : Nat :=
  2 ^ (13 + s.fld (F.MU_GEOM_RANKLOG c) + s.fld (F.MU_GEOM_DIMMLOG c) + s.fld (F.MU_GEOM_ROWBITS c))

/-- The DDR5 address of a CL (R118). -/
def Blk.ddrAddr (s : Blk) (c cl : Nat) : DdrAddr :=
  let rl := s.fld (F.MU_GEOM_RANKLOG c)
  let dl := s.fld (F.MU_GEOM_DIMMLOG c)
  { sub := cl % 2, bg := cl / 2 % 8, bank := cl / 2 ^ 4 % 4, col := cl / 2 ^ 6 % 128, rank := cl / 2 ^ 13 % 2 ^ rl,
    dimm := cl / 2 ^ (13 + rl) % 2 ^ dl, row := cl / 2 ^ (13 + rl + dl) % 2 ^ s.fld (F.MU_GEOM_ROWBITS c) }

/-- The device-failure map entry of a CL: {DIMM, rank, subchannel} (R118, R152). -/
def Blk.mapIdx (s : Blk) (c cl : Nat) : Nat :=
  let a := s.ddrAddr c cl
  a.dimm * 8 + a.rank * 2 + a.sub

/-- The device that the map marks for a CL, as a decode of this cycle sees it: neither a mark nor a write of the same cycle shows (R131). -/
def Blk.marked (s : Blk) (c cl : Nat) : Option Nat :=
  let n := s.mapIdx c cl
  if (tget (fun _ => Slice.reset) s.mu c).marked = some (s.now, n) then none
  else if s.bit0 (F.MU_DFM_VALID c n) then some (s.fld0 (F.MU_DFM_DEV c n)) else none

/-- Event source 187 + 2c with a code, a CL and a device (R154); `count` where R575 counts the line. -/
def Blk.muErr (s : Blk) (c code cl : Nat) (dev : Option Nat) (count : Bool := false) : Blk :=
  let s := s.setFld (F.MU_ERR_CL_LO_CL c) (cl % 2 ^ 32)
  let s := s.setFld (F.MU_ERR_CL_HI_CL c) (cl / 2 ^ 32)
  let s := if count then s.bump (F.MU_UE_CNT_COUNT c) else s
  s.raise (187 + 2 * c) (some (code, (dev.getD 15) * 2 ^ 28 + s.mapIdx c cl * 2 ^ 24))

/-- Event source 187 + 2c for a change of the channel's service (R568, R569). -/
def Blk.muRet (s : Blk) (c code : Nat) : Blk := s.raise (187 + 2 * c) (some (code, 15 * 2 ^ 28))

/-- RETIRED and FENCE of a channel. -/
def Blk.retired (s : Blk) (c : Nat) : Bool := s.bit (F.MU_RET_CTRL_RETIRED c)
@[inherit_doc Blk.retired] def Blk.fenced (s : Blk) (c : Nat) : Bool := s.bit (F.MU_CTRL_FENCE c)

/-! ### Poison list -/

/-- Whether a CL is in the poison list (R135). -/
def Blk.listed (s : Blk) (c cl : Nat) : Bool := (s.slice c).pl.any fun p => p.2 == cl

/-- The poison list of a slice takes a content; PLUSE counts it. -/
def Blk.setPl (s : Blk) (c : Nat) (pl : List (Nat × Nat)) : Blk :=
  (s.setSlice c { s.slice c with pl := pl }).setFld (F.MU_STAT_PLUSE c) pl.length

/-- A CL leaves the poison list (R135). -/
def Blk.unlist (s : Blk) (c cl : Nat) : Blk :=
  if s.listed c cl then s.setPl c ((s.slice c).pl.filter fun p => p.2 != cl) else s

/-- A CL enters the lowest free place of the poison list (R135). -/
def Blk.listCl (s : Blk) (c cl : Nat) : Blk :=
  if s.listed c cl then s
  else
    match (List.range 64).find? fun i => (pget (s.slice c).pl i).isNone with
    | some i => s.setPl c (pset (s.slice c).pl i cl)
    | none => s

/-! ### Answers -/

/-- Q(K, c) of a class and channel under its key. -/
def qKey (k c : Nat) : Nat := 32 * k + c
/-- Q(K, c) (R98). -/
def Blk.qOf (s : Blk) (k c : Nat) : Nat := tget (fun _ => 0) s.qCnt (qKey k c)
/-- A Direct Path request leaves the queue (R98). -/
def Blk.qDrop (s : Blk) (c : Nat) (r : MReq) : Blk :=
  if r.q then { s with qCnt := tset (fun _ => 0) s.qCnt (qKey r.cls c) (s.qOf r.cls c - 1) } else s

/-- A maintenance run ends when every line of it has been issued and has completed (R137). -/
def Blk.mntEnd (s : Blk) (c : Nat) : Blk :=
  let m := (s.slice c).mnt
  if s.bit (F.MU_MNT_CTRL_BUSY c) && m.togo == 0 && m.out == 0 then
    ((s.clr1 (F.MU_MNT_CTRL_BUSY c)).clr1 (F.MU_MNT_CTRL_GO c)).hwSet (F.MU_MNT_CTRL_DONE c)
  else s

/-- A line of a maintenance run completes (R137). -/
def Blk.mntLine (s : Blk) (c : Nat) (ok : Bool) : Blk :=
  let x := s.slice c
  let s := s.setSlice c { x with mnt := { x.mnt with out := x.mnt.out - 1 } }
  let s := if ok then s.setFld (F.MU_MNT_LEFT_LEFT c) (s.fld (F.MU_MNT_LEFT_LEFT c) - 1) else s
  s.mntEnd c

/-- The answer to a line write goes to its work. -/
def Blk.wrAns (s : Blk) (c : Nat) (r : MReq) (o : WrOut) : Blk :=
  let s := s.qDrop c r
  match r.purp with
  | .maint => s.mntLine c (o == .acked)
  | .scrub | .scrubWb => s
  | _ => { s with ans := s.ans ++ [.wr r o] }

/-- The answer to a line read goes to its work. -/
def Blk.rdAns (s : Blk) (c : Nat) (r : MReq) (o : RdOut) : Blk :=
  let s := s.qDrop c r
  match r.purp with
  | .maint | .scrub | .scrubWb => s
  | _ => { s with ans := s.ans ++ [.rd r o] }

/-- The answer that a fenced or retired channel gives without issue (R136, R569). -/
def Blk.shutAns (s : Blk) (c : Nat) (r : MReq) : Blk :=
  if s.retired c then (if r.wr then s.wrAns c r .acked else s.rdAns c r .bad)
  else if r.wr then ((s.listCl c r.cl).wrAns c r .refused) else s.rdAns c r .bad

/-- Every queued request of a channel is answered without issue (R136, R569). -/
def Blk.flush (s : Blk) (c : Nat) : Blk :=
  let x := s.slice c
  x.queue.foldl (fun s r => s.shutAns c r) (s.setSlice c { x with queue := [] })

/-- The slice sets FENCE (R136). -/
def Blk.fenceUp (s : Blk) (c : Nat) : Blk := if s.fenced c then s else (s.set1 (F.MU_CTRL_FENCE c)).flush c

/-- A write is refused by the media: poison list, or fence when it is full (R135, R136). -/
def Blk.refuse (s : Blk) (c : Nat) (r : MReq) : Blk :=
  let full := decide (64 ≤ (s.slice c).pl.length) && !s.listed c r.cl
  if full && !s.fenced c then ((s.muErr c 6 r.cl none).wrAns c r .refused).fenceUp c
  else (s.listCl c r.cl).wrAns c r .refused

/-! ### Queue and issue -/

/-- A request's place in the channel queue: the order in which requests enter it. -/
def insertReq (r : MReq) : List MReq → List MReq
  | [] => [r]
  | x :: q => if r.enter < x.enter then r :: x :: q else x :: insertReq r q

/-- A line command comes to the channel queue: answered at once on a retired or fenced channel (R136, R569) and beyond
the populated capacity (R118), else queued. -/
def Blk.enqueue (s : Blk) (c : Nat) (r : MReq) : Blk :=
  if s.retired c then s.shutAns c r
  else if s.fenced c then
    (if r.wr && decide (s.capacity c ≤ r.cl) then s.wrAns c r .refused else s.shutAns c r)
  else if s.capacity c ≤ r.cl then
    (if r.wr then (s.muErr c 7 r.cl none).wrAns c r .refused else (s.muErr c 7 r.cl none true).rdAns c r .bad)
  else
    let x := s.slice c
    s.setSlice c { x with queue := insertReq r x.queue }

/-- The power consumer of a media class (R484). -/
def classConsumer (o : Nat) : Nat := o - 1

/-- A write to a CL overtakes the scrubber's work on it (R142). -/
def Blk.staleScrub (s : Blk) (c cl : Nat) : Blk :=
  let x := s.slice c
  let mark (r : MReq) : MReq := if (r.purp = .scrub ∨ r.purp = .scrubWb) ∧ r.cl = cl then { r with stale := true } else r
  s.setSlice c { x with scrub := { x.scrub with wb := x.scrub.wb.filter fun w => w.1 != cl }
                        queue := (x.queue.map mark).filter fun r => !(r.stale && r.purp == .scrubWb)
                        out := x.out.map fun o => (o.1, mark o.2) }

/-- The tag of the next line command: the lowest that no outstanding command carries, 64 when all do (R119; the choice of the tag is the
model's, log 151). -/
def Slice.freeTag (x : Slice) : Nat := ((List.range 64).find? fun t => (pget x.out t).isNone).getD 64

/-- A command is issued: it is charged to its class (R27), metered (R477), sent to the channel controller (R119) and waits for it. -/
def Blk.issue (s : Blk) (c : Nat) (r : MReq) : Blk :=
  let s := ((s.charge r.cls c).spend (classConsumer r.cls)).qDrop c r
  let s := if r.wr then s.staleScrub c r.cl else s
  let x := s.slice c
  let t := x.freeTag
  let cmd : LineCmd := { wr := r.wr, addr := s.ddrAddr c r.cl, tag := BitVec.ofNat 6 t,
                         beats := if r.wr then some (toBeats (encode r.data r.mta)) else none }
  s.setSlice c { x with out := pset x.out t { r with q := false }, sent := pset x.sent t cmd }

/-- Whether the budget of class `o` lets a transfer issue on a channel (R66, R28), and a command tag is free (R119). -/
def Blk.hasBudget (s : Blk) (o c : Nat) : Bool := s.fld (liveFld o c) != 0 && decide ((s.slice c).freeTag < 64)

/-- The first of the queue that satisfies `p`, and the queue without it. -/
def takeReq (p : MReq → Bool) : List MReq → Option (MReq × List MReq)
  | [] => none
  | r :: q => if p r then some (r, q) else (takeReq p q).map fun t => (t.1, r :: t.2)

/-- Issue of queued requests that satisfy `p`, at most `n`, oldest first (R66). -/
def Blk.issueQ (s : Blk) (c : Nat) (gate : Bool) (p : MReq → Bool) : Nat → Blk
  | 0 => s
  | n + 1 =>
    match takeReq p (s.slice c).queue with
    | none => s
    | some (r, q) =>
      if gate && s.hasBudget r.cls c && decide (r.enter < s.now) then
        ((s.setSlice c { s.slice c with queue := q }).issue c r).issueQ c gate p n
      else s

/-- A line command of the slice's own work (R137, R141). -/
def ownReq (cls : Nat) (wr : Bool) (cl : Nat) (data : Line) (mta : Word) (p : Purp) (now : Nat) : MReq :=
  { cls := cls, wr := wr, cl := cl, data := data, mta := mta, purp := p, key := none, taddr := 0, enter := now,
    q := false, again := false, stale := false }

/-! ### Scrubber -/

/-- Whether SUB lets class S reach a subchannel (R62). -/
def subAllows (sub x : Nat) : Bool := sub == 0 || x + 1 == sub

/-- One entry of a list of two takes a truth value. -/
def setNth (l : List Bool) (i : Nat) (b : Bool) : List Bool := l.set i b

/-- The pointer of a subchannel moves past a scrub read (R141). -/
def Blk.scrubMove (s : Blk) (c sub : Nat) (ptr : Nat) : Blk :=
  let base := s.fld (F.MU_SCR_BASE_BASE c) * 32
  let limit := s.fld (F.MU_SCR_LIMIT_LIMIT c) * 32
  let wraps := decide (ptr + 1 = limit)
  let s := s.setFld (if sub = 0 then F.MU_SCR_PTR0_PTR c else F.MU_SCR_PTR1_PTR c) (if wraps then base else ptr + 1)
  let x := s.slice c
  let iss := setNth x.scrub.issued sub true
  let wrp := if wraps then setNth x.scrub.wrapped sub true else x.scrub.wrapped
  let full := (List.zipWith (fun i w => !i || w) iss wrp).all id
  let s := s.setSlice c { x with scrub := { x.scrub with
    issued := if full then [false, false] else iss, wrapped := if full then [false, false] else wrp } }
  if full then s.setFld (F.MU_SCR_PASS_PASS c) (s.fld (F.MU_SCR_PASS_PASS c) + 1) else s

/-- One transfer of class S: a reissue, else a pending write-back that the slot allows, else a scrub read (R141, R142).  On a fenced channel
neither is issued (R136).  A read that is not issued, there or beyond the capacity (R118), still takes its turn and moves its pointer, which the
spec leaves open (log 153). -/
def Blk.scrubOne (s : Blk) (c sub : Nat) (gate : Bool) : Blk :=
  let x := s.slice c
  if !(gate && s.hasBudget 5 c) then s
  else
    match takeReq (fun r => r.cls == 5 && subAllows sub (r.cl % 2) && decide (r.enter < s.now)) x.queue with
    | some (r, q) => (s.setSlice c { x with queue := q }).issue c r
    | none =>
      if !s.bit (F.MU_CTRL_SCREN c) then s
      else
        match x.scrub.wb.find? fun w => subAllows sub (w.1 % 2) with
        | some w =>
          let s := s.setSlice c { x with scrub := { x.scrub with wb := x.scrub.wb.filter fun u => u != w } }
          if s.fenced c then s.shutAns c (ownReq 5 true w.1 w.2.1 w.2.2 .scrubWb s.now)
          else (s.issue c (ownReq 5 true w.1 w.2.1 w.2.2 .scrubWb s.now)).bump (F.MU_SCR_FIX_COUNT c)
        | none =>
          let base := s.fld (F.MU_SCR_BASE_BASE c) * 32
          let limit := s.fld (F.MU_SCR_LIMIT_LIMIT c) * 32
          if limit ≤ base then s
          else
            let k := if sub = 0 then x.scrub.turn else sub - 1
            let s := if sub = 0 then s.setSlice c { x with scrub := { x.scrub with turn := 1 - x.scrub.turn } } else s
            let p := s.fld (if k = 0 then F.MU_SCR_PTR0_PTR c else F.MU_SCR_PTR1_PTR c)
            let p := if p < base ∨ limit ≤ p then base else p
            let cl := 2 * p + k
            let s := if s.fenced c then s else if s.capacity c ≤ cl then s.muErr c 7 cl none true
              else s.issue c (ownReq 5 false cl 0 0 .scrub s.now)
            s.scrubMove c k p

/-- Up to `n` transfers of class S in a window. -/
def Blk.issueS (s : Blk) (c sub : Nat) (gate : Bool) : Nat → Blk
  | 0 => s
  | n + 1 => (s.scrubOne c sub gate).issueS c sub gate n

/-! ### Maintenance run -/

/-- One write of the maintenance run: a reissue, else the next line; on a fenced channel the line is refused without issue
(R136, R137). -/
def Blk.mntOne (s : Blk) (c : Nat) (gate : Bool) : Blk :=
  let x := s.slice c
  let next := s.bit (F.MU_MNT_CTRL_BUSY c) && x.mnt.togo != 0
  let line : MReq := ownReq 7 true x.mnt.next 0 (s.rd (F.MU_MNT_META_off c) &&& 0xFFFFFFFE) .maint s.now
  let x' := { x with mnt := { next := x.mnt.next + 1, togo := x.mnt.togo - 1, out := x.mnt.out + 1 } }
  if s.fenced c then (if next then (s.setSlice c x').shutAns c line else s)
  else if !(gate && s.hasBudget 7 c) then s
  else
    match takeReq (fun r => r.cls == 7 && decide (r.enter < s.now)) x.queue with
    | some (r, q) => (s.setSlice c { x with queue := q }).issue c r
    | none => if next then (s.setSlice c x').issue c line else s

/-- Up to `n` writes of the maintenance run in a window. -/
def Blk.issueX (s : Blk) (c : Nat) (gate : Bool) : Nat → Blk
  | 0 => s
  | n + 1 => (s.mntOne c gate).issueX c gate n

/-! ### Issue windows -/

/-- The active byte of a channel in this slot, read as idle on a parity error, which is reported (R64). -/
def Blk.slotLookup (s : Blk) (c : Nat) (parity : Bool) : Blk × Nat :=
  let slot := s.tb.slot.toNat
  let act := s.fld F.SC_TBL_STAT_ACT
  let off := slotByteOff act slot c
  if parity || s.sched.badParity.contains off then
    let known := s.sched.badParity.contains off
    let s := if known then s else { s with sched := { s.sched with badParity := off :: s.sched.badParity } }
    let s := if parity || s.now == s.tb.slotAt then
        s.raise 33 (some (0x20, act * 2 ^ 16 + slot * 2 ^ 6 + c)) else s
    (s, 0)
  else (s, s.slotByte slot c)

/-- What the owner of the slot issues in a window in which the controller accepts `accept` commands (R62, R66, R67). -/
def Blk.issueOwner (s : Blk) (c : Nat) (o : SlotOwner) (accept : Nat) : Blk :=
  let n := min o.lim accept
  let gate := s.gateOpen (classConsumer o.owner)
  match o.owner with
  | 0 => s
  | 5 => s.issueS c o.sub gate n
  | 7 => if o.sub = 1 then s.issueX c gate n else s
  | k => s.issueQ c gate (fun r => r.cls == k) n

/-- Whether an issue window opens on a channel in this cycle: slots run, and the cycle is 8 k after the slot boundary (R43,
R65); each window opens once. -/
def Blk.windowOpens (s : Blk) (c : Nat) : Bool :=
  decide (2 ≤ s.tbState) && decide (s.tb.slotAt ≤ s.now) && (s.now - s.tb.slotAt) % 8 == 0 &&
  (s.slice c).winAt != some s.now

/-- An issue window of a channel, and the owner that its lookup gives, 0 where no window opens. -/
def Blk.window (s : Blk) (c accept : Nat) (parity : Bool) : Blk × Nat :=
  if s.windowOpens c then
    let s := s.setSlice c { s.slice c with winAt := some s.now }
    let (s, byte) := s.slotLookup c parity
    (if s.bit (F.MU_CTRL_EN c) && !s.retired c then s.issueOwner c (slotOwner byte) accept else s, (slotOwner byte).owner)
  else (s, 0)

/-! ### Codec and controller -/

/-- A corrected line that R125 counts; the threshold event (R151, R154). -/
def Blk.countCe (s : Blk) (c : Nat) : Blk :=
  let s := s.bump (F.MU_CE_CNT_COUNT c)
  let thr := s.fld (F.MU_CE_THR_THR c)
  if thr ≠ 0 ∧ s.fld (F.MU_CE_CNT_COUNT c) = thr then s.raise (186 + 2 * c) else s

/-- An uncorrectable decode: count, first-failure location, UECNT and DOUBLE (R125, R129, R132, R575). -/
def Blk.decodeFails (s : Blk) (c cl : Nat) (cw : Codeword) : Blk :=
  let n := s.mapIdx c cl
  match s.marked c cl with
  | none =>
    let s := s.muErr c 1 cl none true
    if s.bit (F.MU_CTRL_LOCEN c) then
      let x := s.slice c
      s.setSlice c { x with loc := x.loc ++ [(s.now, cl, cw)] }
    else s
  | some d =>
    let s := s.muErr c 1 cl (some d) true
    let u := s.fld (F.MU_DFM_UECNT c n)
    let s := s.bump (F.MU_DFM_UECNT c n)
    if u = 14 then (s.set1 (F.MU_DFM_DOUBLE c n)).muErr c 3 cl (some d) else s

/-- The decode of a codeword, with its counts and events: the line, whether symbols were corrected, and whether one of
them was an unknown error (R122, R125). -/
def Blk.codec (s : Blk) (c cl : Nat) (cw : Codeword) : Blk × RdOut × Bool :=
  let m := s.marked c cl
  let rest (s : Blk) (cw : Codeword) (fixed unk : Bool) : Blk × RdOut × Bool :=
    if (cwMeta cw).getLsbD 0 then (s.muErr c 5 cl m true, .bad, unk) else (s, .line (cwData cw) (cwMeta cw) fixed, unk)
  match decode cw m with
  | .clean => rest s cw false false
  | .fixed cw' n => rest (if m.isSome && n == 0 then s else s.countCe c) cw' true (!(m.isSome && n == 0))
  | .failed => (s.decodeFails c cl cw, .bad, false)

/-- The outcome of a scrub read: a corrected line is written back unless a write overtook it or only erased symbols were
corrected; an uncorrectable one is left (R142, R143). -/
def Blk.scrubbed (s : Blk) (c : Nat) (r : MReq) (o : RdOut) (unk : Bool) : Blk :=
  let x := s.slice c
  match o with
  | .line d m true =>
    if unk && !r.stale then s.setSlice c { x with scrub := { x.scrub with wb := x.scrub.wb ++ [(r.cl, d, m)] } } else s
  | _ => s

/-- A command of the slice that the controller completes or reports. -/
def Blk.takeOut (s : Blk) (c tag : Nat) : Option (Blk × MReq) :=
  match pget (s.slice c).out tag with
  | some r => some (s.setSlice c { s.slice c with out := pdel (s.slice c).out tag, sent := pdel (s.slice c).sent tag }, r)
  | none => none

/-- The last beat of a line read (R126, R135, R136). -/
def Blk.readDone (s : Blk) (c id : Nat) (cw : Codeword) : Blk :=
  match s.takeOut c id with
  | some (t, r) =>
    if r.wr then s
    else
      let (t, o, unk) := if t.fenced c then (t, .bad, false)
        else if t.listed c r.cl then (t, .listed, false) else t.codec c r.cl cw
      if r.purp = .scrub then t.scrubbed c r o unk else t.rdAns c r o
  | none => s

/-- A line write is acknowledged (R102, R135). -/
def Blk.writeDone (s : Blk) (c id : Nat) : Blk :=
  match s.takeOut c id with
  | some (t, r) => if r.wr then (t.unlist c r.cl).wrAns c r .acked else s
  | none => s

/-- The controller reports an error for a line command: one reissue, then failure (R134); a write-back that a write has
overtaken is not reissued (R142). -/
def Blk.ctrlError (s : Blk) (c id : Nat) : Blk :=
  match s.takeOut c id with
  | some (t, r) =>
    if t.retired c || t.fenced c then t.shutAns c r
    else if r.again then (if r.wr then t.refuse c r else (t.muErr c 8 r.cl (t.marked c r.cl) true).rdAns c r .bad)
    else if r.stale && r.purp == .scrubWb then t
    else
      let x := t.slice c
      t.setSlice c { x with queue := { r with again := true, enter := t.now } :: x.queue }
  | none => s

/-- The ten trials of the oldest location in progress give a result at +38 of its decode (R126, R129, R131); a firmware write of the entry in
the same cycle is ignored (R133). -/
def Blk.located (s : Blk) (c : Nat) : Blk :=
  match (s.slice c).loc with
  | [] => s
  | (t, cl, cw) :: rest =>
    if s.now < t + 38 then s
    else
      let s := s.setSlice c { s.slice c with loc := rest }
      let n := s.mapIdx c cl
      match fittingDevices cw with
      | [d] =>
        if s.bit0 (F.MU_DFM_VALID c n) || (s.slice c).marked == some (s.now, n) then s
        else
          let s := if (pget s.freshNow.sw (F.MU_DFM_off c n)).isSome then s.hwSet (F.MU_STAT_DFMREF c) else s
          let s := s.wr (F.MU_DFM_off c n) 0
          let s := (s.set1 (F.MU_DFM_VALID c n)).setFld (F.MU_DFM_DEV c n) d
          let s := s.setSlice c { s.slice c with marked := some (s.now, n) }
          s.muErr c 2 cl (some d)
      | _ => s

/-! ### Registers -/

/-- A write of MU_CTRL: FENCE set by a write of 1 fences without an event, and only a write of 0 clears it (R136); the
subchannel turns begin with 0 when SCREN is set (R141). -/
def Blk.wrMuCtrl (s : Blk) (c : Nat) (v : Word) : Blk :=
  let was := s.bit (F.MU_CTRL_SCREN c)
  let s := s.setFld (F.MU_CTRL_EN c) ((F.MU_CTRL_EN c).get v)
  let s := s.setFld (F.MU_CTRL_LOCEN c) ((F.MU_CTRL_LOCEN c).get v)
  let s := s.setFld (F.MU_CTRL_SCREN c) ((F.MU_CTRL_SCREN c).get v)
  let x := s.slice c
  let s := if !was && s.bit (F.MU_CTRL_SCREN c) then s.setSlice c { x with scrub := { x.scrub with turn := 0 } } else s
  if (F.MU_CTRL_FENCE c).get v = 1 then s.fenceUp c else s.clr1 (F.MU_CTRL_FENCE c)

/-- A write of MU_GEOM, refused while EN is 1 (R119, R151). -/
def Blk.wrMuGeom (s : Blk) (c : Nat) (v : Word) : Blk :=
  if s.bit (F.MU_CTRL_EN c) then s.hwSet (F.MU_STAT_CFGREF c)
  else
    let s := s.setFld (F.MU_GEOM_ROWBITS c) (min 17 (max 14 ((F.MU_GEOM_ROWBITS c).get v)))
    let s := s.setFld (F.MU_GEOM_RANKLOG c) (min 2 ((F.MU_GEOM_RANKLOG c).get v))
    s.setFld (F.MU_GEOM_DIMMLOG c) ((F.MU_GEOM_DIMMLOG c).get v)

/-- A firmware write of a map entry (R133, R152). -/
def Blk.wrDfm (s : Blk) (c n : Nat) (v : Word) : Blk :=
  let dev := (F.MU_DFM_DEV c n).get v
  if 9 < dev ∨ (s.slice c).marked = some (s.now, n) then s.hwSet (F.MU_STAT_DFMREF c)
  else if (F.MU_DFM_VALID c n).get v = 0 then (s.wr (F.MU_DFM_off c n) 0).set1 (F.MU_DFM_SRC c n)
  else ((s.set1 (F.MU_DFM_VALID c n)).set1 (F.MU_DFM_SRC c n)).setFld (F.MU_DFM_DEV c n) dev

/-- A write of the scrub range or a pointer, ignored while SCREN is 1 (R153). -/
def Blk.wrScr (s : Blk) (c off : Nat) (v : Word) : Blk := if s.bit (F.MU_CTRL_SCREN c) then s else s.plainWrite off v

/-- A write of MU_PL_IDX captures the entry (R153). -/
def Blk.wrPlIdx (s : Blk) (c : Nat) (v : Word) : Blk :=
  let i := (F.MU_PL_IDX_IDX c).get v
  let e := pget (s.slice c).pl i
  let s := (s.setFld (F.MU_PL_IDX_IDX c) i).setFld (F.MU_PL_LO_CL c) (e.getD 0 % 2 ^ 32)
  let s := (s.setFld (F.MU_PL_HI_CL c) (e.getD 0 / 2 ^ 32)).setBit (F.MU_PL_HI_VALID c) e.isSome
  s.setSlice c { s.slice c with plCap := some (i, e) }

/-- A write of MU_PL_HI: VALID written 1 removes the captured entry, unless it has changed (R153). -/
def Blk.wrPlHi (s : Blk) (c : Nat) (v : Word) : Blk :=
  if (F.MU_PL_HI_VALID c).get v = 0 then s
  else
    match (s.slice c).plCap with
    | none => s
    | some (i, e) =>
      if pget (s.slice c).pl i = e then
        let s := (s.setPl c (pdel (s.slice c).pl i)).clr1 (F.MU_PL_HI_VALID c)
        s.setSlice c { s.slice c with plCap := some (i, none) }
      else s.hwSet (F.MU_STAT_DFMREF c)

/-- A write of the maintenance registers, ignored while BUSY is 1 (R137). -/
def Blk.wrMntReg (s : Blk) (c off : Nat) (v : Word) : Blk :=
  if s.bit (F.MU_MNT_CTRL_BUSY c) then s else s.plainWrite off v

/-- The start of a maintenance run, or its refusal (R137). -/
def Blk.mntStart (s : Blk) (c : Nat) : Blk :=
  let cl := s.fld (F.MU_MNT_CL_HI_CL c) * 2 ^ 32 + s.fld (F.MU_MNT_CL_LO_CL c)
  let n := s.fld (F.MU_MNT_CNT_CNT c)
  if s.bit (F.MU_MNT_CTRL_BUSY c) ∨ n = 0 ∨ s.bit (F.MU_CTRL_EN c) = false ∨ s.fenced c ∨ s.retired c ∨
      s.capacity c ≤ cl + n - 1 then s.hwSet (F.MU_MNT_CTRL_REFUSED c)
  else
    let s := ((s.set1 (F.MU_MNT_CTRL_BUSY c)).set1 (F.MU_MNT_CTRL_GO c)).setFld (F.MU_MNT_LEFT_LEFT c) n
    s.setSlice c { s.slice c with mnt := { next := cl, togo := n, out := 0 } }

/-- A write of MU_MNT_CTRL (R137, R138). -/
def Blk.wrMntCtrl (s : Blk) (c : Nat) (v : Word) : Blk :=
  let busy := s.bit (F.MU_MNT_CTRL_BUSY c)
  let s := s.w1c (F.MU_MNT_CTRL_off c) 0xC v
  let s := if (F.MU_MNT_CTRL_GO c).get v = 1 then s.mntStart c else s
  if busy && (F.MU_MNT_CTRL_ABORT c).get v == 1 then
    let x := s.slice c
    (s.setSlice c { x with mnt := { x.mnt with togo := 0 } }).mntEnd c
  else s

/-- A write of MU_RET_CTRL (R568, R570). -/
def Blk.wrRetCtrl (s : Blk) (c : Nat) (v : Word) : Blk :=
  let s := s.w1c (F.MU_RET_CTRL_off c) 0x20 v
  if s.bit (F.MU_RET_CTRL_PEND c) then s
  else
    let mode := (F.MU_RET_CTRL_MODE c).get v
    let next := (F.MU_RET_CTRL_NEXT c).get v
    let s := (s.setFld (F.MU_RET_CTRL_MODE c) mode).setFld (F.MU_RET_CTRL_NEXT c) next
    if (F.MU_RET_CTRL_ARM c).get v = 0 then s
    else
      let tgt := if next = 1 then s.frameNow + 1
        else frameOf (s.fld (F.MU_RET_TGT_LO_TGT c)) (s.fld (F.MU_RET_TGT_HI_TGT c))
      if tgt ≤ s.frameNow ∨ (mode = 1) = s.retired c ∨ (mode = 0 ∧ (s.bit (F.MU_CTRL_EN c) = false ∨ s.fenced c)) then
        (s.hwSet (F.MU_RET_CTRL_REFUSED c)).muRet c 0x16
      else
        let s := (s.set1 (F.MU_RET_CTRL_PEND c)).set1 (F.MU_RET_CTRL_ARM c)
        s.setSlice c { s.slice c with retTgt := tgt, retAt := s.now }

/-- A write of MU_RET_TGT, ignored while PEND is 1 (R570). -/
def Blk.wrRetTgt (s : Blk) (c off : Nat) (v : Word) : Blk :=
  if s.bit (F.MU_RET_CTRL_PEND c) then s else s.plainWrite off v

/-- A request made in the boundary's own cycle has met the frame index that this boundary brings (R6, R568): NEXT names the frame after, and a
target that has come is refused. -/
def Blk.retRejudge (s : Blk) (c : Nat) : Blk :=
  let x := s.slice c
  if s.bit (F.MU_RET_CTRL_PEND c) && x.retAt == s.tb.bndAt && decide (x.retTgt ≤ s.tb.frame) then
    if s.bit (F.MU_RET_CTRL_NEXT c) && s.tb.frame + 1 != 0 then s.setSlice c { x with retTgt := s.tb.frame + 1 }
    else (((s.clr1 (F.MU_RET_CTRL_PEND c)).clr1 (F.MU_RET_CTRL_ARM c)).hwSet (F.MU_RET_CTRL_REFUSED c)).muRet c 0x16
  else s

/-- Step 3 of R25 on one channel (R569). -/
def Blk.retireStep (s : Blk) (c : Nat) : Blk :=
  let s := s.retRejudge c
  if s.bit (F.MU_RET_CTRL_PEND c) && decide ((s.slice c).retTgt ≤ s.tb.frame) then
    let s := (s.clr1 (F.MU_RET_CTRL_PEND c)).clr1 (F.MU_RET_CTRL_ARM c)
    if s.bit (F.MU_RET_CTRL_MODE c) then ((s.set1 (F.MU_RET_CTRL_RETIRED c)).flush c).muRet c 0x14
    else (s.clr1 (F.MU_RET_CTRL_RETIRED c)).muRet c 0x15
  else s

/-- A normal write to a register of a Media Unit page, by its page offset. -/
def Blk.wrMu (s : Blk) (c o : Nat) (v : Word) : Blk :=
  let off := 0x10000 + 0x1000 * c + o
  match o with
  | 0x20 => s.wrMuCtrl c v
  | 0x24 => s.wrMuGeom c v
  | 0x80 | 0x84 | 0x88 | 0x8C => s.wrScr c off v
  | 0xA0 => s.wrPlIdx c v
  | 0xA8 => s.wrPlHi c v
  | 0xC0 => s.wrRetCtrl c v
  | 0xC4 | 0xC8 => s.wrRetTgt c off v
  | 0xD0 | 0xD4 | 0xD8 | 0xDC => s.wrMntReg c off v
  | 0xE0 => s.wrMntCtrl c v
  | _ => if 0x40 ≤ o ∧ o < 0x80 then s.wrDfm c ((o - 0x40) / 4) v else s.plainWrite off v

end Sys2Proof.Machine
end

