-- ==== Sys2Proof/Machine/Ledger.lean ====
section
/-! DEFINITION. The ledgers of the host ports (03, R94 to R97, R114), their events, responses, and the conflict rule
(R96); messages to the partner (05). -/

namespace Sys2Proof.Machine

/-! ### The twin link as seen by the rest of the block -/

/-- TW_STAT.STATE (R180). -/
def Blk.twState (s : Blk) : Nat := s.fld F.TW_STAT_STATE
/-- Whether the chip exchanges mirror traffic: PAIRED, DEGRADED, SUSPECT and REJOIN (R180, R183). -/
def Blk.twLive (s : Blk) : Bool := s.twState == 2 || s.twState == 3 || s.twState == 4 || s.twState == 6
/-- A message goes into the twin transmit stream (R159). -/
def Blk.twSend (s : Blk) (m : TwMsg) : Blk :=
  { s with tw := { s.tw with tx := s.tw.tx ++ [(s.tw.txNo, m)], txNo := s.tw.txNo + 1 } }
/-- Whether this chip is the primary-of-record of a segment (R156); SUSPECT keeps the rule of the state before. -/
def Blk.primary (s : Blk) (seg : Nat) : Bool :=
  match if s.twState = 4 then s.tw.prior else s.twState with
  | 2 => s.fld F.TW_STAT_SIDE == seg % 2
  | 3 | 6 => s.bit F.TW_STAT_LEAD
  | _ => true

/-! ### Entries -/

/-- The key of entry `i` of port `p`. -/
def ledKey (p i : Nat) : Nat := 8192 * p + i
/-- Entry `i` of port `p`. -/
def Blk.ent (s : Blk) (p i : Nat) : Led := tget (fun _ => Led.blank) s.led (ledKey p i)
/-- Entry `i` of port `p` takes a content. -/
def Blk.setEnt (s : Blk) (p i : Nat) (e : Led) : Blk :=
  { s with led := tset (fun _ => Led.blank) s.led (ledKey p i) e }
/-- Neither FREE nor RESP (R95). -/
def Led.isOpen (e : Led) : Bool := e.st != .free && e.st != .resp

/-- HP_STAT.LEDUSE: the entries of port `p` that are not FREE (R114). -/
def Blk.ledUse (s : Blk) (p : Nat) : Nat := (s.led.filter fun x => x.1 / 8192 == p && x.2.st != .free).length
/-- The write-line buffers of port `p` in use (R86); one is held until its entry is FREE, which the spec leaves open (log 147). -/
def Blk.wrBufs (s : Blk) (p : Nat) : Nat :=
  (s.led.filter fun x => x.1 / 8192 == p && x.2.st != .free && x.2.op != .rd).length

/-- DevLoad of a message formed now (R85). -/
def Blk.devLoad (s : Blk) (p : Nat) : BitVec 2 :=
  let u := s.ledUse p * 100
  if u < s.fld (F.HP_DEVLOAD_T1 p) * 8192 then 0
  else if u < s.fld (F.HP_DEVLOAD_T2 p) * 8192 then 1
  else if u < s.fld (F.HP_DEVLOAD_T3 p) * 8192 then 2
  else 3

/-- The microsecond counter of the ports (R104). -/
def Blk.us (s : Blk) : Nat := (s.now - s.relAt) / 2000

/-- The transaction event (`tx`) or the request event of port `p` (R115). -/
def Blk.hpEvt (s : Blk) (p : Nat) (tx : Bool) (code idx seg : Nat) : Blk :=
  s.raise (34 + 2 * p + if tx then 0 else 1) (some (code, idx * 2 ^ 16 + if code = 0x20 then 0 else seg))

/-- An entry reaches RESP with its response (R85, R95). -/
def Blk.respond (s : Blk) (p i : Nat) (isData : Bool) (data : Line) (pois : Bool) (mval : BitVec 2) : Blk :=
  s.setEnt p i { s.ent p i with
    st := .resp, own := false, wait := false, got := none,
    rsp := some { isData := isData, data := data, pois := pois, mval := mval, devload := s.devLoad p } }

/-- The response of R108 to a request that is turned away or failed: MemData with Poison and data zero, or Cmp. -/
def Blk.respondBad (s : Blk) (p i : Nat) : Blk :=
  if (s.ent p i).op = .rd then s.respond p i true 0 true 0 else s.respond p i false 0 false 0

/-- An entry becomes FREE; its copy at the partner is dropped (R160). -/
def Blk.freeEnt (s : Blk) (p i : Nat) : Blk :=
  let e := s.ent p i
  let s := if e.copied && s.twLive then s.twSend (.lfree (Fin.ofNat 4 p) (Fin.ofNat 8192 i)) else s
  s.setEnt p i { e with st := .free, copied := false, own := false, failing := false, wait := false, got := none, flip := none, rsp := none }

/-- Whether the boundary queue of a CXL controller is full: its depth and what the controller has taken from it by this cycle are not the
block's (R24, log 137). -/
def Blk.s2mFull (s : Blk) (p : Nat) : Bool :=
  decide (Config.queueExtra p + 1 ≤ (s.s2m.filter fun m => m.port == p).length - Config.queueTaken p s.now)

/-- A response enters the boundary queue of its CXL controller, unless that is full, and the entry becomes FREE (R24, R95, R114); an entry that
reads back with an uncorrectable error is freed without a response (R97). -/
def Blk.handover (s : Blk) (p i : Nat) : Blk :=
  let e := s.ent p i
  match e.rsp with
  | some r =>
    if e.flip.isSome then (s.hpEvt p true 0x20 i 0).freeEnt p i
    else if s.s2mFull p then s else
    let s := { s with s2m := s.s2m ++ [S2M.mk p e.tag r] }
    let s := if r.pois then s.bump (F.HP_CNT_POIS_COUNT p) else s
    s.freeEnt p i
  | none => s

/-- A line address lies on a doorbell line of a command segment (03, Operator submission). -/
def isDoorbell (w0 : Word) (a : PAddr) : Bool :=
  segCMDSEG w0 && decide (a.toNat % 2 ^ 36 < 2 ^ 26) && a.toNat / 64 % 2 ^ 14 == 0

/-- A committed write to a doorbell line posts operator-control work (R110). -/
def Blk.postBell (s : Blk) (p i : Nat) (a : PAddr) (data : Line) : Blk :=
  let seg := segOf a
  { s.edge (seg % 32) with bells := s.bells ++ [{ bay := seg % 32, port := p, idx := i, seg := seg, q := a.toNat / 2 ^ 20 % 64, line := data }] }

/-- The 128 bits of an entry (R94). -/
def Led.bits (e : Led) : BitVec 128 :=
  let op : Nat := match e.op with | .rd => 0 | .wr => 1 | .ptl => 2
  let n := e.st.code * 2 ^ 124 + op * 2 ^ 122 + e.cls * 2 ^ 119 + e.path.toNat * 2 ^ 118 + e.mirr.toNat * 2 ^ 117 +
    e.mled.toNat * 2 ^ 116 + e.pois.toNat * 2 ^ 115 + e.mval.toNat * 2 ^ 113 + e.dbell.toNat * 2 ^ 112 +
    e.bay % 32 * 2 ^ 107 + e.tag.toNat * 2 ^ 91 + e.stamp.toNat * 2 ^ 71 + e.addr.toNat / 64 * 2 ^ 29 + e.chk.toNat * 2 ^ 5 +
    e.tout.toNat * 2 ^ 4
  BitVec.ofNat 128 n

/-- A capture of entry `i` into HP_LED_DATA0 to 3 (R114): the stored bits where an uncorrectable error has flipped some (R97). -/
def Blk.ledCapture (s : Blk) (p i : Nat) : Blk :=
  let e := s.ent p i
  let b := e.bits ^^^ e.flip.getD 0
  let s := s.setFld (F.HP_LED_IDX_IDX p) i
  (List.range 4).foldl (fun s k => s.wr (F.HP_LED_DATA_off p k) (b.extractLsb' (32 * k) 32)) s

/-! ### Conflicts -/

/-- Line accesses that take part in R96 besides the ledger entries: work for the partner and other chips, a shadow entry
taken over, staged mirrored writes (R168), and the read of an RCP (R172). -/
def Job.ordered (j : Job) : Bool :=
  match j.owner with
  | .led _ _ | .rcpWrite | .mrd | .vfyP | .vfyS _ _ | .sieve _ _ _ | .boot _ _ => false
  | _ => true

/-- Whether an access accepted as number `seq` conflicts with an earlier one that is open (R96). -/
def Blk.conflicts (s : Blk) (addr : PAddr) (wr : Bool) (seq : Nat) : Bool :=
  (s.led.any fun x => x.2.isOpen && decide (x.2.seq < seq) && x.2.addr == addr && (wr || x.2.op != .rd)) ||
  (s.jobs.any fun x => x.2.ordered && decide (x.2.seq < seq) && x.2.addr == addr && (wr || x.2.op != .rd))

/-- A number for an access that is accepted now. -/
def Blk.nextSeq (s : Blk) : Blk := { s with seqNo := s.seqNo + 1 }

end Sys2Proof.Machine
end

