-- ==== Sys2Proof/Machine/Job.lean ====
section
/-! DEFINITION. The line accesses of the engine path (R18 to R22): reads, merges (R93), mirrored writes (R162 to R169),
mirror and dual reads (R170 to R174), work for another chip (R158), pages of the compressed tier (R144, R192) and failed
transactions (R105, R108).  Each access is a `Job`; its end goes to its owner through `fin`. -/

namespace Sys2Proof.Machine

/-- The line access with number `id`. -/
def Blk.job (s : Blk) (id : Nat) : Option Job := pget s.jobs id
/-- The line access with number `id` takes a content. -/
def Blk.setJob (s : Blk) (id : Nat) (j : Job) : Blk := { s with jobs := pset s.jobs id j }
/-- The line access with number `id` is over. -/
def Blk.delJob (s : Blk) (id : Nat) : Blk := { s with jobs := pdel s.jobs id }
/-- The line access of a ledger entry. -/
def Blk.jobOf (s : Blk) (o : Owner) : Option (Nat × Job) := s.jobs.find? fun x => x.2.owner == o

/-- A line access ends for its owner. -/
def Blk.endFor (s : Blk) (j : Job) (r : JobOut) : Blk := { s with fin := s.fin ++ [(j.owner, r, j.addr)] }
/-- A line access is over, with its outcome. -/
def Blk.finish (s : Blk) (id : Nat) (r : JobOut) : Blk :=
  match s.job id with
  | some j => (s.delJob id).endFor j r
  | none => s

/-- A line access in its first state: it waits until it conflicts with none (R96). -/
def Job.start (owner : Owner) (op : MemOp) (addr : PAddr) (cls : Nat) (w0 w1 w2 : Word) (seq : Nat) : Job :=
  { owner := owner, op := op, addr := addr, cls := cls, w0 := w0, w1 := w1, w2 := w2, data := 0, mask := 0, pois := false,
    mval := 0, chk := 0, mta := 0, phase := .held, stamp := 0, loc := none, rmt := none, gen := none, seq := seq,
    media := false, bad := false, cl := none, ctx := 0 }

/-- The bay of a line access (R19). -/
def Job.bay (j : Job) : Nat := workBay j.w0 j.w1 j.w2 j.addr

/-- A new line access, posted to its bay, whose supervisor assigns it to a context (R19, R438; the context is a free value, log 157). -/
def Blk.addJob (s : Blk) (j : Job) : Blk :=
  { (s.setJob s.jobNo { j with ctx := 64 * j.bay + Config.assigned s.jobNo % 64 }).edge j.bay with jobNo := s.jobNo + 1 }

/-- A new line access on a segment of this chip's table, in the segment's class unless another is named; accepted now. -/
def Blk.request (s : Blk) (owner : Owner) (op : MemOp) (addr : PAddr) (cls : Option Nat) (f : Job → Job) : Blk :=
  let seg := segOf addr
  let w0 := s.segWord seg 0
  let j := Job.start owner op (lineAddr addr) (cls.getD (segOwner w0)) w0 (s.segWord seg 1) (s.segWord seg 2) s.seqNo
  s.nextSeq.addJob (f j)

/-- The number of the line access added last. -/
def Blk.lastJob (s : Blk) : Nat := s.jobNo - 1

/-- Channel and CL of a line access. -/
def Job.place (j : Job) : Nat × Nat :=
  if segCOMP j.w0 then ((pagePlace j.w1 j.addr).1, j.cl.getD 0) else linePlace j.w1 j.w2 j.addr

/-- Key generation of a line access. -/
def Job.key (j : Job) : BitVec 8 := segKEYGEN j.w0
/-- The crypto key slot of a line access, if its lines pass through the crypto neighbour (R139). -/
def Job.cryptKey (j : Job) : Option (BitVec 10) := if segCRYPT j.w0 then some (segKEYIDX j.w1) else none
/-- The check value of a line at the address of a line access. -/
def Job.mint (j : Job) (d : Line) : BitVec 24 := Machine.mint d j.addr j.key
/-- A zero line at that address with metadata. -/
def Job.zeroMeta (j : Job) (wgen : BitVec 4) (pois : Bool) : Word := metaWord (j.mint 0) wgen 0 pois

/-- A line goes to the crypto neighbour (R139, R140, R405). -/
def Blk.toCrypt (s : Blk) (ch : Nat) (r : MReq) : Blk :=
  { s with crypt := pset s.crypt s.cmdNo ⟨ch, r⟩, cmdNo := s.cmdNo + 1 }

/-- The line command of a line access. -/
def Job.req (j : Job) (id : Nat) (wr : Bool) (data : Line) (mta : Word) (now : Nat) : MReq :=
  { cls := j.cls, wr := wr, cl := j.place.2, data := data, mta := mta, purp := .job id, key := j.cryptKey, taddr := j.addr,
    enter := now, q := false, again := false, stale := false }

/-- A line access reads its line in its class. -/
def Blk.jobRead (s : Blk) (id : Nat) (j : Job) (ph : JPhase) : Blk :=
  (s.setJob id { j with phase := ph }).enqueue j.place.1 (j.req id false 0 0 s.now)

/-- A line access writes a line, through the crypto neighbour where its segment says so. -/
def Blk.jobWrite (s : Blk) (id : Nat) (j : Job) (data : Line) (mta : Word) (ph : JPhase) : Blk :=
  let s := s.setJob id { j with phase := ph, media := true }
  let r := j.req id true data mta s.now
  if r.key.isSome then s.toCrypt j.place.1 r else s.enqueue j.place.1 r

/-- The line of a failed transaction is written with Poison (R108). -/
def Blk.jobPoison (s : Blk) (id : Nat) (j : Job) : Blk := s.jobWrite id j 0 (j.zeroMeta 0 true) .poison

/-- The state of an entry that awaits the partner: TWIN, but ENGINE while the partner is held suspect (R95, R183). -/
def Blk.twinSt (s : Blk) : LSt := if s.twState = 4 then .engine else .twin

/-- The state of the ledger entry that a line access serves. -/
def Blk.ledTo (s : Blk) (o : Owner) (st : LSt) : Blk :=
  match o with
  | .led p i => if (s.ent p i).isOpen then s.setEnt p i { s.ent p i with st := st } else s
  | _ => s

/-! ### Mirrored writes -/

/-- The stamp that the primary gives a write (R164). -/
def Blk.stampNow (s : Blk) : FrameIx :=
  if s.tb.slot.toNat ≤ s.fld F.TW_CFG_CUTOFF then s.tb.frame else s.tb.frame + 1

/-- The reference to a mirrored write's origin that this chip sends: its ledger entry, or the line access itself where no ledger entry of the
pair carries it (log 156). -/
def originRef (id : Nat) : Owner → OriginRef
  | .led p i => ⟨true, Fin.ofNat 4 p, Fin.ofNat 8192 i, none⟩
  | .lcpy p i => ⟨false, Fin.ofNat 4 p, Fin.ofNat 8192 i, none⟩
  | _ => ⟨true, 0, 0, some id⟩

/-- A staged mirrored write that no one waits for any more: it lasts until its media write is acknowledged (R168). -/
def Blk.stagedOnly (s : Blk) (id : Nat) : Blk :=
  match s.job id with
  | some j => if j.media then s.setJob id { j with owner := .nobody, phase := .staged } else s.delJob id
  | none => s

/-- The merged line and metadata of a MemWrPtl over a stored line (R84, R93). -/
def Job.merged (j : Job) (old : Line) (om : Word) (wgen : BitVec 4) : Line × Word :=
  let chk := mCheck om ^^^ j.mint (maskLine old j.mask) ^^^ j.chk
  let pois := if j.mask = BitVec.allOnes 64 then j.pois else j.pois || mPois om
  (mergeLine old j.data j.mask, metaWord chk wgen j.mval pois)

/-- WRQ of a stamped write (R164): with the line where the secondary does not hold it from an LCPY or in its own write buffer. -/
def Blk.sendWrq (s : Blk) (id : Nat) (j : Job) : Blk :=
  let r := originRef id j.owner
  s.twSend (.wrq j.addr r j.stamp j.mta (if j.op == .ptl || j.bad || r.eng.isSome then some j.data else none))

/-- The shadow entry of a reference counts as staged (R161). -/
def Blk.stageShadow (s : Blk) (ref : Nat) : Blk :=
  match pget s.tw.shadow ref with
  | some x => { s with tw := { s.tw with shadow := pset s.tw.shadow ref { x with staged := true } } }
  | none => s

/-- RCPs that wait here for a line are discarded when a mirrored write to it is staged (R172). -/
def Blk.dropRcp (s : Blk) (a : PAddr) : Blk :=
  (s.jobs.filter fun x => x.2.owner == .rcpWrite && x.2.addr == a).foldl (fun s x =>
    let c := x.2.place.1
    let y := s.slice c
    let waits := !(y.out.any fun o => o.2.purp == Purp.job x.1)
    if waits then
      ({ s with crypt := s.crypt.filter fun q => q.2.r.purp != Purp.job x.1 }.setSlice c
        { y with queue := y.queue.filter fun r => r.purp != Purp.job x.1 }).delJob x.1
    else s) s

/-- The generation read of a mirrored write has completed: stamp, own media write and WRQ in one cycle (R163, R164); a
chip without a partner orders and holds the write alone (R180, R184). -/
def Blk.commit (s : Blk) (id : Nat) (j : Job) : Blk :=
  let g : BitVec 4 := match j.gen with | some (_, m) => mWgen m + 1 | none => 1
  let bad := j.bad || (j.op == .ptl && j.gen.isNone)
  let (data, mta) :=
    if bad then ((0 : Line), j.zeroMeta g true)
    else if j.op = .ptl then j.merged (j.gen.getD (0, 0)).1 (j.gen.getD (0, 0)).2 g
    else (j.data, metaWord j.chk g j.mval j.pois)
  let j := { j with bad := bad, stamp := s.stampNow, data := data, mta := mta }
  let s := s.dropRcp j.addr
  let s := match j.owner with
    | .lcpy p i => s.stageShadow (ledKey p i)
    | _ => s
  if s.twLive then ((s.jobWrite id j data mta .twin).ledTo j.owner s.twinSt).sendWrq id j
  else ((s.jobWrite id { j with owner := .nobody } data mta .staged).bump F.TW_CNT_WR_COUNT).endFor j (if bad then .failed else .wrote)

/-- A mirrored write is committed on both chips (R167). -/
def Blk.committed (s : Blk) (id : Nat) (j : Job) : Blk :=
  ((s.bump F.TW_CNT_WR_COUNT).endFor j (if j.bad then .failed else .wrote)).stagedOnly id

/-! ### Copies -/

/-- The copy of a line on its way to the partner is asked of it, or its RCP to this chip (R174). -/
def Blk.askPartner (s : Blk) (a : PAddr) (copy : Bool) : Blk := s.twSend (.mrd a copy)
/-- An RCP of a line to the partner is queued (R172). -/
def Blk.queueRcp (s : Blk) (a : PAddr) : Blk := s.request .rcpRead .rd a (some 4) id

/-- The verify walk ends when no channel and no comparison is left (R175). -/
def Blk.vfyEnd (s : Blk) : Blk :=
  if s.bit F.TW_STAT_VFYBUSY && s.tw.vfy.isEmpty && !(s.jobs.any fun x => x.2.owner == .vfyP) then
    s.clr1 F.TW_STAT_VFYBUSY
  else s

/-- Whether an owner's read is served from the partner copy when the local one is not intact (R22, R174). -/
def mirrorServes : Owner → Bool
  | .mrd | .vfyS _ _ | .rcpRead | .rcpWrite | .nobody => false
  | _ => true

/-- A line enters the suspect list (R171). -/
def Blk.suspect (s : Blk) (a : PAddr) : Blk :=
  match (List.range 64).find? fun i => (pget s.tw.susp i).isNone with
  | some i => { s with tw := { s.tw with susp := pset s.tw.susp i a } }
  | none => s.hwSet F.TW_STAT_SUSOVF
/-- A line leaves the suspect list (R171). -/
def Blk.unsuspect (s : Blk) (a : PAddr) : Blk :=
  { s with tw := { s.tw with susp := s.tw.susp.filter fun x => x.2 != a } }

/-- What a dual read does besides returning a line: nothing, or a copy from A to B or from B to A (R170). -/
inductive Settle where
  | same | newerA | newerB | diverged | onlyA | onlyB | none
  deriving DecidableEq, Repr

/-- The row of R170 that applies to the copies A of the primary-of-record and B. -/
def settleOf (a b : Option (Line × Word)) : Settle :=
  match a, b with
  | some x, some y =>
    if x = y then .same
    else
      let d := (mWgen x.2 - mWgen y.2).toNat
      if d = 0 ∨ d = 8 then .diverged else if d < 8 then .newerA else .newerB
  | some _, none => .onlyA
  | none, some _ => .onlyB
  | none, none => .none

/-- A dual read settles (R170, R171, R175). -/
def Blk.settleDual (s : Blk) (id : Nat) (j : Job) (mine theirs : Option (Line × Word)) : Blk :=
  let seg := segOf j.addr
  let prim := s.primary seg
  let a := if prim then mine else theirs
  let b := if prim then theirs else mine
  let aToB (s : Blk) : Blk := if prim then s.queueRcp j.addr else s.askPartner j.addr true
  let bToA (s : Blk) : Blk := if prim then s.askPartner j.addr true else s.queueRcp j.addr
  let give (s : Blk) (x : Option (Line × Word)) : Blk :=
    match j.owner, x with
    | .vfyP, _ | .vfyS _ _, _ => s.delJob id
    | _, some (d, m) => s.finish id (.line d m)
    | _, none => s.finish id (.bad 0x11)
  if (s.tw.susp.any fun x => x.2 == j.addr) && a.isSome then give s a
  else
    let r := settleOf a b
    let s := match j.owner with
      | .vfyP | .vfyS _ _ => if r = .same then s else s.bump F.TW_VFY_STAT_DIFFS
      | _ => s
    match r with
    | .same => give s a
    | .newerA => give (aToB (s.bump F.TW_CNT_NEWER_COUNT)) a
    | .newerB => give (bToA (s.bump F.TW_CNT_NEWER_COUNT)) b
    | .diverged =>
      give (aToB (((s.suspect j.addr).bump F.TW_CNT_DIV_COUNT).raise 8 (some (0x10, seg)))) a
    | .onlyA => give (aToB s) a
    | .onlyB => give (bToA s) b
    | .none => give s none

/-! ### Outcomes of line commands -/

/-- A copy as R170 calls it intact, or the ERR_CODE of R108 for what it is; on an unmirrored segment a line of the poison
list reads as zero data with Poison (R135). -/
def Job.judge (j : Job) (o : RdOut) : Option (Line × Word) × Nat :=
  match o with
  | .line d m _ => if j.mint d = mCheck m then (some (d, m), 0) else (none, 0x10)
  | .listed => if segMIRR j.w0 then (none, 0x11) else (some (0, j.zeroMeta 0 true), 0)
  | .bad => (none, 0x11)

/-- A read of this chip's copy has failed: a mirrored line is served from the partner's copy, where it can be (R22, R174). -/
def Blk.readFails (s : Blk) (id : Nat) (j : Job) (code : Nat) : Blk :=
  if segMIRR j.w0 && s.twLive && mirrorServes j.owner then
    (s.setJob id { j with phase := .mirRead }).askPartner j.addr false
  else
    match j.owner with
    | .vfyS _ _ => (s.setJob id { j with phase := .dual, loc := some none }).askPartner j.addr false
    | _ => s.finish id (.bad (if segMIRR j.w0 then 0x11 else code))

/-- A line read of a line access has an outcome. -/
def Blk.jobGot (s : Blk) (id : Nat) (j : Job) (o : RdOut) : Blk :=
  let (x, code) := j.judge o
  match j.phase with
  | .read =>
    (match x with
     | some (d, m) => s.finish id (.line d m)
     | none => s.readFails id j code)
  | .merge =>
    (match x with
     | some (d, m) => let r := j.merged d m 0; s.jobWrite id j r.1 r.2 .write
     | none => s.jobPoison id j)
  | .gen =>
    (match x with
     | some y => s.setJob id { j with phase := .genDone, gen := some y }
     | none =>
       if s.twLive then (s.setJob id { j with phase := .mirGen }).askPartner j.addr false
       else s.setJob id { j with phase := .genDone, gen := none })
  | .dual =>
    (match j.rmt with
     | some r => s.settleDual id j x r
     | none => s.setJob id { j with loc := some x })
  | _ => s

/-- The partner answers a mirror read (R163, R170, R174). -/
def Blk.mirGot (s : Blk) (id : Nat) (j : Job) (x : Option (Line × Word)) : Blk :=
  match j.phase with
  | .mirRead =>
    (match x with
     | some (d, m) =>
       let s := s.askPartner j.addr true
       (match j.owner with
        | .vfyP => ((s.bump F.TW_VFY_STAT_DIFFS).delJob id).vfyEnd
        | _ => s.finish id (.line d m))
     | none => s.finish id (.bad 0x11))
  | .mirGen => s.setJob id { j with phase := .genDone, gen := x }
  | .dual =>
    (match j.loc with
     | some l => s.settleDual id j l x
     | none => s.setJob id { j with rmt := some x })
  | _ => s

/-- A line write of a line access has an outcome (R102, R108, R168, R169). -/
def Blk.jobWrote (s : Blk) (id : Nat) (j : Job) (o : WrOut) : Blk :=
  match j.phase with
  | .write => s.finish id (if j.bad then .failed else if o = .acked then .wrote else .refused)
  | .poison => s.finish id .failed
  | .twin => s.setJob id { j with media := false }
  | .staged => s.delJob id
  | _ => s

/-! ### Start -/

/-- The reference that a forwarded request carries: the ledger entry of the request, else the line access. -/
def Job.ref (j : Job) (id : Nat) : Nat :=
  match j.owner with
  | .led p i => if j.bad then 32768 + id else ledKey p i
  | _ => 32768 + id

/-- The request that another chip is to perform; for a failed transaction, the line written with Poison (R108). -/
def Job.asked (j : Job) (id : Nat) : RemReq :=
  if j.bad && j.op != .rd then
    { ref := j.ref id, op := .wr, addr := j.addr, pois := true, mval := 0, data := 0, mask := BitVec.allOnes 64, chk := j.mint 0 }
  else { ref := j.ref id, op := j.op, addr := j.addr, pois := j.pois, mval := j.mval, data := j.data, mask := j.mask, chk := j.chk }

/-- A request to a segment homed on another chip leaves over the twin link or a fabric port (R19, R158). -/
def Blk.goRemote (s : Blk) (id : Nat) (j : Job) : Blk :=
  let r := j.asked id
  if segHOMEPAIR j.w0 = s.fld F.TW_CFG_PAIRID then
    if s.twLive then (s.setJob id { j with phase := .remote }).twSend (.fwd r)
    else s.finish id (if j.op = .rd then .bad 0x22 else .failed)
  else { s.setJob id { j with phase := .remote } with fabTx := s.fabTx ++ [(segFPORT j.w2, .req r)] }

/-- Whether the engine path reads both copies of a mirrored line (05, Copies that are intact but differ; R190). -/
def Blk.dualRead (s : Blk) (j : Job) : Bool :=
  segMIRR j.w0 && s.bit F.TW_CTRL_DUAL && s.twLive && (s.twState != 3 || s.bit F.TW_STAT_LEAD) &&
  match j.owner with | .led _ _ | .rem _ _ | .shad _ => true | _ => false

/-- A mirrored write on the secondary: that of a ledger entry awaits the primary's WRQ (R162); one that no LCPY carries, an engine's own or
the poisoned line of a failed transaction, is forwarded to the primary (log 156). -/
def Blk.goSecond (s : Blk) (id : Nat) (j : Job) : Blk :=
  match j.owner with
  | .led _ _ =>
    if j.bad then (s.setJob id { j with phase := .remote }).twSend (.fwd (j.asked id))
    else (s.setJob id { j with phase := .origin }).ledTo j.owner s.twinSt
  | .rem none _ | .lcpy _ _ => s.jobRead id j .gen
  | _ => (s.setJob id { j with phase := .remote }).twSend (.fwd (j.asked id))

/-- A local line access whose place is known goes to its channel (R162, R163, R170, R172). -/
def Blk.goAt (s : Blk) (id : Nat) (j : Job) : Blk :=
  match j.owner, j.op with
  | .rcpWrite, _ => s.jobWrite id j j.data j.mta .write
  | .nobody, _ => s.jobWrite id j j.data j.mta .staged
  | _, .rd => if s.dualRead j then (s.jobRead id j .dual).askPartner j.addr false else s.jobRead id j .read
  | _, op =>
    if segMIRR j.w0 then
      if s.primary (segOf j.addr) || !s.twLive then s.jobRead id j .gen else s.goSecond id j
    else if op = .wr then s.jobWrite id j j.data (metaWord j.chk 0 j.mval j.pois) .write
    else s.jobRead id j .merge

/-- A line access starts (R19, R108, R144). -/
def Blk.go (s : Blk) (id : Nat) (j : Job) : Blk :=
  if segREMOTE j.w0 then s.goRemote id j
  else if segCOMP j.w0 && j.cl.isNone then
    let (ch, pj) := pagePlace j.w1 j.addr
    let r : MReq := { cls := 6, wr := false, cl := shareBase j.w2 + pj / 8, data := 0, mta := 0, purp := .job id, key := none,
                      taddr := j.addr, enter := s.now, q := false, again := false, stale := false }
    (s.setJob id { j with phase := .table }).enqueue ch r
  else if j.bad && j.op != .rd && !segMIRR j.w0 then s.jobPoison id j
  else s.goAt id j

/-! ### Pages of the compressed tier -/

/-- A page entry of R144. -/
structure PageEntry where
  state : Nat
  slen  : Nat
  loc   : Nat
  ok    : Bool
  deriving DecidableEq, Repr

/-- The reading of the 64 bits of a page entry, with the bounds of a share of `share` lines (R144). -/
def pageEntry (bits : BitVec 64) (share : Nat) : PageEntry :=
  let st := bits.toNat / 2 ^ 62
  let slen := bits.toNat / 2 ^ 56 % 64
  let rsv := bits.toNat / 2 ^ 30 % 2 ^ 26
  let loc := bits.toNat % 2 ^ 30
  let ok := st != 3 && rsv == 0 &&
    (match st with
     | 0 => loc % 64 == 0 && decide (share / 512 ≤ loc) && decide (loc + 64 ≤ share)
     | 1 => decide (1 ≤ slen) && decide (slen ≤ 56) && loc % 4 == 0 && decide (loc + 4 + slen ≤ share)
     | _ => loc == 0 && slen == 0)
  { state := st, slen := slen, loc := loc, ok := ok }

/-- The page entry with index `pj` in its page-table line (R144). -/
def entryOf (d : Line) (pj : Nat) : BitVec 64 := d.extractLsb' (64 * (pj % 8)) 64

/-- Event of a tier result that is no success, with the CL that it concerns (R150, R154, log 145). -/
def Blk.tierEvt (s : Blk) (c code res cl : Nat) : Blk :=
  let s := s.setFld (F.MU_ERR_CL_LO_CL c) (cl % 2 ^ 32)
  let s := s.setFld (F.MU_ERR_CL_HI_CL c) (cl / 2 ^ 32)
  s.raise (187 + 2 * c) (some (code, 15 * 2 ^ 28 + s.mapIdx c cl * 2 ^ 24 + res))

/-- A line access whose page cannot be found: a read is uncorrectable (R22), a write a failed transaction; neither reports a tier event of its
own (log 155). -/
def Blk.noPage (s : Blk) (id : Nat) (j : Job) : Blk := if j.op = .rd then s.readFails id j 0x11 else s.finish id .failed

/-- The page-table line of a line access has been read (R144, R146). -/
def Blk.tableGot (s : Blk) (id : Nat) (j : Job) (o : RdOut) : Blk :=
  let (ch, pj) := pagePlace j.w1 j.addr
  match o with
  | .line d m _ =>
    if mCheck m = mCheck (tierMeta d (segOf j.addr) ch (pj / 8) j.key) then
      let e := pageEntry (entryOf d pj) (shareSize j.w1)
      if !e.ok then (s.tierEvt ch 0x12 9 (shareBase j.w2 + pj / 8)).noPage id j
      else if e.state = 0 then s.go id { j with cl := some (shareBase j.w2 + e.loc + j.addr.toNat / 64 % 64) }
      else if e.state = 2 ∧ j.op = .rd then s.finish id (.line 0 (j.zeroMeta 0 false))
      else s.setJob id { j with phase := .page }
    else s.noPage id j
  | _ => s.noPage id j

/-- The page of a channel has a new page entry: accesses that wait for it look it up again (R150, R192). -/
def Blk.pageChanged (s : Blk) (seg ch pj : Nat) : Blk :=
  s.jobs.foldl (fun s x =>
    if x.2.phase = .page ∧ segOf x.2.addr = seg ∧ pagePlace x.2.w1 x.2.addr = (ch, pj) then s.go x.1 x.2 else s) s

/-- The answer to a line command of a line access; a line of ciphertext first goes to the crypto neighbour (R140). -/
def Blk.jobAns (s : Blk) (id : Nat) (r : MReq) (o : RdOut) : Blk :=
  match s.job id with
  | none => s
  | some j =>
    if j.phase = .table then s.tableGot id j o
    else
      match o, r.key with
      | .line d m f, some _ => s.toCrypt j.place.1 { r with data := d, mta := m, again := f }
      | _, _ => s.jobGot id j o

/-- A line of a tier operation has not been written as it was given (R140). -/
def Blk.tierSpoilt (s : Blk) (k : Nat) : Blk :=
  match pget s.dms k with
  | some op => { s with dms := pset s.dms k { op with tier := op.tier.map fun t => { t with refused := true } } }
  | none => s

/-- The crypto neighbour returns a line; where it fails, a line written is zero with POIS, and not encrypted (R139, R140, R405). -/
def Blk.cryptDone (s : Blk) (n : Nat) (status : BitVec 4) (data : Line) : Blk :=
  match pget s.crypt n with
  | none => s
  | some ⟨ch, r⟩ =>
    let s := { s with crypt := pdel s.crypt n }
    let s := if status = 0 then s else s.muErr ch 0x13 r.cl none (!r.wr)
    match r.purp with
    | .job id =>
      (match s.job id with
       | none => s
       | some j =>
         if r.wr then
           if status = 0 then s.enqueue ch { r with data := data, enter := s.now }
           else (s.setJob id { j with bad := true }).enqueue ch { r with data := 0, mta := j.zeroMeta 0 true, enter := s.now }
         else s.jobGot id j (if status = 0 then .line data r.mta r.again else .bad))
    | .tier k _ =>
      if r.wr then
        if status = 0 then s.enqueue ch { r with data := data, enter := s.now }
        else (s.tierSpoilt k).enqueue ch { r with data := 0, mta := r.mta ||| 2, enter := s.now }
      else { s with tgot := s.tgot ++ (match r.purp with
        | .tier k i => [(k, i, .rd r (if status = 0 then .line data r.mta false else .bad))]
        | _ => []) }
    | _ => s

/-! ### Work for other chips -/

/-- A forwarded request has been performed: its answer leaves the way it came, and the shadow entry is staged (R158,
R161). -/
def Blk.remDone (s : Blk) (fab : Option (BitVec 4)) (r : RemReq) (o : JobOut) : Blk :=
  let rsp : RemRsp := match o with
    | .line d m => { ref := r.ref, line := some (d, m), bad := false }
    | .wrote => { ref := r.ref, line := none, bad := false }
    | _ => { ref := r.ref, line := none, bad := true }
  match fab with
  | some p => { s with fabTx := s.fabTx ++ [(p, .rsp rsp)] }
  | none =>
    let s := s.stageShadow r.ref
    if s.twLive then s.twSend (.fwr rsp) else s

/-- The answer of a remote home (R19, R158). -/
def Blk.remGot (s : Blk) (r : RemRsp) : Blk :=
  match s.jobs.find? fun x => x.2.phase == .remote && x.2.ref x.1 == r.ref with
  | some (id, j) =>
    if j.op = .rd then
      (match r.line with
       | some (d, m) => s.finish id (.line d m)
       | none => s.finish id (.bad 0x11))
    else if j.bad then s.finish id .failed
    else s.finish id (if r.bad then .refused else .wrote)
  | none => s

/-- A line with its check value as R21 compares it, with the key generation of the segment's entry. -/
def Blk.lineOk (s : Blk) (a : PAddr) (d : Line) (chk : BitVec 24) : Bool :=
  mint d (lineAddr a) (segKEYGEN (s.segWord (segOf a) 0)) == chk

/-- Whether a forwarded request's line matches its check value (R21, R93). -/
def Blk.remReqOk (s : Blk) (r : RemReq) : Bool :=
  match r.op with
  | .rd => true
  | .wr => s.lineOk r.addr r.data r.chk
  | .ptl => s.lineOk r.addr (maskLine r.data r.mask) r.chk

/-- A request forwarded to this chip is performed as a local one, where its segment is valid and homed here (R158). -/
def Blk.remReq (s : Blk) (fab : Option (BitVec 4)) (r : RemReq) : Blk :=
  let seg := segOf r.addr
  if s.segOk seg && !segREMOTE (s.segWord seg 0) then
    s.request (.rem fab r) r.op r.addr none fun j =>
      { j with data := r.data, mask := r.mask, pois := r.pois, mval := r.mval, chk := r.chk }
  else s.remDone fab r (.bad 0x01)

end Sys2Proof.Machine
end

