-- ==== Sys2Proof/Machine/Tier.lean ====
section
/-! DEFINITION. The tier sequencer of a slice (R144 to R150): the media transfers of a tier operation and what their answers make of it.  An
operation runs as a data-mover command of its engine (R291). -/

namespace Sys2Proof.Machine

/-- A tier operation in progress. -/
def Blk.tierOf (s : Blk) (id : Nat) : Option (DmOp × TierRun) :=
  match pget s.dms id with
  | some op => op.tier.map fun t => (op, t)
  | none => none

/-- Its progress. -/
def Blk.setTier (s : Blk) (id : Nat) (t : TierRun) : Blk :=
  match pget s.dms id with
  | some op => { s with dms := pset s.dms id { op with tier := some t } }
  | none => s

/-- The segment's words 1 and 2 that an operation works with (R147). -/
def Blk.tierWords (s : Blk) (t : TierRun) : Word × Word := (s.segWord t.op.seg.toNat 1, s.segWord t.op.seg.toNat 2)

/-- The share line of the operation's page entry (R144). -/
def TierRun.tableOff (t : TierRun) : Nat := t.op.pj.toNat / 8

/-- The CL that an event of an operation shows (log 145): the line that failed, else the page-table line for the entry's sake, else the first line
of the form. -/
def Blk.tierCl (s : Blk) (t : TierRun) (res : Nat) (line : Option Nat) : Nat :=
  shareBase (s.tierWords t).2 + line.getD (if res = 9 ∨ t.kind = .read ∨ t.kind = .put then t.tableOff else t.op.loc.toNat)

/-- It is finished with a result; results 2 to 9 raise their events and count (R150, R153, R154). -/
def Blk.tierEnd (s : Blk) (id : Nat) (t : TierRun) (res : Nat) (v : BitVec 64) (line : Option Nat := none) : Blk :=
  let cl := s.tierCl t res line
  let s := if res = 2 then s.tierEvt t.ch 0x10 2 cl
    else if 3 ≤ res ∧ res ≤ 8 then s.tierEvt t.ch 0x11 res cl
    else if res = 9 then s.tierEvt t.ch 0x12 9 cl else s
  let s := match t.kind with
    | .store => if res = 0 then s.bump (F.MU_CT_CMP_COUNT t.ch) else if res = 1 then s.bump (F.MU_CT_NOGAIN_COUNT t.ch)
                else if res = 2 then s.bump (F.MU_CT_VFAIL_COUNT t.ch) else s
    | .fetch => if 3 ≤ res ∧ res ≤ 8 then s.bump (F.MU_CT_DERR_COUNT t.ch) else s
    | _ => s
  s.setTier id { t with phase := .finished, result := res, value := v }

/-- A line command in class C of an operation: transfer `i`, share line offset, the crypto key where the line is encrypted (R146, R147). -/
def Blk.tierReq (s : Blk) (id : Nat) (t : TierRun) (i off : Nat) (wr : Bool) (d : Line) (m : Word) (key : Option (BitVec 10)) (a : PAddr) : Blk :=
  let r : MReq := { cls := 6, wr := wr, cl := shareBase (s.tierWords t).2 + off, data := d, mta := m, purp := .tier id i, key := key,
                    taddr := a, enter := s.now, q := false, again := false, stale := false }
  if wr && key.isSome then s.toCrypt t.ch r else s.enqueue t.ch r

/-- The crypto key slot of a segment (R139). -/
def Blk.tierKey (s : Blk) (t : TierRun) : Option (BitVec 10) :=
  if segCRYPT (s.segWord t.op.seg.toNat 0) then some (segKEYIDX (s.tierWords t).1) else none

/-- Transfer `i` reads or writes header or stream line `i` of the form at LOC (R145, R146). -/
def Blk.tierForm (s : Blk) (id : Nat) (t : TierRun) (i : Nat) (wr : Bool) (d : Line) : Blk :=
  let off := t.op.loc.toNat + i
  let seg := t.op.seg.toNat
  s.tierReq id t i off wr d (if wr then tierMeta d seg t.ch off t.op.key else 0) (s.tierKey t) (tierAddr seg t.ch off)

/-- Transfers `i` onwards write lines of a form. -/
def Blk.tierForms (s : Blk) (id : Nat) (t : TierRun) : Nat → List Line → Blk
  | _, [] => s
  | i, d :: l => (s.tierForm id t i true d).tierForms id t (i + 1) l

/-- The page-table line is read or written; it is never encrypted (R146). -/
def Blk.tierTable (s : Blk) (id : Nat) (t : TierRun) (wr : Bool) (d : Line) : Blk :=
  let seg := t.op.seg.toNat
  let m := if wr then tierMeta d seg t.ch t.tableOff t.op.key else 0
  s.tierReq id t 0 t.tableOff wr d m none (tierAddr seg t.ch t.tableOff)

/-- Line `i` of the operation's page as an ordinary line (R147). -/
def Blk.pageLine (s : Blk) (t : TierRun) (i : Nat) : PAddr := pageAddr (s.tierWords t).1 t.op.seg.toNat t.ch t.op.pj.toNat i

/-- A zero line of a frame with its minted check value (R147). -/
def Blk.tierZero (s : Blk) (id : Nat) (t : TierRun) (i : Nat) : Blk :=
  let a := s.pageLine t i
  s.tierReq id t i (t.op.loc.toNat + i) true 0 (metaWord (mint 0 a t.op.key) 0 0 false) (s.tierKey t) a

/-- Whether a segment is one whose pages the sequencer keeps (R143, R144). -/
def Blk.tierSeg (s : Blk) (t : TierRun) : Bool :=
  let seg := t.op.seg.toNat
  let w0 := s.segWord seg 0
  s.segOk seg && segCOMP w0 && !segREMOTE w0

/-- An operation starts its transfers: bounds are those of a page entry that would name its frame or form (R144, R147).  TSTORE is given its
verified header lines; it goes to a compressor lane (R148).  One that names a segment without pages here, or TPUT with an entry that is not valid,
transfers nothing and ends with result ENTRY (logs 150, 154). -/
def Blk.tierStart (s : Blk) (id : Nat) (t : TierRun) : Blk :=
  let size := shareSize (s.tierWords t).1
  let fits (st slen : Nat) : Bool := (pageEntry (BitVec.ofNat 64 (st * 2 ^ 62 + slen * 2 ^ 56 + t.op.loc.toNat)) size).ok
  if !s.tierSeg t then s.tierEnd id t 9 0
  else
    match t.kind with
    | .read => (s.setTier id { t with phase := .table, left := 1 }).tierTable id t false 0
    | .put =>
      if (pageEntry t.op.entry size).ok then (s.setTier id { t with phase := .table, left := 1 }).tierTable id t false 0
      else s.tierEnd id t 9 0
    | .zero =>
      if fits 0 0 then (List.range 64).foldl (fun s i => s.tierZero id t i) (s.setTier id { t with phase := .writing, left := 64 })
      else s.tierEnd id t 9 0
    | .store => s.setTier id { t with phase := .lane, laneAt := s.now }
    | .fetch =>
      let n := 4 + t.op.slen.toNat
      if fits 1 t.op.slen.toNat then
        (List.range n).foldl (fun s i => s.tierForm id t i false 0) (s.setTier id { t with phase := .reading, left := n })
      else s.tierEnd id t 9 0

/-- A tier line that has been read and verified (R146). -/
def Blk.tierLine (t : TierRun) (off : Nat) (o : RdOut) : Option Line :=
  match o with
  | .line d m _ => if mCheck m = mCheck (tierMeta d t.op.seg.toNat t.ch off t.op.key) then some d else none
  | _ => none

/-- The page entry with index `pj` of a page-table line takes a value (R144). -/
def putEntry (d : Line) (pj : Nat) (e : BitVec 64) : Line :=
  let sh := 64 * (pj % 8)
  (d &&& ~~~((BitVec.allOnes 64).setWidth 512 <<< sh)) ||| (e.setWidth 512 <<< sh)

/-- An answer to transfer `i` of an operation (R147 to R150); TREAD and TPUT whose page-table line fails end with TIER_LINE as TFETCH does
(log 152). -/
def Blk.tierGot (s : Blk) (id i : Nat) (a : Ans) : Blk :=
  match s.tierOf id with
  | none => s
  | some (_, t) =>
    match t.phase, a with
    | .table, .rd _ o =>
      (match Blk.tierLine t t.tableOff o with
       | none => s.tierEnd id t 7 0 (some t.tableOff)
       | some d =>
         if t.kind = .read then
           let e := entryOf d t.op.pj.toNat
           if (pageEntry e (shareSize (s.tierWords t).1)).ok then s.tierEnd id t 0 e else s.tierEnd id t 9 e
         else (s.setTier id { t with phase := .writing, left := 1 }).tierTable id t true (putEntry d t.op.pj.toNat t.op.entry))
    | .writing, .wr _ o =>
      let t := { t with left := t.left - 1, refused := t.refused || o != .acked }
      if t.left = 0 then
        let s := s.tierEnd id t 0 t.value
        if t.kind = .put then s.pageChanged t.op.seg.toNat t.ch t.op.pj.toNat else s
      else s.setTier id t
    | .reading, .rd _ o =>
      (match Blk.tierLine t (t.op.loc.toNat + i) o with
       | none => s.tierEnd id t 7 0 (some (t.op.loc.toNat + i))
       | some d =>
         let t := { t with left := t.left - 1, lines := pset t.lines i d }
         s.setTier id (if t.left = 0 then { t with phase := .lane, laneAt := s.now } else t))
    | _, _ => s

/-- The lines of a stream, zero bytes filling the last (R145). -/
def streamLines (l : List Byte) : List Line :=
  (List.range ((l.length + 63) / 64)).map fun i => ((l.drop (64 * i)).take 64).foldr (fun (b : Byte) (d : Line) => (d <<< 8) ||| b.setWidth 512) 0

/-- Whether an operation is on one of the four lanes of its kind: requests are taken in their order, those of one cycle in ascending slice number
(R404). -/
def Blk.onLane (s : Blk) (t : TierRun) : Bool :=
  let ahead := s.dms.filter fun x => x.2.tier.any fun u =>
    u.phase == .lane && u.kind == t.kind && (decide (u.laneAt < t.laneAt) || (u.laneAt == t.laneAt && decide (u.ch < t.ch)))
  t.phase == .lane && decide (ahead.length < 4)

/-- The bytes of lines. -/
def lineBytes (ls : List Line) : List Byte := (ls.map fun d => (List.range 64).map fun i => d.extractLsb' (8 * i) 8).flatten

/-- A compressor lane answers TSTORE (R148, R402): a stream above 3584 bytes is one without gain, and one that does not give the page back fails its
verification. -/
def Blk.compressed (s : Blk) (id : Nat) (bad : Bool) (bytes : List Byte) : Blk :=
  match s.tierOf id with
  | none => s
  | some (_, t) =>
    if t.kind = .store && s.onLane t then
      let stream := streamLines bytes
      let n := stream.length
      let e := pageEntry (BitVec.ofNat 64 (2 ^ 62 + n * 2 ^ 56 + t.op.loc.toNat)) (shareSize (s.tierWords t).1)
      let page := lineBytes ((List.range 64).map fun i => (pget t.lines (4 + i)).getD 0)
      if 3584 < bytes.length then s.tierEnd id t 1 0
      else if bad || !streamOf page bytes then s.tierEnd id t 2 0
      else if !e.ok then s.tierEnd id t 9 0
      else
        let t := { t with phase := .writing, left := 4 + n, value := BitVec.ofNat 64 n }
        (s.setTier id t).tierForms id t 0 ((List.range 4).map (fun h => (pget t.lines h).getD 0) ++ stream)
    else s

/-- The metadata word of page line `i` in the header lines of a form (R145). -/
def headMeta (hs : List (Nat × Line)) (i : Nat) : Word := (((pget hs (i / 16)).getD 0) >>> (32 * (i % 16))).setWidth 32

/-- Accesses that wait for their page read their lines from a page just expanded (R149, R192); a line that failed is uncorrectable (R22). -/
def Blk.pageServed (s : Blk) (t : TierRun) (ls : List Line) (bad : Nat) : Blk :=
  s.jobs.foldl (fun s x =>
    let j := x.2
    if j.phase = .page ∧ j.op = .rd ∧ segOf j.addr = t.op.seg.toNat ∧ pagePlace j.w1 j.addr = (t.ch, t.op.pj.toNat) then
      let i := j.addr.toNat / 64 % 64
      if bad / 2 ^ i % 2 = 1 then s.readFails x.1 j 0x11
      else s.finish x.1 (.line (ls.getD i 0) (headMeta t.lines i))
    else s) s

end Sys2Proof.Machine
end

