-- ==== Sys2Proof/Machine/HostPort.lean ====
section
/-! DEFINITION. The host ports (03): acceptance (R86), lookup (R88, R89, R108), admission (R98 to R100), the Direct Path
(R17, R18, R101 to R103), the transaction limit (R104 to R106), the ledger scan (R97), doorbells (R110) and registers. -/

namespace Sys2Proof.Machine

/-- Whether the port gives credit: EN, and no LEAVE in progress (R114, R188). -/
def Blk.gives (s : Blk) (p : Nat) : Bool := s.bit (F.HP_CTRL_EN p) && !s.bit F.TW_CTRL_LEAVE

/-- The first FREE entry of a port at or after `hint`, round the ledger (R86). -/
def Blk.freeSlot (s : Blk) (p hint : Nat) : Option Nat :=
  ((List.range 8192).map fun k => (hint + k) % 8192).find? fun i => (s.ent p i).st == .free

/-- The engine takes an entry (R95): a line access in phase `ph`. -/
def Blk.toEngine (s : Blk) (p i : Nat) (ph : JPhase) : Blk :=
  let e := s.ent p i
  let s := s.setEnt p i { e with st := .engine, path := true }
  s.addJob { Job.start (.led p i) e.op e.addr e.cls e.w0 e.w1 e.w2 e.seq with
    data := e.data, mask := e.mask, pois := e.pois, mval := e.mval, chk := e.chk, phase := ph, bad := e.failing }

/-- The line access of an entry starts. -/
def Blk.goEntry (s : Blk) (p i : Nat) : Blk :=
  match s.jobOf (.led p i) with
  | some (id, j) => s.go id j
  | none => s

/-- The conditions of R17 but admission. -/
def Blk.dpMay (s : Blk) (p : Nat) (e : Led) : Bool :=
  (e.op == .rd || (e.op == .wr && !e.mirr)) && !segREMOTE e.w0 && !segCOMP e.w0 && !segCRYPT e.w0 &&
  s.bit (F.HP_CTRL_DPEN p)

/-- Admission of a request of class K for channel c (R98). -/
def Blk.admits (s : Blk) (k c : Nat) : Bool := s.fld (liveFld k c) == 0xFFFF || decide (s.qOf k c < s.fld (liveFld k c))

/-- The decision of an OPEN entry (R17, R95, R98, R100); a Direct Path request enters its queue four cycles after its acceptance (R101). -/
def Blk.route (s : Blk) (p i : Nat) : Blk :=
  let s := s.setEnt p i { s.ent p i with wait := false }
  let e := s.ent p i
  if s.conflicts e.addr (e.op != .rd) e.seq then s.setEnt p i { e with st := .held }
  else if s.dpMay p e then
    let (c, cl) := linePlace e.w1 e.w2 e.addr
    if s.admits e.cls c then
      let s := s.setEnt p i { e with st := .direct, path := false }
      let s := { s with qCnt := tset (fun _ => 0) s.qCnt (qKey e.cls c) (s.qOf e.cls c + 1) }
      s.enqueue c
        { cls := e.cls, wr := e.op == .wr, cl := cl, data := e.data, mta := metaWord e.chk 0 e.mval e.pois,
          purp := .dp p i e.seq, key := none, taddr := e.addr, enter := e.acc + 4, q := true, again := false, stale := false }
    else (s.bump (F.HP_CNT_REJ_COUNT p)).toEngine p i .boundary
  else (s.toEngine p i .held).goEntry p i

/-- The copy of an entry to the partner (R160). -/
def Blk.sendLcpy (s : Blk) (p i : Nat) : Blk :=
  let e := s.ent p i
  if s.twLive && (e.mirr || e.cls == 1) then
    (s.setEnt p i { e with copied := true }).twSend (.lcpy
      { port := Fin.ofNat 4 p, idx := Fin.ofNat 8192 i, op := e.op, cls := BitVec.ofNat 3 e.cls, mirr := e.mirr,
        tag := e.tag, addr := e.addr, pois := e.pois, mval := e.mval, chk := e.chk, data := e.data, mask := e.mask })
  else s

/-- The error that the lookup finds, in the order of R108, in the entry's words as this cycle's lookup sees them (R89). -/
def Blk.lookupErr (s : Blk) (p : Nat) (op : MemOp) (a : PAddr) : Option Nat :=
  let seg := segOf a
  let w0 := s.segWord0 seg 0
  if s.segEcc0 seg then some 0x03
  else if !segValid w0 (s.segWord0 seg 1) (s.segWord0 seg 2) then some 0x01
  else if !(segHPMASK w0).testBit p then some 0x02
  else if op == .ptl && isDoorbell w0 a && s.bit (F.HP_CTRL_CMDEN p) then some 0x04
  else none

/-- An accepted message in entry `i`: ledger entry, check value and lookup (R88 to R96); the entry's first decision falls at the end of the
cycle, for all ports in port order (R96, R99). -/
def Blk.acceptAt (s : Blk) (p i : Nat) (op : MemOp) (m : M2S) (pois : Bool) (data : Line) (mask : BitVec 64) : Blk :=
  let a := lineAddr m.addr
  let seg := segOf a
  let s := m.ecc.foldl (fun s n => { s with segBad := pset s.segBad (4 * seg + n.val) () }) s
  let w0 := s.segWord0 seg 0
  let w1 := s.segWord0 seg 1
  let w2 := s.segWord0 seg 2
  let key := segKEYGEN w0
  let chk : BitVec 24 := match op with
    | .rd => 0
    | .wr => mint data a key
    | .ptl => mint (maskLine data mask) a key
  let e : Led := { Led.blank with
    st := .opn, op := op, cls := segOwner w0, mirr := segMIRR w0, pois := pois, mval := if op = .rd then 0 else m.mta.getD 0, tag := m.tag,
    bay := workBay w0 w1 w2 a, stamp := BitVec.ofNat 20 s.us, addr := a, chk := chk,
    w0 := w0, w1 := w1, w2 := w2, data := data, mask := mask, seq := s.seqNo, acc := s.now, wait := true }
  let s := s.nextSeq.setEnt p i e
  let s := s.bump (if op = .rd then F.HP_CNT_RD_COUNT p else F.HP_CNT_WR_COUNT p)
  match s.lookupErr p op a with
  | some code => (s.hpEvt p false code i seg).respondBad p i
  | none => s.sendLcpy p i

/-- An M2S message: accepted when an entry, and for data a write-line buffer, is free; else no credit is given (R86), which LEDFULL shows from
the message that meets the lack (the spec does not say in which cycle it sets, log 149). -/
def Blk.accept (s : Blk) (p : Nat) (op : MemOp) (m : M2S) (pois : Bool) (data : Line) (mask : BitVec 64) : Blk :=
  if !s.gives p then s
  else
    match s.freeSlot p m.hint.val with
    | some i =>
      if op != .rd && decide (1024 ≤ s.wrBufs p) then s.hwSet (F.HP_STAT_LEDFULL p) else s.acceptAt p i op m pois data mask
    | none => s.hwSet (F.HP_STAT_LEDFULL p)

/-! ### Ends -/

/-- A write commits: to a doorbell line it posts operator-control work first (R110). -/
def Blk.commitWrite (s : Blk) (p i : Nat) : Blk :=
  let e := s.ent p i
  if e.op == .wr && isDoorbell e.w0 e.addr && s.bit (F.HP_CTRL_CMDEN p) then
    (s.setEnt p i { e with dbell := true }).postBell p i e.addr e.data
  else s

/-- The end of an entry's request on the engine path (R95, R108). -/
def Blk.ledDone (s : Blk) (p i : Nat) (o : JobOut) : Blk :=
  let e := s.ent p i
  if !e.isOpen then s
  else
    let seg := segOf e.addr
    match o with
    | .line d m => s.respond p i true d (mPois m) (mVal m)
    | .bad code => (s.hpEvt p (code == 0x22) code i seg).respondBad p i
    | .wrote => (s.commitWrite p i).respond p i false 0 false 0
    | .refused => (s.hpEvt p true 0x23 i seg).respondBad p i
    | .failed => (s.hpEvt p true 0x22 i seg).respondBad p i

/-- The cycle in which the answer to a Direct Path read, captured in cycle `c`, leaves the walk: to RESP at +7, to an engine at +5 or, where the
check value fails, at +7 (R103, R135). -/
def Led.leaves (e : Led) (c : Nat) (o : RdOut) : Nat :=
  match o with
  | .line _ _ false => c + 7
  | .listed => if e.mirr then c + 5 else c + 7
  | _ => c + 5

/-- Whether the response of an entry in DIRECT is decided: its check value has matched at +6, or its line has been answered from the poison
list (R104). -/
def Blk.decided (s : Blk) (e : Led) : Bool :=
  match e.got with
  | some (c, .rd (.line d m false)) => decide (c + 6 ≤ s.now) && mint d e.addr (segKEYGEN e.w0) == mCheck m
  | some (c, .rd .listed) => decide (c + 5 ≤ s.now) && !e.mirr
  | _ => false

/-- The answer to the Direct Path read of an entry (R102, R103, R135). -/
def Blk.dpRead (s : Blk) (p i : Nat) (o : RdOut) : Blk :=
  let e := s.ent p i
  let engine (s : Blk) : Blk :=
    let s := s.toEngine p i .read
    match s.jobOf (.led p i) with
    | some (id, j) => s.jobGot id j o
    | none => s
  match o with
  | .line d m false =>
    if mint d e.addr (segKEYGEN e.w0) = mCheck m then
      (s.bump (F.HP_CNT_DP_COUNT p)).respond p i true d (mPois m) (mVal m)
    else engine s
  | .listed => if e.mirr then engine s else (s.bump (F.HP_CNT_DP_COUNT p)).respond p i true 0 true 0
  | _ => engine s

/-- The answer to the Direct Path write of an entry (R102, R108). -/
def Blk.dpWrite (s : Blk) (p i : Nat) (o : WrOut) : Blk :=
  let e := s.ent p i
  let s := s.bump (F.HP_CNT_DP_COUNT p)
  if o = .acked then (s.commitWrite p i).respond p i false 0 false 0
  else (s.hpEvt p true 0x23 i (segOf e.addr)).respond p i false 0 false 0

/-- The answer to an entry's own line command, kept under R104, reaches the engine; a request failed meanwhile is answered
now (R105). -/
def Blk.ownAns (s : Blk) (p i : Nat) (f : Blk → Nat → Job → Blk) : Blk :=
  let e := s.ent p i
  let s := s.setEnt p i { e with own := false }
  match s.jobOf (.led p i) with
  | some (id, j) => if e.failing then s.finish id .failed else f s id j
  | none => s

/-- An answer reaches the Direct Path entry whose command it is, if the entry still holds that request; that to a read walks on (R103). -/
def Blk.dpAns (s : Blk) (p i n : Nat) (a : Ans) : Blk :=
  let e := s.ent p i
  if !e.isOpen || e.seq != n then s
  else
    match a with
    | .rd _ o => if e.own || e.st == .direct then s.setEnt p i { e with got := some (s.now, .rd o) } else s
    | .wr _ o => if e.own then s.ownAns p i fun s id j => s.jobWrote id j o
                 else if e.st = .direct then s.dpWrite p i o else s

/-- A read's answer that has walked to its end goes to RESP or to the engine. -/
def Blk.ripeOne (s : Blk) (p i : Nat) : Blk :=
  let e := s.ent p i
  match e.got with
  | some (c, .rd o) =>
    if e.leaves c o ≤ s.now then
      let s := s.setEnt p i { e with got := none }
      if e.own then s.ownAns p i fun s id j => s.jobGot id j o else s.dpRead p i o
    else s
  | _ => s

/-- Every read's answer that has walked to its end. -/
def Blk.ripen (s : Blk) : Blk :=
  (s.led.filter fun x => x.2.got.isSome).foldl (fun s x => s.ripeOne (x.1 / 8192) (x.1 % 8192)) s

/-! ### The decisions of a cycle (R96, R99) -/

/-- Entries in the order of their acceptance. -/
def insertEnt (x : Nat × Led) : List (Nat × Led) → List (Nat × Led)
  | [] => [x]
  | y :: l => if x.2.seq < y.2.seq then x :: y :: l else y :: insertEnt x l

/-- The entries whose decision is to be made, port by port, each port's in the order of their acceptance. -/
def Blk.undecided (s : Blk) : List (Nat × Led) :=
  (List.range 4).flatMap fun p =>
    (s.led.filter fun x => x.1 / 8192 == p && x.2.wait && x.2.st == .opn).foldr insertEnt []

/-- A message accepted in this cycle takes its place in the order of acceptance: that of a lower-numbered port is the earlier (R96). -/
def Blk.renumber (s : Blk) (x : Nat × Led) : Blk :=
  if x.2.acc = s.now then { s with led := pset s.led x.1 { x.2 with seq := s.seqNo } }.nextSeq else s

/-- The decisions of the entries accepted or released in this cycle (R95, R96, R99). -/
def Blk.decideAll (s : Blk) : Blk :=
  let l := s.undecided
  l.foldl (fun s x => s.route (x.1 / 8192) (x.1 % 8192)) (l.foldl Blk.renumber s)

/-! ### Transaction limit, scan and release -/

/-- Microseconds since an entry was accepted, modulo 2^20 (R104). -/
def Blk.age (s : Blk) (e : Led) : Nat := (s.us + 2 ^ 20 - e.stamp.toNat) % 2 ^ 20

/-- A transaction-limit expiry (R104): in ENGINE the bay that works on the request is told. -/
def Blk.expire (s : Blk) (p i : Nat) : Blk :=
  let e := s.ent p i
  if e.isOpen && !e.tout && decide (s.fld (F.HP_TXN_LIMIT_LIMIT p) + 1 ≤ s.age e) then
    let s := (s.setEnt p i { e with tout := true }).bump (F.HP_CNT_TOUT_COUNT p)
    let s := s.hpEvt p true 0x21 i (segOf e.addr)
    match e.st with
    | .held => s.toEngine p i .held
    | .direct =>
      if s.decided e then s else
      let s := s.toEngine p i (if e.op = .rd then .read else .write)
      s.setEnt p i { s.ent p i with own := true }
    | .twin => s.setEnt p i { s.ent p i with st := .engine }
    | .engine => s.edge e.bay
    | _ => s
  else s

/-- A request fails on the engine path (R105, R108): a read is answered with Poison; the line of a write is first written with Poison, on a
mirrored segment on both chips, for a segment homed elsewhere by its home. -/
def Blk.failWork (s : Blk) (id : Nat) (j : Job) : Blk :=
  if j.op = .rd then s.finish id (.bad 0x22)
  else if j.phase = .held ∨ j.phase = .boundary then s.setJob id { j with bad := true, phase := .held }
  else
    let n := s.jobNo
    let j' := { j with bad := true, phase := .held, media := false, gen := none, loc := none, rmt := none }
    ((s.stagedOnly id).addJob j').go n j'

/-- Whether a line access serves a request of a host. -/
def Owner.request : Owner → Bool
  | .led _ _ | .rem _ _ | .shad _ | .lcpy _ _ => true
  | _ => false

/-- The requests in the hands of contexts stopped by uncorrectable errors fail; a mirrored read is first asked of the partner (R30). -/
def Blk.failLost (s : Blk) : Blk :=
  if s.lost.isEmpty then s
  else
    (s.jobs.filter fun x => s.lost.contains x.2.ctx && x.2.owner.request).foldl (fun s x =>
      match x.2.phase with
      | .twin | .staged | .origin | .remote | .mirRead => s
      | _ => if x.2.op = .rd then s.readFails x.1 x.2 0x22 else s.failWork x.1 x.2) { s with lost := [] }

/-- The port fails an entry that is still open after twice its limit (R105). -/
def Blk.txnFails (s : Blk) (p i : Nat) : Blk :=
  let e := s.ent p i
  if e.isOpen && e.tout && !e.failing && decide (2 * s.fld (F.HP_TXN_LIMIT_LIMIT p) + 1 ≤ s.age e) then
    let s := s.setEnt p i { e with failing := true }
    if e.own then s
    else
      match s.jobOf (.led p i) with
      | none => s.ledDone p i .failed
      | some (id, j) => s.failWork id j
  else s

/-- A HELD entry whose conflicts are over goes back to OPEN and repeats its decision at the end of the cycle (R95, R96); it enters its queue two
cycles later. -/
def Blk.release (s : Blk) (p i : Nat) : Blk :=
  let e := s.ent p i
  if e.st = .held ∧ s.conflicts e.addr (e.op != .rd) e.seq = false then
    s.setEnt p i { e with st := .opn, wait := true, acc := s.now - 2 }
  else s

/-- An uncorrectable ledger entry is freed without a response (R97). -/
def Blk.lostEntry (s : Blk) (p i : Nat) : Blk :=
  if (s.ent p i).isOpen then
    let s := match s.jobOf (.led p i) with
      | some (id, _) => s.stagedOnly id
      | none => s
    let s := match s.jobOf (.led p i) with
      | some (id, _) => s.delJob id
      | none => s
    (s.hpEvt p true 0x20 i 0).freeEnt p i
  else s

/-- An uncorrectable error strikes a stored entry: an open one is found and lost, the stored bits of any other stay wrong (R97). -/
def Blk.corrupt (s : Blk) (p i : Nat) (bits : BitVec 128) : Blk :=
  if (s.ent p i).isOpen then s.lostEntry p i else s.setEnt p i { s.ent p i with flip := some bits }

/-- The admission rejects of the frame just ended are queued in their class (R100). -/
def Blk.boundaryJobs (s : Blk) : Blk :=
  s.jobs.foldl (fun s x => if x.2.phase = .boundary then s.go x.1 x.2 else s) s

/-! ### Registers -/

/-- A normal write to a register of a host port page, by its page offset (R104, R114). -/
def Blk.wrHp (s : Blk) (p o : Nat) (v : Word) : Blk :=
  match o with
  | 0x28 => s.setFld (F.HP_TXN_LIMIT_LIMIT p) (max 10 ((F.HP_TXN_LIMIT_LIMIT p).get v))
  | 0x2C =>
    let s := s.setFld (F.HP_DEVLOAD_T1 p) (min 100 ((F.HP_DEVLOAD_T1 p).get v))
    let s := s.setFld (F.HP_DEVLOAD_T2 p) (min 100 ((F.HP_DEVLOAD_T2 p).get v))
    s.setFld (F.HP_DEVLOAD_T3 p) (min 100 ((F.HP_DEVLOAD_T3 p).get v))
  | 0x30 => s.ledCapture p ((F.HP_LED_IDX_IDX p).get v)
  | _ => s.plainWrite (0x8000 + 0x1000 * p + o) v

end Sys2Proof.Machine
end

