-- ==== Sys2Proof/Machine/Twin.lean ====
section
/-! DEFINITION. The Twin Port (05): pairing (R180, R181), heartbeat and suspicion (R176 to R179), takeover (R183 to R187),
messages received, walks (R175, R189) and registers (R193). -/

namespace Sys2Proof.Machine

/-- TW_STAT.STATE takes a code. -/
def Blk.setTw (s : Blk) (n : Nat) : Blk := s.setFld F.TW_STAT_STATE n

/-- The checksum over the mirrored segments (R157). -/
def Blk.segSum (s : Blk) : Word :=
  crc32c ((List.range 4096).flatMap fun g =>
    let w0 := s.segWord g 0
    if segMIRR w0 then
      bytesLE 2 (BitVec.ofNat 16 g) ++ bytesLE 4 (w0 &&& 0xFF0FFFFF) ++ bytesLE 4 (s.segWord g 1 &&& 0xFC00FFFF) ++
        bytesLE 4 (s.segWord g 2)
    else [])

/-- A computation of TW_SEGSUM starts, or follows the one that runs (R157, R566). -/
def Blk.sumStart (s : Blk) : Blk :=
  match s.tw.sumAt with
  | none => { s with tw := { s.tw with sumAt := some s.now } }
  | some _ => { s with tw := { s.tw with sumWait := true } }

/-- A write of a segment-table word with its checksum computation (R90, R566). -/
def Blk.wrSeg (s : Blk) (seg n : Nat) (v : Word) : Blk :=
  let t := s.wrSegWord seg n v
  if segMIRR (t.segWord seg 0) && segVALID (t.segWord seg 0) != segVALID (s.segWord seg 0) then t.sumStart else t

/-- A HELLO with this chip's present values (05, Messages on the twin link). -/
def Blk.helloNow (s : Blk) : HelloMsg :=
  { side := s.bit F.TW_STAT_SIDE, pairId := BitVec.ofNat 4 (s.fld F.TW_CFG_PAIRID), join := s.bit F.TW_CTRL_JOIN,
    ver := s.csVersion, frame := s.tb.frame, segsum := s.rd F.TW_SEGSUM_off, state := BitVec.ofNat 3 s.twState }

/-- A HELLO is sent. -/
def Blk.sendHello (s : Blk) : Blk :=
  let m := s.helloNow
  { s with tw := { s.tw with helloTx := some m } }.twSend (.hello m)

/-- The ERR_CODE of the first HELLO check that fails (R181). -/
def helloCheck (own part : HelloMsg) : Option Nat :=
  if own.side = part.side then some 0x30
  else if own.pairId ≠ part.pairId then some 0x31
  else if own.segsum ≠ part.segsum then some 0x32
  else if own.frame ≠ part.frame then some 0x33
  else if (own.state = 5 ∧ part.join = true) ∨ (own.state ≠ 5 ∧ own.join = true ∧ part.state = 5) ∨
    (own.state ≠ 5 ∧ own.join = false ∧ part.join = false ∧ part.state ≠ 5) then none
  else some 0x34

/-- The first whole slot from now on: this one in its first cycle, else the next. -/
def Blk.wholeSlot (s : Blk) : Nat := if s.now = s.tb.slotAt then s.tw.slotNo else s.tw.slotNo + 1

/-- The checks of the two HELLOs, which name the agreed boundary or refuse the pairing (R180, R181). -/
def Blk.helloJudge (s : Blk) : Blk :=
  match s.tw.helloTx, s.tw.helloRx with
  | some own, some part =>
    (match helloCheck own part with
     | none => { s with tw := { s.tw with agreedAt := some s.wholeSlot } }
     | some code =>
       let s := { s with tw := { s.tw with helloTx := none, helloRx := none } }
       let s := if s.twState = 1 then s.setTw 0 else s
       s.raise 10 (some (code, 0)))
  | _, _ => s

/-- SEGSUM_COMPUTE_DONE: 4096 cycles after its start (R157, R566). -/
def Blk.sumDone (s : Blk) : Blk :=
  match s.tw.sumAt with
  | some t =>
    if s.now < t + 4096 then s
    else
      let s := s.wr F.TW_SEGSUM_off s.segSum
      let s := { s with tw := { s.tw with sumAt := if s.tw.sumWait then some s.now else none, sumWait := false } }
      if s.twState = 1 ∧ s.tw.helloTx.isNone then s.sendHello.helloJudge else s
  | none => s

/-- LEAD as the state entered needs it, and counters of silence from now (R177, R180). -/
def Blk.enterPair (s : Blk) (st : Nat) (lead : Bool) : Blk :=
  let s := (s.setTw st).setBit F.TW_STAT_LEAD lead
  { s with tw := { s.tw with agreedAt := none, helloTx := none, helloRx := none, lastHb := s.tw.slotNo,
                             lastMsg := s.tw.slotNo, hbFault := false, misses := 0, verSince := none } }

/-- PAIRED when the versions agree, else DEGRADED with a lead; event 12 (R180, R194). -/
def Blk.enterByVersion (s : Blk) (ver : Word) (lead : Bool) : Blk :=
  (if ver = s.csVersion then s.enterPair 2 false else s.enterPair 3 lead).raise 12

/-- The resync walk of every channel starts (R189). -/
def allWalks : List (Nat × Walk) := (List.range 32).map fun c => (c, ⟨0, 0⟩)

/-- The agreed boundary, the first frame boundary at least 4 slots after both HELLOs (R180, R181). -/
def Blk.agreed (s : Blk) : Blk :=
  match s.tw.agreedAt, s.tw.helloRx with
  | some t, some part =>
    if s.tw.slotNo < t + 4 then s
    else if s.twState = 5 then
      let s := (s.enterPair 6 true).set1 F.TW_STAT_RSYBUSY
      { s.clr1 F.TW_RSY_STAT_DONE with tw := { s.tw with rsy := allWalks } }
    else if s.bit F.TW_CTRL_JOIN then
      let s := (s.enterPair 6 false).set1 F.TW_STAT_RSYBUSY
      { s.clr1 F.TW_RSY_STAT_DONE with tw := { s.tw with rsy := allWalks } }
    else s.enterByVersion part.ver (s.fld F.TW_STAT_SIDE == 0)
  | _, _ => s

/-- REJOIN ends at the first frame boundary strictly after the resync is complete (R6, R180); the lead is kept. -/
def Blk.rejoined (s : Blk) : Blk :=
  if s.twState = 6 ∧ s.bit F.TW_STAT_RSYBUSY = false ∧ pget s.asked 65 ≠ some s.tb.bndAt then
    s.enterByVersion (s.rd F.TW_PVER_off) (s.bit F.TW_STAT_LEAD)
  else s

/-- The chip fails (R179): the hand-over of responses stops, TW_FAIL_N is asserted, and the state is FAILED until reset. -/
def Blk.chipFail (s : Blk) (byBcn : Bool) : Blk :=
  if s.twState = 7 then s
  else
    let s := (s.setTw 7).clr1 F.TW_CTRL_LEAVE
    let s := { s with tw := { s.tw with failOut := true, suspAt := none, agreedAt := none, helloTx := none, helloRx := none } }
    s.raise 13 (if byBcn then some (0x50, 0) else none)

/-- The partner is held suspect (R177, R180, R183): own TWIN entries pass to ENGINE; a joiner that is not yet resynced
fails instead (R179). -/
def Blk.holdSuspect (s : Blk) (code : Nat) : Blk :=
  if s.twState = 6 ∧ s.bit F.TW_STAT_LEAD = false ∧ s.bit F.TW_RSY_STAT_DONE = false then s.chipFail false
  else if s.twState = 2 ∨ s.twState = 3 ∨ s.twState = 6 then
    let s := s.raise 6 (some (code, 0))
    let s := { s with tw := { s.tw with prior := s.twState, suspAt := some s.wholeSlot } }
    let up (x : Nat × Led) : Nat × Led := if x.2.st = .twin then (x.1, { x.2 with st := .engine }) else x
    { s with led := s.led.map up }.setTw 4
  else s

/-- Link loss: side 0 holds the partner suspect, side 1 fails (R177 to R179). -/
def Blk.linkLoss (s : Blk) : Blk :=
  if s.twState = 2 ∨ s.twState = 3 ∨ s.twState = 6 then
    if s.bit F.TW_STAT_SIDE then s.chipFail false else s.holdSuspect 3
  else s

/-! ### Takeover -/

/-- The response to a shadow entry on the port of the same number (R185), unless this chip has failed since (R179). -/
def Blk.shadRespond (s : Blk) (c : LedCopy) (isData : Bool) (data : Line) (pois : Bool) (mval : BitVec 2) : Blk :=
  let p := c.port.val
  if s.twState = 7 then s else
  let s := { s with s2m := s.s2m ++ [S2M.mk p c.tag
    { isData := isData, data := data, pois := pois, mval := mval, devload := s.devLoad p }] }
  if pois then s.bump (F.HP_CNT_POIS_COUNT p) else s

/-- The end of a shadow entry that the survivor performed (R185). -/
def Blk.shadDone (s : Blk) (c : LedCopy) (o : JobOut) : Blk :=
  let p := c.port.val
  let seg := segOf c.addr
  let bad (s : Blk) : Blk := if c.op = .rd then s.shadRespond c true 0 true 0 else s.shadRespond c false 0 false 0
  match o with
  | .line d m => s.shadRespond c true d (mPois m) (mVal m)
  | .bad code => bad (s.hpEvt p (code == 0x22) code c.idx seg)
  | .wrote =>
    let s := if c.op == .wr && isDoorbell (s.segWord seg 0) c.addr && s.bit (F.HP_CTRL_CMDEN p) then
        s.postBell p c.idx c.addr c.data else s
    bad s
  | .refused => bad (s.hpEvt p true 0x23 c.idx seg)
  | .failed => bad (s.hpEvt p true 0x22 c.idx seg)

/-- The survivor acts on a shadow entry (R185): an unmirrored line is homed on the lost side where this chip has no valid entry of its segment, or
one that forwards to the pair. -/
def Blk.takeShadow (s : Blk) (x : Shadow) : Blk :=
  let c := x.c
  let seg := segOf c.addr
  let w0 := s.segWord seg 0
  let lost := !c.mirr && (!s.segOk seg || (segREMOTE w0 && segHOMEPAIR w0 == s.fld F.TW_CFG_PAIRID))
  if c.op = .rd then
    if lost then s.shadDone c (.bad 0x22) else s.request (.shad c) .rd c.addr none id
  else if x.staged || lost then s.shadRespond c false 0 false 0
  else s.request (.shad c) c.op c.addr none fun j =>
    { j with data := c.data, mask := c.mask, pois := c.pois, mval := c.mval, chk := c.chk }

/-- One line access at the takeover (R184): what waits for the partner goes on without it. -/
def Blk.takeJob (s : Blk) (id : Nat) (j : Job) : Blk :=
  match j.owner, j.phase with
  | .rcpRead, _ | .vfyP, _ | .vfyS _ _, _ | .mrd, _ | .lcpy _ _, .held | .rem none _, _ => s.delJob id
  | .lcpy _ _, .twin => s.stagedOnly id
  | .lcpy _ _, _ => s.delJob id
  | _, .twin => (s.endFor j (if j.bad then .failed else .wrote)).stagedOnly id
  | _, .origin => s.go id j
  | _, .mirRead => s.finish id (.bad 0x11)
  | _, .mirGen => s.setJob id { j with phase := .genDone, gen := none }
  | _, .dual =>
    (match j.loc with
     | some (some (d, m)) => s.finish id (.line d m)
     | some none => s.finish id (.bad 0x11)
     | none => s.setJob id { j with phase := .read })
  | _, .remote =>
    if !segREMOTE j.w0 then s.go id { j with phase := .held }
    else if segHOMEPAIR j.w0 = s.fld F.TW_CFG_PAIRID then s.finish id (if j.op = .rd then .bad 0x22 else .failed) else s
  | _, _ => s

/-- The takeover, step 6 of R25 (R183, R184). -/
def Blk.takeover (s : Blk) : Blk :=
  let s := (s.setTw 5).clr1 F.TW_STAT_LEAD
  let s := (s.clr1 F.TW_STAT_VFYBUSY).clr1 F.TW_STAT_RSYBUSY
  let shadow := s.tw.shadow
  let s := { s with tw := { s.tw with susp := [], suspAt := none, vfy := [], rsy := [], shadow := [] } }
  let s := s.jobs.foldl (fun s x => s.takeJob x.1 x.2) s
  let s := shadow.foldl (fun s x => s.takeShadow x.2) s
  let s := s.setFld F.TW_TKO_LO_FRAME (s.tb.frame.toNat % 2 ^ 32)
  let s := s.setFld F.TW_TKO_HI_FRAME (s.tb.frame.toNat / 2 ^ 32)
  s.raise 7

/-- What the Twin Port does at a frame boundary: a takeover or a change of the pair state that is due, then the beacon or
a HELLO (R25 step 6, R180 to R184). -/
def Blk.twFrame (s : Blk) : Blk :=
  let s := { s with tw := { s.tw with frame0 := s.tb.frame } }
  let s := match s.tw.suspAt with
    | some t => if t + 4 ≤ s.tw.slotNo then s.takeover else s
    | none => s
  let s := s.agreed.rejoined
  let st := s.twState
  if 2 ≤ st ∧ st ≤ 6 then s.twSend (.bcn s.tb.frame s.csVersion (BitVec.ofNat 3 st))
  else if st = 1 ∧ s.tw.sumAt.isNone ∧ s.tw.agreedAt.isNone then s.sendHello
  else s

/-- What the Twin Port does at a slot boundary: a partner slot that ended without a valid pulse counts, and a KEEP leaves
every fourth slot (R176, R193). -/
def Blk.twSlot (s : Blk) (ended : Nat) : Blk :=
  let paired := decide (2 ≤ s.twState) && s.twState != 5 && s.twState != 7
  let s := if paired && ended % 2 != s.fld F.TW_STAT_SIDE && !s.tw.hbSeen then s.bump F.TW_CNT_HBMISS_COUNT else s
  let s := { s with tw := { s.tw with slotNo := s.tw.slotNo + 1, hbSeen := false } }
  if paired && s.tb.slot.toNat % 4 == 0 then s.twSend .keep else s

/-! ### Messages -/

/-- A message is rejected, with the segment of the line that it concerns (R159, R194). -/
def Blk.twReject (s : Blk) (ref : Nat) (seg : Nat := 0) : Blk :=
  ((s.bump F.TW_CNT_LINK_COUNT).raise 9 (some (0x20, seg))).twSend (.nakLink ref)

/-- A message arrives: a chip without a partner discards it, a message in error is rejected, and any message ends the
silence (R159, R177, R184). -/
def Blk.onMsg (s : Blk) (h : TwHdr) (ok : Blk → Bool) (f : Blk → Blk) (seg : Nat := 0) : Blk :=
  if s.twLive then
    let s := { s with tw := { s.tw with lastMsg := s.tw.slotNo } }
    if h.err || !ok s then s.twReject h.ref seg else f s
  else s

/-- The partner's CS_VERSION is learnt (R193). -/
def Blk.pver (s : Blk) (ver : Word) : Blk := (s.wr F.TW_PVER_off ver).setBit F.TW_STAT_VERDIFF (ver != s.csVersion)

/-- HELLO (R180, R181): in LINK both HELLOs are judged; a survivor with PAIR 1 answers a joiner's. -/
def Blk.rxHello (s : Blk) (h : TwHdr) (m : HelloMsg) : Blk :=
  if h.err ∧ (s.twState = 1 ∨ s.twState = 5) then s.twReject h.ref
  else if s.twState = 1 then
    if s.tw.agreedAt.isSome then s
    else
      let s := s.pver m.ver
      { s with tw := { s.tw with helloRx := some m } }.helloJudge
  else if s.twState = 5 ∧ s.bit F.TW_CTRL_PAIR ∧ m.join then
    if s.tw.agreedAt.isSome then s
    else
      let s := s.pver m.ver
      { s.sendHello with tw := { s.sendHello.tw with helloRx := some m } }.helloJudge
  else s

/-- BCN (R179, R180, R182). -/
def Blk.rxBcn (s : Blk) (frame : FrameIx) (ver : Word) (state : BitVec 3) : Blk :=
  let s := s.pver ver
  let n := if frame = s.tw.frame0 then 0 else s.tw.misses + 1
  let s := { s with tw := { s.tw with misses := if n = 2 then 0 else n } }
  let s := if n = 2 then s.raise 11 (some (0x40, 0)) else s
  if state = 5 then s.chipFail true
  else if s.twState = 2 ∧ ver ≠ s.csVersion then
    { (s.setTw 3).setBit F.TW_STAT_LEAD (s.fld F.TW_STAT_SIDE == 0) with tw := { s.tw with verSince := none } }.raise 12
  else if s.twState = 3 then
    if ver = s.csVersion then
      match s.tw.verSince with
      | none => { s with tw := { s.tw with verSince := some frame.toNat } }
      | some t => if t < frame.toNat then (s.enterPair 2 false).raise 12 else s
    else { s with tw := { s.tw with verSince := none } }
  else s

/-- LCPY: the shadow entry, LACK, and for a write that this chip orders the request itself (R160, R162). -/
def Blk.rxLcpy (s : Blk) (c : LedCopy) : Blk :=
  let key := ledKey c.port c.idx
  let s := { s with tw := { s.tw with shadow := pset s.tw.shadow key ⟨c, false⟩ } }
  let s := s.twSend (.lack c.port c.idx)
  if c.mirr && c.op != .rd && s.primary (segOf c.addr) then
    s.request (.lcpy c.port c.idx) c.op c.addr none fun j =>
      { j with data := c.data, mask := c.mask, pois := c.pois, mval := c.mval, chk := c.chk }
  else s

/-- Whether the line of an LCPY matches its check value (R21). -/
def Blk.lcpyOk (s : Blk) (c : LedCopy) : Bool :=
  match c.op with
  | .rd => true
  | .wr => s.lineOk c.addr c.data c.chk
  | .ptl => s.lineOk c.addr (maskLine c.data c.mask) c.chk

/-- The line that a WRQ commits: the merged data it carries, else what this chip holds (R164). -/
def Blk.wrqData (s : Blk) (ref : OriginRef) (merged : Option Line) : Option Line :=
  match merged with
  | some d => some d
  | none =>
    if ref.eng.isSome then none
    else if ref.mine then (pget s.tw.shadow (ledKey ref.port ref.idx)).map fun x => x.c.data
    else some (s.ent ref.port ref.idx).data

/-- WRQ at the secondary (R165): an entry of its own whose write is staged ends, though it still waits for another access (R96). -/
def Blk.rxWrq (s : Blk) (addr : PAddr) (ref : OriginRef) (stamp : FrameIx) (mta : Word) (data : Line) : Blk :=
  let back : OriginRef := { ref with mine := !ref.mine }
  if stamp < s.tb.frame then s.twSend (.nakLate back s.tb.frame)
  else
    let s := s.dropRcp (lineAddr addr)
    let s := s.request .nobody .wr addr none fun j => { j with data := data, mta := mta, stamp := stamp }
    let n := s.lastJob
    let s := match s.job n with
      | some j => s.go n j
      | none => s
    let s := if ref.eng.isSome then s
      else if ref.mine then s.stageShadow (ledKey ref.port ref.idx)
      else
        match s.jobOf (.led ref.port ref.idx) with
        | some (id, j) => if (j.phase = .origin ∨ j.phase = .held) ∧ !j.bad then s.finish id .wrote else s
        | none => s.ledDone ref.port ref.idx .wrote
    s.twSend (.ack back stamp)

/-- The mirrored write of this chip as primary that an ACK or NAK_LATE names. -/
def Blk.refJob (s : Blk) (ref : OriginRef) : Option (Nat × Job) :=
  s.jobs.find? fun x => x.2.phase == .twin && originRef x.1 x.2.owner == { ref with mine := !ref.mine }

/-- ACK (R167). -/
def Blk.rxAck (s : Blk) (ref : OriginRef) (stamp : FrameIx) : Blk :=
  match s.refJob ref with
  | some (id, j) => if j.stamp = stamp then s.committed id j else s
  | none => s

/-- NAK_LATE (R166). -/
def Blk.rxNakLate (s : Blk) (ref : OriginRef) (frame : FrameIx) : Blk :=
  match s.refJob ref with
  | some (id, j) =>
    let n := if s.stampNow < frame then frame else s.stampNow
    let j := { j with stamp := n }
    ((s.setJob id j).sendWrq id j).bump F.TW_CNT_LATE_COUNT
  | none => s

/-- NAK_LINK: the message is sent again, and its third rejection is link loss (R159, R178). -/
def Blk.rxNakLink (s : Blk) (msg : Nat) : Blk :=
  let n := tget (fun _ => 0) s.tw.rejects msg + 1
  let s := { s with tw := { s.tw with rejects := tset (fun _ => 0) s.tw.rejects msg n } }
  if 3 ≤ n then s.linkLoss
  else
    match s.tw.tx.find? fun x => x.1 == msg with
    | some x => { s with tw := { s.tw with tx := s.tw.tx ++ [x] } }
    | none => s

/-- A NAK_LINK that arrives: one for a HELLO meets LINK or SURVIVOR (R159). -/
def Blk.gotNakLink (s : Blk) (h : TwHdr) (msg : Nat) : Blk :=
  if s.twState = 1 ∨ s.twState = 5 then (if h.err then s.twReject h.ref else s.rxNakLink msg)
  else s.onMsg h (fun _ => true) fun s => s.rxNakLink msg

/-- Whether a segment is mirrored and has a share on channel `c`. -/
def Blk.mirrorsOn (s : Blk) (c g : Nat) : Bool :=
  let w1 := s.segWord g 1
  s.segOk g && segMIRR (s.segWord g 0) && decide (segCHBASE w1 ≤ c) && decide (c < segCHBASE w1 + 2 ^ segCHLOG w1)

/-- The address of line `u` of a segment's share on channel `c`. -/
def Blk.walkAddr (s : Blk) (c g u : Nat) : PAddr :=
  let w1 := s.segWord g 1
  if segCOMP (s.segWord g 0) then pageAddr w1 g c (u / 64) (u % 64) else shareAddr w1 g c u

/-- The next line of the resync walk on channel `c`, in ascending segment and CL: its address, with the walk that goes on after it (R189). -/
def Blk.walkNext (s : Blk) (c : Nat) (w : Walk) : Option (PAddr × Walk) :=
  ((List.range 4096).find? fun g =>
    s.mirrorsOn c g && (decide (w.seg < g) || (w.seg == g && decide (w.u < shareSize (s.segWord g 1))))).map fun g =>
    let u := if g = w.seg then w.u else 0
    (s.walkAddr c g u, ⟨g, u + 1⟩)

/-- The next line of the verify walk on channel `c` from a CL up, in ascending CL over the segments for which this chip is the
primary-of-record: segment, address and CL (R175). -/
def Blk.verifyNext (s : Blk) (c cl : Nat) : Option (Nat × PAddr × Nat) :=
  let last := s.fld F.TW_VFY_SEG_LAST
  let at_ (g : Nat) : Nat := max cl (shareBase (s.segWord g 2))
  let gs := (List.range (last + 1)).filter fun g =>
    decide (s.fld F.TW_VFY_SEG_FIRST ≤ g) && s.mirrorsOn c g && s.primary g &&
    decide (cl < shareBase (s.segWord g 2) + shareSize (s.segWord g 1))
  match gs with
  | [] => none
  | g0 :: r =>
    let g := r.foldl (fun a g => if at_ g < at_ a then g else a) g0
    some (g, s.walkAddr c g (at_ g - shareBase (s.segWord g 2)), at_ g)

/-- The lowest segment of the resync walks. -/
def lowSeg (m : List (Nat × Walk)) : Nat := m.foldl (fun a x => min a x.2.seg) 0xFFF

/-- An RCP for a line comes to the joiner: the resync walk of its channel goes on where it is the copy of the next line, and one rejected is still
owed (R159, R189). -/
def Blk.rsyGot (s : Blk) (a : PAddr) (ok : Bool) : Blk :=
  if s.twState = 6 ∧ s.bit F.TW_STAT_LEAD = false then
    let owed := s.tw.owed.filter (· != a)
    match s.tw.rsy.find? fun x => (s.walkNext x.1 x.2).any (·.1 == a) with
    | some (c, w) =>
      let w' := ((s.walkNext c w).map (·.2)).getD w
      let s := { s with tw := { s.tw with rsy := pset s.tw.rsy c w', owed := if ok then owed else a :: owed } }
      s.setFld F.TW_RSY_STAT_SEG (lowSeg s.tw.rsy)
    | none => if ok then { s with tw := { s.tw with owed := owed } } else s
  else s

/-- MRD: a read of this chip's copy, or an RCP of it (R174). -/
def Blk.rxMrd (s : Blk) (addr : PAddr) (copy : Bool) : Blk :=
  if copy then s.queueRcp addr
  else
    let s := s.request .mrd .rd addr none id
    match s.job s.lastJob with
    | some j => s.go s.lastJob j
    | none => s

/-- MRS: the first access that waits for the partner's copy of the line gets it (R174). -/
def Blk.rxMrs (s : Blk) (addr : PAddr) (copy : Option (Line × Word)) : Blk :=
  match s.jobs.find? fun x => x.2.addr == lineAddr addr &&
      (x.2.phase == .mirRead || x.2.phase == .mirGen || (x.2.phase == .dual && x.2.rmt.isNone)) with
  | some (id, j) => s.mirGot id j copy
  | none => s

/-- RCP: the line is written in class M (R172). -/
def Blk.rxRcp (s : Blk) (addr : PAddr) (data : Line) (mta : Word) : Blk :=
  let s := s.rsyGot (lineAddr addr) true
  let s := s.request .rcpWrite .wr addr (some 4) fun j => { j with data := data, mta := mta }
  match s.job s.lastJob with
  | some j => s.go s.lastJob j
  | none => s

/-- VRQ at the secondary: its own copy is read in class M (R175). -/
def Blk.rxVrq (s : Blk) (addr : PAddr) (mta crc : Word) : Blk :=
  let s := s.request (.vfyS mta crc) .rd addr (some 4) id
  match s.job s.lastJob with
  | some j => s.go s.lastJob j
  | none => s

/-- CRC-32C of a line's data bytes (R175). -/
def lineCrc (d : Line) : Word := crc32c (bytesLE 64 d)

/-- The segment of the request that an answer answers. -/
def Blk.rspSeg (s : Blk) (r : RemRsp) : Nat :=
  match s.jobs.find? fun x => x.2.phase == .remote && x.2.ref x.1 == r.ref with
  | some (_, j) => segOf j.addr
  | none => 0

/-- Whether the line of an answer matches its check value, with the address of the request that it answers (R21). -/
def Blk.rspOk (s : Blk) (r : RemRsp) : Bool :=
  match r.line, s.jobs.find? fun x => x.2.phase == .remote && x.2.ref x.1 == r.ref with
  | some (d, m), some (_, j) => s.lineOk j.addr d (mCheck m)
  | _, _ => true

/-! ### Walks -/

/-- The walks of a channel take one step each: the next line is read in class M (R175, R189). -/
def Blk.walkStep (s : Blk) (c : Nat) : Blk :=
  let s := match if s.bit F.TW_STAT_LEAD then pget s.tw.rsy c else none with
    | none => s
    | some w =>
      (match s.walkNext c w with
       | some (a, w') =>
         let s := { s with tw := { s.tw with rsy := pset s.tw.rsy c w' } }
         (s.queueRcp a).setFld F.TW_RSY_STAT_SEG (lowSeg s.tw.rsy)
       | none => { s with tw := { s.tw with rsy := pdel s.tw.rsy c } })
  match pget s.tw.vfy c with
  | none => s
  | some cl =>
    (match s.verifyNext c cl with
     | some (g, a, l) =>
       let s := { s with tw := { s.tw with vfy := pset s.tw.vfy c (l + 1) } }
       let s := s.setFld F.TW_VFY_STAT_SEG g
       let s := s.request .vfyP .rd a (some 4) id
       (match s.job s.lastJob with
        | some j => s.go s.lastJob j
        | none => s)
     | none => { s with tw := { s.tw with vfy := pdel s.tw.vfy c } }.vfyEnd)

/-- The resync is complete from this cycle (R6, R180). -/
def Blk.resyncEnds (s : Blk) : Blk :=
  if s.bit F.TW_STAT_RSYBUSY then { s.clr1 F.TW_STAT_RSYBUSY with asked := pset s.asked 65 s.now } else s

/-- RESYNC_DONE (R180, R189): every copy has come to the joiner and been written; the lead has none left to send. -/
def Blk.resynced (s : Blk) : Blk :=
  if s.twState = 6 then
    if s.bit F.TW_STAT_LEAD then
      if s.tw.rsy.isEmpty && !(s.jobs.any fun x => x.2.owner == .rcpRead) then s.resyncEnds else s
    else if s.tw.owed != [] || (s.tw.rsy.any fun x => (s.walkNext x.1 x.2).isSome) || (s.jobs.any fun x => x.2.owner == .rcpWrite) then s
    else (s.set1 F.TW_RSY_STAT_DONE).resyncEnds
  else s

/-! ### Heartbeat, pins and registers -/

/-- A rising edge on TW_HB: a pulse of the partner is valid in one of its slots (R176). -/
def Blk.hbPulse (s : Blk) : Blk :=
  if s.tb.slot.toNat % 2 != s.fld F.TW_STAT_SIDE then
    { s with tw := { s.tw with lastHb := s.tw.slotNo, hbSeen := true, hbFault := false } }
  else s

/-- Whether this chip drives TW_HB, to a pulse: from +32 to +47 cycles of its own slots; at all other times the line is at high impedance
(R176). -/
def Blk.hbDrives (s : Blk) : Bool :=
  decide (2 ≤ s.tbState) && s.tb.slot.toNat % 2 == s.fld F.TW_STAT_SIDE && decide (s.tb.slotAt + 32 ≤ s.now) && decide (s.now ≤ s.tb.slotAt + 47)

/-- Sixteen whole slots have passed since the slot of the last pulse, of the last message (R177, R178). -/
def Blk.noHb (s : Blk) : Bool := decide (s.tw.lastHb + 17 ≤ s.tw.slotNo)
@[inherit_doc Blk.noHb] def Blk.noMsg (s : Blk) : Bool := decide (s.tw.lastMsg + 17 ≤ s.tw.slotNo)
/-- The states in which the partner is watched (R180). -/
def Blk.watches (s : Blk) : Bool := s.twState == 2 || s.twState == 3 || s.twState == 6

/-- Pulses missing while messages arrive (R178). -/
def Blk.hbLineFault (s : Blk) : Blk :=
  if s.watches && s.noHb && !s.noMsg && !s.tw.hbFault then
    { s with tw := { s.tw with hbFault := true } }.raise 11 (some (0x41, 0))
  else s

/-- PAIR of a write of TW_CTRL (R180, R181). -/
def Blk.pairWrite (s : Blk) (pair : Bool) : Blk :=
  let s := s.setBit F.TW_CTRL_PAIR pair
  if pair then
    if !s.tw.pin.pres then s.raise 10 (some (0x35, 0))
    else if s.twState = 0 then
      if s.fld F.SC_TB_STAT_STATE = 2 ∨ s.fld F.SC_TB_STAT_STATE = 3 then
        { (s.setTw 1) with tw := { s.tw with helloTx := none, helloRx := none, agreedAt := none } }.sumStart
      else s
    else s
  else if s.twState = 1 then { (s.setTw 0) with tw := { s.tw with helloTx := none, helloRx := none, agreedAt := none } }
  else s

/-- RALRDY follows RALGN and the level of TW_SYNC (R191). -/
def Blk.ralrdy (s : Blk) : Blk := s.setBit F.TW_STAT_RALRDY (s.bit F.TW_CTRL_RALGN && s.tw.pin.sync)

/-- The levels at the Twin Port's pins (R177, R191, R193): TW_FAIL_N driven by the partner, or TW_PRES_N deasserted, makes it suspect. -/
def Blk.twPins (s : Blk) (pin : TwPins) : Blk :=
  let s := (s.setBit F.TW_STAT_PRES pin.pres).setBit F.TW_STAT_PFAIL pin.fail
  let s := { s with tw := { s.tw with pin := pin } }.ralrdy
  if !pin.pres || (pin.fail && !s.tw.failOut) then s.holdSuspect 2 else s

/-- A write of TW_CTRL (R175, R179, R180, R188, R191, R193). -/
def Blk.wrTwCtrl (s : Blk) (v : Word) : Blk :=
  let s := (s.setFld F.TW_CTRL_RALGN (F.TW_CTRL_RALGN.get v)).ralrdy
  let s := s.setFld F.TW_CTRL_DUAL (F.TW_CTRL_DUAL.get v)
  let s := if s.twState = 0 then s.setFld F.TW_CTRL_JOIN (F.TW_CTRL_JOIN.get v) else s
  let s := s.pairWrite (F.TW_CTRL_PAIR.get v == 1)
  let st := s.twState
  let s := if F.TW_CTRL_VFYGO.get v = 1 ∧ s.bit F.TW_STAT_VFYBUSY = false ∧ s.twLive ∧ ((if st = 4 then s.tw.prior else st) = 2 ∨ s.bit F.TW_STAT_LEAD) then
      { s.set1 F.TW_STAT_VFYBUSY with tw := { s.tw with vfy := (List.range 32).map fun c => (c, 0) } }
    else s
  let s := if F.TW_CTRL_LEAVE.get v = 1 ∧ (st = 2 ∨ st = 3) then s.set1 F.TW_CTRL_LEAVE else s
  if F.TW_CTRL_FAIL.get v = 1 then s.chipFail false else s

/-- The leaving chip has drained: BYE, then it fails (R188). -/
def Blk.leaveDrained (s : Blk) : Blk :=
  if s.bit F.TW_CTRL_LEAVE && !(s.led.any fun x => x.2.isOpen) && !(s.jobs.any fun x => x.2.phase == .staged || x.2.media) then
    (s.twSend .bye).chipFail false
  else s

/-- A normal write to a register of the Twin Port page, by its page offset (R193). -/
def Blk.wrTw (s : Blk) (o : Nat) (v : Word) : Blk :=
  match o with
  | 0x20 => s.wrTwCtrl v
  | 0x24 =>
    if s.twState = 0 then
      (s.setFld F.TW_CFG_PAIRID (F.TW_CFG_PAIRID.get v)).setFld F.TW_CFG_CUTOFF (min 1019 (F.TW_CFG_CUTOFF.get v))
    else s
  | 0x70 =>
    let i := F.TW_SUS_IDX_IDX.get v
    let e := pget s.tw.susp i
    let s := (s.setFld F.TW_SUS_IDX_IDX i).wr F.TW_SUS_LO_off ((e.getD 0).setWidth 32)
    (s.setFld F.TW_SUS_HI_ADDR ((e.getD 0).toNat / 2 ^ 32)).setBit F.TW_SUS_HI_VALID e.isSome
  | _ => s.plainWrite (0xC000 + o) v

end Sys2Proof.Machine
end

