-- ==== Sys2Proof/Machine/Line.lean ====
section
/-! DEFINITION. How the line accesses of the block settle within a command: answers of the slices go to their work, those of tier
transfers to their operations, ends
go to their owners, and held accesses whose conflicts are over start (R19, R96). -/

namespace Sys2Proof.Machine

/-- An answer of a slice goes to the work whose line command it answers. -/
def Blk.takeAns (s : Blk) (a : Ans) : Blk :=
  let r := match a with | .rd r _ => r | .wr r _ => r
  match r.purp with
  | .dp p i n => s.dpAns p i n a
  | .job id =>
    (match a with
     | .rd r o => s.jobAns id r o
     | .wr _ o =>
       (match s.job id with
        | some j => s.jobWrote id j o
        | none => s))
  | .tier k i =>
    (match a, r.key with
     | .rd r (.line d m f), some _ => s.toCrypt (r.taddr.toNat / 2 ^ 30 % 32) { r with data := d, mta := m, again := f }
     | _, _ => { s with tgot := s.tgot ++ [(k, i, a)] })
  | _ => s

/-- The end of a line access goes to its owner; a partner's write that fails in the primary's hands is reported there (log 158). -/
def Blk.takeFin (s : Blk) (o : Owner) (r : JobOut) (addr : PAddr) : Blk :=
  match o with
  | .led p i => s.ledDone p i r
  | .rem fab q => s.remDone fab q r
  | .shad c => s.shadDone c r
  | .rcpRead =>
    (match r with
     | .line d m => (s.twSend (.rcp addr d m)).unsuspect addr
     | _ =>
       if s.twState = 6 then
         s.twSend (.rcp addr 0 (metaWord (mint 0 addr (segKEYGEN (s.segWord (segOf addr) 0))) 0 0 true))
       else s)
  | .rcpWrite => s.unsuspect addr
  | .mrd => s.twSend (.mrs addr (match r with | .line d m => some (d, m) | _ => none))
  | .vfyP =>
    (match r with
     | .line d m => (s.twSend (.vrq addr m (lineCrc d))).vfyEnd
     | _ => s.vfyEnd)
  | .vfyS m crc =>
    (match r with
     | .line d m' =>
       if m' = m ∧ lineCrc d = crc then s
       else
         let s := s.request (.vfyS m crc) .rd addr (some 4) fun j => { j with phase := .dual, loc := some (some (d, m')) }
         s.askPartner addr false
     | _ => s)
  | .lcpy p i => if r = .failed then s.hpEvt p true 0x22 i (segOf addr) else s
  | .nobody => s
  | .sieve b k _ => if (pget s.svUnits b).any (·.no == k) then { s with got := s.got ++ [(o, r)] } else s
  | .result k => if (pget s.svSubs (k / 2 ^ 32)).isSome then { s with got := s.got ++ [(o, r)] } else s
  | _ => { s with got := s.got ++ [(o, r)] }

/-- The context for which the data mover makes a line access. -/
def Blk.moverCtx (s : Blk) : Owner → Option Nat
  | .dmLine k _ => (pget s.dms k).map (·.ctx)
  | .pool k => (pget s.pools k).map (·.ctx)
  | _ => none

/-- Whether an earlier access of the same context to the line has not completed (R294). -/
def Blk.behind (s : Blk) (j : Job) : Bool :=
  match s.moverCtx j.owner with
  | some k => s.jobs.any fun x => decide (x.2.seq < j.seq) && x.2.addr == j.addr && s.moverCtx x.2.owner == some k
  | none => false

/-- A held access, if one's conflicts are over (R96) and its turn has come (R294). -/
def Blk.ready (s : Blk) : Option (Nat × Job) :=
  s.jobs.find? fun x => x.2.phase == .held && !s.conflicts x.2.addr (x.2.op != .rd) x.2.seq && !s.behind x.2

/-- The block settles: at most `n` answers, ends and starts. -/
def Blk.settleN : Nat → Blk → Blk
  | 0, s => s
  | n + 1, s =>
    match s.ans with
    | a :: r => settleN n ({ s with ans := r }.takeAns a)
    | [] =>
      match s.fin with
      | (o, r, a) :: f => settleN n ({ s with fin := f }.takeFin o r a)
      | [] =>
        match s.tgot with
        | (k, i, a) :: r => settleN n ({ s with tgot := r }.tierGot k i a)
        | [] =>
          match s.ready with
          | some (id, j) => settleN n (s.go id j)
          | none => s

/-- The block settles. -/
def Blk.settle (s : Blk) : Blk :=
  let s := s.failLost
  s.settleN (4096 + 64 * (s.ans.length + s.fin.length + s.tgot.length + s.jobs.length))

end Sys2Proof.Machine
end

