-- ==== Sys2Proof/Machine/Access.lean ====
section
/-! DEFINITION. How an engine reaches memory: regions, checks and costs (R204, R278, R349), window descriptors (R280 to R282), pool-window
accesses (R283, R334) and data-mover commands (R291 to R294). -/

namespace Sys2Proof.Machine

/-! ### Faults -/

/-- A fault without an address. -/
def zfault (cause : Nat) (sec : Nat := 0) : ZFault := { cause := cause, sec := sec, addr := none }
/-- A fault of an access. -/
def afault (cause bank off : Nat) : ZFault := { cause := cause, sec := 0, addr := some (bank, off) }

/-! ### Window descriptors -/

/-- A window descriptor (R280). -/
structure WinDesc where
  base  : Nat
  first : Nat
  nbm1  : Nat
  cls   : Nat
  v     : Bool
  w     : Bool
  r     : Bool
  minp  : Nat
  deriving DecidableEq, Repr

/-- Descriptor `n` of a context (R273, R280). -/
def Ctx.desc (c : Ctx) (n : Nat) : WinDesc :=
  let d := ((c.sr (0x20 + 4 * n)).toNat * 2 ^ 48 + (c.sr (0x21 + 4 * n)).toNat * 2 ^ 32 + (c.sr (0x22 + 4 * n)).toNat * 2 ^ 16 +
    (c.sr (0x23 + 4 * n)).toNat)
  { base := d / 2 ^ 33, first := d / 2 ^ 26 % 128, nbm1 := d / 2 ^ 19 % 128, cls := d / 2 ^ 16 % 8, v := d / 2 ^ 15 % 2 == 1,
    w := d / 2 ^ 14 % 2 == 1, r := d / 2 ^ 13 % 2 == 1, minp := d / 2 ^ 11 % 4 }

/-- A descriptor in use is valid (R280). -/
def WinDesc.ok (d : WinDesc) : Bool :=
  decide (0x10 ≤ d.first) && decide (d.first + d.nbm1 ≤ 0x7F) && d.cls != 0 && d.minp != 3

/-- The pool address and class of an access to a pool-window bank, or its fault (R281). -/
def Ctx.pool (c : Ctx) (bank off : Nat) (wr : Bool) : Except ZFault (PAddr × Nat) :=
  match ((List.range 8).map c.desc).find? fun d => d.v && decide (d.first ≤ bank) && decide (bank ≤ d.first + d.nbm1) with
  | none => .error (afault 0x07 bank off)
  | some d =>
    if !d.ok then .error (afault 0x07 bank off)
    else if (if wr then !d.w else !d.r) || decide (c.priv < d.minp) then .error (afault 0x08 bank off)
    else .ok (BitVec.ofNat 48 (d.base * 2 ^ 17 + (bank - d.first) * 0x20000 + 2 * off), d.cls)

/-! ### Regions -/

/-- Where an access goes: bay memory, a control-window offset, a pool address with its class. -/
inductive Region where
  | bay
  | ctrl (off : Nat)
  | pool (a : PAddr) (cls : Nat)
  deriving DecidableEq, Repr

/-- Cost of one word of bay memory (R204). -/
def wordCost (bank off : Nat) : Nat := if bank = 7 ∧ 0x8000 ≤ off % 0x10000 then 2 else 1

/-- The checks of one access in the order of R349, and where it goes (R204, R278, R281); `n` is its width in words. -/
def Ctx.access (c : Ctx) (bank off n : Nat) (wr : Bool) : Except ZFault Region :=
  if bank = 0xFF then .error (afault 0x06 bank off)
  else if bank ≤ 7 then (if n = 4 ∧ off % 4 ≠ 0 then .error (afault 0x04 bank off) else .ok .bay)
  else if 0x10 ≤ bank ∧ bank ≤ 0x7F then
    if (n = 2 ∧ off % 2 ≠ 0) ∨ (n = 4 ∧ off % 4 ≠ 0) then .error (afault 0x04 bank off)
    else
      match c.pool bank off wr with
      | .ok (a, cls) => .ok (.pool a cls)
      | .error f => .error f
  else if 0xC0 ≤ bank ∧ bank ≤ 0xDF then
    if c.priv = 0 then .error (afault 0x02 bank off)
    else if n ≠ 2 ∨ off % 2 ≠ 0 then .error (afault 0x04 bank off)
    else .ok (.ctrl (0x20000 * (bank - 0xC0) + 2 * off))
  else .error (afault 0x05 bank off)

/-- Cycles that an access occupies stage E (R204). -/
def accessCost (b bank off n : Nat) : Region → Nat
  | .bay =>
    if n = 1 then wordCost bank off
    else if n = 2 then (if off % 2 = 0 then wordCost bank off else wordCost bank off + wordCost bank (off + 1))
    else 2 * wordCost bank off
  | .ctrl o =>
    let o := o % 0x200000
    if o / 0x4000 = 0x10 + b ∧ 0x40000 ≤ o then 6 else if o < 0x100000 then 12 else 20
  | .pool _ _ => 2

/-- Whether instructions are fetched from a bank and offset (R277). -/
def codeAt (bank off : Nat) : Bool := decide (bank ≤ 6) || (bank == 7 && decide (off % 0x10000 < 0x8000))

/-- The requester code of an engine's accesses (R423). -/
def Blk.engReq (s : Blk) (k : Nat) : Nat := s.slotOf (k / 8)

/-- The words of an access, in ascending address with the offset wrapping in its bank (R276). -/
def bayWords (bank off n : Nat) : List Nat := (List.range n).map fun i => bayWord bank (off + i)

/-- A value of `n` words from words in ascending address (R268). -/
def wordsVal (ws : List Half) : BitVec 64 := ws.foldr (fun w (a : BitVec 64) => (a <<< 16) ||| w.setWidth 64) 0

/-- Bay memory is read: `n` words as one value, none where a word is uncorrectable. -/
def State.load (s : State) (k bank off n : Nat) : State × Option (BitVec 64) :=
  match s.bmReads (k / 64) (s.blk.engReq k) (bayWords bank off n) with
  | (t, some ws) => (t, some (wordsVal ws))
  | (t, none) => (t, none)

/-- Bay memory is written by a context: `n` words of a value. -/
def State.store (s : State) (k bank off n : Nat) (v : BitVec 64) : State :=
  s.bmWrites (k / 64) (some k) ((List.range n).map fun i => (bayWord bank (off + i), v.extractLsb' (16 * i) 16))

/-! ### Pool-window accesses -/

/-- A line access for the data mover of a context, in a class; one of a segment that cannot be used ends at once without its line
(DESIGN CHOICE: R283 gives no outcome for it). -/
def Blk.moverJob (s : Blk) (o : Owner) (op : MemOp) (a : PAddr) (cls : Nat) (d : Line) (mask : BitVec 64) (pois : Bool) : Blk :=
  if s.segOk (segOf a) then
    let chk := mint (maskLine d mask) (lineAddr a) (segKEYGEN (s.segWord (segOf a) 0))
    s.request o op a (some cls) fun j => { j with data := d, mask := mask, chk := chk, pois := pois }
  else { s with got := s.got ++ [(o, if op = .rd then .bad 0x01 else .refused)] }

/-- A pool-window load or store is issued: the context waits (R200, R283). `len` is the length of its instruction, 0 for one of a microword,
which ends no instruction; `up` and `fin` as PoolOp has them. -/
def Blk.poolStart (s : Blk) (k : Nat) (load : Bool) (dst : List Nat) (v : BitVec 64) (n bank off : Nat) (a : PAddr) (cls len : Nat)
    (up : List (Nat × Half) := []) (fin : PoolFin := .go) : Blk :=
  let w := a.toNat / 2 % 32
  let id := s.opNo
  let s := { s with opNo := id + 1, pools := pset s.pools id ⟨k, load, dst, up, w, a, false, len, (bank, off), fin⟩ }
  let s :=
    if load then s.moverJob (.pool id) .rd a cls 0 0 false
    else
      let d : Line := (v.setWidth 512 &&& BitVec.ofNat 512 (2 ^ (16 * n) - 1)) <<< (16 * w)
      s.moverJob (.pool id) .ptl a cls d (BitVec.ofNat 64 ((2 ^ (2 * n) - 1) * 4 ^ w)) false
  (s.leave k .wait (some .pool)).settle

/-- The outcome kept for an owner. -/
def Blk.gotOf (s : Blk) (o : Owner) : Option JobOut := (s.got.find? fun x => x.1 == o).map (·.2)
/-- It is collected. -/
def Blk.dropGot (s : Blk) (o : Owner) : Blk := { s with got := s.got.filter fun x => x.1 != o }

/-- Whether the move of a context's engine has reached +2273, where its held items are released (R217). -/
def Blk.released (s : Blk) (k : Nat) : Bool := (pget s.moves (k / 64)).any fun m => m.sub && m.log == k / 8 % 8

/-- A context whose results are held: frozen, or in a halted engine (R196, R503). -/
def Blk.holds (s : Blk) (k : Nat) : Bool :=
  ((s.ctx k).st == .frozen && !s.released k) || (s.halted (k / 8) && !s.stepping k) || (s.ctx k).st == .halt

/-- The line of a read that delivers data: not poisoned, not failed (R283, R293). -/
def goodLine : JobOut → Option Line
  | .line d m => if mPois m then none else some d
  | _ => none

/-- Words of a line as a value, from word `w` up. -/
def lineVal (d : Line) (w : Nat) : BitVec 64 := (d >>> (16 * w)).setWidth 64

/-- A pool-window access completes (R206, R283, R334). -/
def State.poolDone (s : State) (id : Nat) : State :=
  match pget s.blk.pools id, s.blk.gotOf (.pool id) with
  | some op, some r =>
    let k := op.ctx
    if s.blk.holds k then s
    else
      let b := { s.blk.dropGot (.pool id) with pools := pdel s.blk.pools id }.stir (k / 64)
      let next (b : Blk) : Blk :=
        if op.retired then b.wakeEng (k / 8)
        else
          let c := b.ctx k
          let b := if op.len = 0 then b else b.retire k 0 false c.cb c.pc
          (b.onCtx k fun c => { c with pc := c.pc + BitVec.ofNat 16 op.len }).leave k (if op.fin = .finish then .idle else .ready) none
      let t : State :=
        if op.load then
          match goodLine r with
          | some d => { s with blk := next (b.onCtx k fun c => (op.up.foldl (fun c x => c.gset x.1 x.2) c).gsets op.dst (lineVal d op.word)) }
          | none =>
            if op.retired then { s with blk := (b.onCtx k fun c => { c with defer := true }).wakeEng (k / 8) }
            else ({ s with blk := b }).fault k (afault 0x09 op.at_.1 op.at_.2)
        else { s with blk := next b }
      let t := match op.fin with
        | .raise cause sec => if op.retired then t else t.fault k (zfault cause sec)
        | _ => t
      if op.retired then t else { t with blk := t.blk.stepEnd k }
  | _, _ => s

/-- The deferred fault of a retired load is raised (R334). -/
def State.deferred (s : State) (k : Nat) : State :=
  let c := s.blk.ctx k
  if c.defer ∧ c.st = .run ∧ s.blk.executes (k / 8) then s.fault k (zfault 0x09 0x01) fun c => { c with defer := false } else s

/-! ### Data-mover commands -/

/-- The fields of a command (R291). -/
structure DmCmd where
  op    : Nat
  tag   : Nat
  cls   : Nat
  n     : Nat
  pbank : Nat
  pline : Nat
  bline : Nat
  irq   : Bool
  opt   : Nat
  deriving DecidableEq, Repr

/-- The reading of a command (R291). -/
def dmCmd (c : BitVec 64) : DmCmd :=
  let x := c.toNat
  { op := x / 2 ^ 60, tag := x / 2 ^ 57 % 8, cls := x / 2 ^ 54 % 8, n := x / 2 ^ 48 % 64 + 1, pbank := x / 2 ^ 41 % 128,
    pline := x / 2 ^ 30 % 2048, bline := x / 2 ^ 16 % 2 ^ 14, irq := x / 2 ^ 15 % 2 == 1, opt := x % 2 ^ 15 }

/-- Whether a command writes the pool: LWRITE, and the tier operations that write media (R147). -/
def DmCmd.writesPool (d : DmCmd) : Bool := d.op == 1 || (d.op == 3 && (d.opt == 1 || d.opt == 2 || d.opt == 3))

/-- The bay lines that a command touches: a page and its header lines for TSTORE and TFETCH (log 90). -/
def DmCmd.span (d : DmCmd) : Nat := if d.op = 3 ∧ (d.opt = 3 ∨ d.opt = 4) then 68 else d.n

/-- A malformed command (R292). -/
def DmCmd.malformed (d : DmCmd) : Bool :=
  decide (3 < d.op) || (if d.op = 3 then decide (4 < d.opt) else d.opt != 0) || (d.op == 2 && decide (7 < d.pbank))

/-- The pool lines that a command names, with the class of the first, or the fault of the first that fails (R281, R292). -/
def Ctx.poolLines (c : Ctx) (d : DmCmd) : Nat → Except ZFault (List PAddr × Nat)
  | 0 => .ok ([], 0)
  | n + 1 =>
    let off := 32 * ((d.pline + (d.n - (n + 1))) % 2048)
    if d.pbank < 0x10 then .error (afault 0x07 d.pbank off)
    else
      match c.pool d.pbank off d.writesPool with
      | .error f => .error f
      | .ok (a, cls) =>
        match c.poolLines d n with
        | .error f => .error f
        | .ok (l, _) => .ok (a :: l, cls)

/-- The checks of DMV (R292): the lines and class of the command, or its fault. -/
def Ctx.dmCheck (c : Ctx) (d : DmCmd) : Except ZFault (List PAddr × Nat) :=
  if d.malformed then .error (zfault 0x01)
  else if d.cls ≠ 0 ∧ c.priv = 0 then .error (zfault 0x02)
  else
    match (if d.op = 2 then .ok ([], 0) else c.poolLines d d.n) with
    | .error f => .error f
    | .ok (l, cls) =>
      if d.bline + d.span > 0x4000 ∨ (d.op = 2 ∧ d.pbank % 8 * 2048 + d.pline + d.n > 0x4000) then .error (zfault 0x05)
      else .ok (l, if d.cls = 0 then cls else d.cls)

/-- What the issue of a command must wait for (R292). -/
def Blk.dmWait (s : Blk) (k : Nat) (d : DmCmd) : Option WaitFor :=
  if d.tag ≠ 7 ∧ (pget (s.ctx k).tags d.tag).isSome then some (.tag d.tag)
  else if 8 ≤ s.moverUse (k / 8) then some .queue
  else none

/-- The lines of a read are asked for. -/
def Blk.dmIn (s : Blk) (id cls : Nat) : Nat → List PAddr → Blk
  | _, [] => s
  | i, a :: l => (s.moverJob (.dmLine id i) .rd a cls 0 0 false).dmIn id cls (i + 1) l

/-- The lines of a write are read from bay memory and issued; one that is uncorrectable goes out as zeros with POIS (R417). -/
def State.dmOut (s : State) (b id cls bline : Nat) : Nat → List PAddr → State × Bool
  | _, [] => (s, false)
  | i, a :: l =>
    let (s, d) := s.bmLine b (bline + i) 9
    let s := { s with blk := s.blk.moverJob (.dmLine id i) .wr a cls (d.getD 0) (BitVec.allOnes 64) d.isNone }
    let (s, bad) := s.dmOut b id cls bline (i + 1) l
    (s, bad || d.isNone)

/-- The line accesses of a command start. -/
def State.dmStart (s : State) (id : Nat) (op : DmOp) : State :=
  let d := dmCmd op.cmd
  let s := { s with blk := { s.blk with dms := pset s.blk.dms id { op with started := true } } }
  match d.op with
  | 0 => { s with blk := s.blk.dmIn id op.cls 0 op.lines }
  | 1 =>
    let (s, bad) := s.dmOut (op.ctx / 64) id op.cls d.bline 0 op.lines
    { s with blk := { s.blk with dms := pset s.blk.dms id { op with started := true, bad := bad } } }
  | _ => s

/-- The commands of a context that are next in issue order start, up to a TIER command, which awaits its operands (R294). -/
def State.dmNext (s : State) : List (Nat × DmOp) → State
  | [] => s
  | (id, op) :: l => if (dmCmd op.cmd).op = 3 then s else (s.dmStart id op).dmNext l
@[inherit_doc State.dmNext] def State.dmTurn (s : State) (k : Nat) : State :=
  s.dmNext (s.blk.dms.filter fun x => x.2.ctx == k && !x.2.started)

/-- A command is issued: its condition becomes false, and its line accesses start in their turn (R293, R294). -/
def State.dmIssue (s : State) (k : Nat) (cmd : BitVec 64) (lines : List PAddr) (cls : Nat) : State :=
  let d := dmCmd cmd
  let id := s.blk.opNo
  let b := { s.blk with opNo := id + 1 }
  let b := if d.tag = 7 then b else b.onCtx k fun c => { c with tags := pset c.tags d.tag () }
  let op : DmOp := { ctx := k, cmd := cmd, lines := lines, cls := cls, bad := false, tier := none, started := false }
  let s := { s with blk := { b with dms := pset b.dms id op } }.dmTurn k
  { s with blk := s.blk.settle }

/-- A command's context learns its outcome: DMS, the condition, PEND bit 2 (R293). -/
def Blk.dmEnd (s : Blk) (id : Nat) (op : DmOp) (code : Nat) : Blk :=
  let d := dmCmd op.cmd
  let s := { s.stir (op.ctx / 64) with dms := pdel s.dms id, got := s.got.filter fun x => match x.1 with | .dmLine i _ => i != id | _ => true }
  let s := s.onCtx op.ctx fun c =>
    let c := if d.tag = 7 then c
      else { c with tags := pdel c.tags d.tag }.setSr 0x19
        ((c.sr 0x19 &&& ~~~(3#16 <<< (2 * d.tag))) ||| (BitVec.ofNat 16 code <<< (2 * d.tag)))
    if d.irq then { c with pend := c.pend ||| 4 } else c
  s.wakeEng (op.ctx / 8)

/-- Lines copied within bay memory; the result says whether one was uncorrectable (R417). -/
def State.dmCopy (s : State) (b src dst : Nat) : Nat → State × Bool
  | 0 => (s, false)
  | n + 1 =>
    let (s, bad) := s.dmCopy b src dst n
    let (s, d) := s.bmLine b (src + n) 9
    (s.bmPutLine b (dst + n) (d.getD 0), bad || d.isNone)

/-- The lines of a read are written to bay memory, a line that failed as zeros (R293). -/
def State.dmPut (s : State) (b bline : Nat) : Nat → List JobOut → State
  | _, [] => s
  | i, r :: l => (s.bmPutLine b (bline + i) ((goodLine r).getD 0)).dmPut b bline (i + 1) l

/-- The outcomes of the lines of a command, none while one is still awaited. -/
def Blk.dmOuts (s : Blk) (id : Nat) : Nat → Option (List JobOut)
  | 0 => some []
  | n + 1 =>
    match s.dmOuts id n, s.gotOf (.dmLine id n) with
    | some l, some r => some (l ++ [r])
    | _, _ => none

/-- Whether the data mover of a bay runs: its bay is in no halted domain (R503) and its memory serves (R421). -/
def Blk.moverRuns (s : Blk) (b : Nat) : Bool :=
  !s.rbit F.TD_HSTATB_off b && !s.rbit F.EV_BAYSTOP_off b && s.bmReady b

/-- A command whose work is done completes (R293); a tier operation's result is given by its run. -/
def State.dmComplete (s : State) (id : Nat) : State :=
  match pget s.blk.dms id with
  | none => s
  | some op =>
    let b := op.ctx / 64
    let d := dmCmd op.cmd
    if s.blk.holds op.ctx || !s.blk.moverRuns b || !op.started then s
    else
      match d.op with
      | 0 =>
        (match s.blk.dmOuts id d.n with
         | none => s
         | some l =>
           let s := s.dmPut b d.bline 0 l
           { s with blk := s.blk.dmEnd id op (if l.any fun r => (goodLine r).isNone then 1 else 0) })
      | 1 =>
        (match s.blk.dmOuts id d.n with
         | none => s
         | some l =>
           { s with blk := s.blk.dmEnd id op (if op.bad then 1 else if l.any fun r => r != .wrote then 2 else 0) })
      | 2 =>
        let (s, bad) := s.dmCopy b (d.pbank % 8 * 2048 + d.pline) d.bline d.n
        { s with blk := s.blk.dmEnd id op (if bad then 1 else 0) }
      | _ =>
        (match op.tier with
         | some t =>
           if t.phase = .finished then
             let b := { s.blk with tierRes := pset s.blk.tierRes op.ctx (t.result, t.value) }
             { s with blk := b.dmEnd id op (if t.result ≠ 0 then 3 else if t.refused then 2 else 0) }
           else s
         | none => s)

end Sys2Proof.Machine
end

