-- ==== Sys2Proof/Machine/Float.lean ====
section
/-! DEFINITION. The floating-point operations of units 1 to 3 (R394 to R399): each computes the exact result in integers and
rounds it once.  Flags are IV, DZ, OF, UF, NX from bit 4 down to bit 0 (R275). -/

namespace Sys2Proof.Machine

/-- A binary interchange format: exponent and fraction bits. -/
structure FFmt where
  eb : Nat
  fb : Nat
  deriving DecidableEq, Repr

/-- binary32. -/
def f32 : FFmt := { eb := 8, fb := 23 }
/-- binary64. -/
def f64 : FFmt := { eb := 11, fb := 52 }

/-- The greatest biased exponent. -/
def FFmt.emax (f : FFmt) : Nat := 2 ^ f.eb - 1
/-- The bias. -/
def FFmt.bias (f : FFmt) : Nat := 2 ^ (f.eb - 1) - 1
/-- The exponent of the least subnormal's only bit. -/
def FFmt.qmin (f : FFmt) : Int := 1 - (f.bias : Int) - f.fb

/-- A datum in its parts. -/
structure FVal where
  sgn  : Bool
  exp  : Nat
  frac : Nat
  deriving DecidableEq, Repr

/-- The parts of a bit pattern. -/
def FFmt.parts (f : FFmt) (x : Nat) : FVal :=
  { sgn := x / 2 ^ (f.eb + f.fb) % 2 == 1, exp := x / 2 ^ f.fb % 2 ^ f.eb, frac := x % 2 ^ f.fb }

/-- The bit pattern of a sign, a biased exponent and a fraction. -/
def FFmt.pack (f : FFmt) (sgn : Bool) (exp frac : Nat) : Nat := sgn.toNat * 2 ^ (f.eb + f.fb) + exp * 2 ^ f.fb + frac

/-- NaN, signalling NaN, infinity, zero. -/
def FFmt.isNan (f : FFmt) (v : FVal) : Bool := v.exp == f.emax && v.frac != 0
@[inherit_doc FFmt.isNan] def FFmt.isSnan (f : FFmt) (v : FVal) : Bool := f.isNan v && v.frac / 2 ^ (f.fb - 1) == 0
@[inherit_doc FFmt.isNan] def FFmt.isInf (f : FFmt) (v : FVal) : Bool := v.exp == f.emax && v.frac == 0
@[inherit_doc FFmt.isNan] def FVal.isZero (v : FVal) : Bool := v.exp == 0 && v.frac == 0

/-- The integer significand of a finite datum, and its exponent. -/
def FFmt.sig (f : FFmt) (v : FVal) : Nat := if v.exp = 0 then v.frac else 2 ^ f.fb + v.frac
@[inherit_doc FFmt.sig] def FFmt.ex (f : FFmt) (v : FVal) : Int := f.qmin + ((max 1 v.exp : Nat) : Int) - 1

/-- Infinity, zero, the greatest finite datum, the default NaN (R395). -/
def FFmt.inf (f : FFmt) (s : Bool) : Nat := f.pack s f.emax 0
@[inherit_doc FFmt.inf] def FFmt.zero (f : FFmt) (s : Bool) : Nat := f.pack s 0 0
@[inherit_doc FFmt.inf] def FFmt.big (f : FFmt) (s : Bool) : Nat := f.pack s (f.emax - 1) (2 ^ f.fb - 1)
@[inherit_doc FFmt.inf] def FFmt.dnan (f : FFmt) : Nat := f.pack false f.emax (2 ^ (f.fb - 1))
/-- A NaN quieted, with its sign and payload (R395). -/
def FFmt.quiet (f : FFmt) (v : FVal) : Nat :=
  f.pack v.sgn f.emax (if v.frac / 2 ^ (f.fb - 1) = 0 then v.frac + 2 ^ (f.fb - 1) else v.frac)

/-- Bits of a natural number. -/
def bitLen (n : Nat) : Nat := if n = 0 then 0 else n.log2 + 1

/-- `m` without its lowest `d` bits, rounded in a mode (R389) for a sign, `sticky` when more than `m` was cut off before; and
whether it is inexact. -/
def roundShift (mode : Nat) (sgn : Bool) (m d : Nat) (sticky : Bool) : Nat × Bool :=
  let q := m / 2 ^ d
  let r := m % 2 ^ d
  let inexact := r != 0 || sticky
  let up :=
    match mode with
    | 0 =>
      if d = 0 then false
      else
        let h := 2 ^ (d - 1)
        if r = h ∧ !sticky then q % 2 == 1 else decide (h ≤ r)
    | 1 => false
    | 2 => inexact && !sgn
    | _ => inexact && sgn
  (q + up.toNat, inexact)

/-- The rounding of (m + sticky) · 2 ^ e, m not zero, with its flags (R394, R396). -/
def FFmt.round (f : FFmt) (mode : Nat) (sgn : Bool) (m : Nat) (e : Int) (sticky : Bool) : Nat × Nat :=
  let p := f.fb + 1
  let free := e + bitLen m - p
  let q := max free f.qmin
  let cut (q : Int) : Nat × Bool :=
    if q ≤ e then (m * 2 ^ (e - q).toNat, sticky) else roundShift mode sgn m (q - e).toNat sticky
  let (r, inexact) := cut q
  let (r, q) := if r = 2 ^ p then (r / 2, q + 1) else (r, q)
  let u := (cut free).1
  let tiny := decide (free + bitLen u < f.qmin + p)
  let exp := (q - f.qmin + 1).toNat
  if r < 2 ^ f.fb then (f.pack sgn 0 r, (if tiny && inexact then 2 else 0) + inexact.toNat)
  else if f.emax ≤ exp then
    let toInf := mode == 0 || (mode == 2 && !sgn) || (mode == 3 && sgn)
    ((if toInf then f.inf sgn else f.big sgn), 5)
  else (f.pack sgn exp (r - 2 ^ f.fb), (if tiny && inexact then 2 else 0) + inexact.toNat)

/-- A NaN among the operands: RB first, quieted, IV for a signalling one (R395). -/
def FFmt.nanOf (f : FFmt) (a b : FVal) : Option (Nat × Nat) :=
  let iv := if f.isSnan a || f.isSnan b then 16 else 0
  if f.isNan a then some (f.quiet a, iv) else if f.isNan b then some (f.quiet b, iv) else none

/-- The sum of two data that are no NaN. -/
def FFmt.sum (f : FFmt) (mode : Nat) (a b : FVal) : Nat × Nat :=
  if f.isInf a then (if f.isInf b && a.sgn != b.sgn then (f.dnan, 16) else (f.inf a.sgn, 0))
  else if f.isInf b then (f.inf b.sgn, 0)
  else
    let e := min (f.ex a) (f.ex b)
    let ma : Int := (f.sig a * 2 ^ (f.ex a - e).toNat : Nat)
    let mb : Int := (f.sig b * 2 ^ (f.ex b - e).toNat : Nat)
    let t := (if a.sgn then -ma else ma) + (if b.sgn then -mb else mb)
    if t = 0 then
      (f.zero (if a.isZero && b.isZero && a.sgn == b.sgn then a.sgn else mode == 3), 0)
    else f.round mode (decide (t < 0)) t.natAbs e false

/-- FADD and FSUB (R396): FSUB(a, b) = FADD(a, −b) for b no NaN. -/
def FFmt.add (f : FFmt) (mode x y : Nat) : Nat × Nat :=
  let a := f.parts x
  let b := f.parts y
  match f.nanOf a b with
  | some r => r
  | none => f.sum mode a b
@[inherit_doc FFmt.add] def FFmt.sub (f : FFmt) (mode x y : Nat) : Nat × Nat :=
  let a := f.parts x
  let b := f.parts y
  match f.nanOf a b with
  | some r => r
  | none => f.sum mode a { b with sgn := !b.sgn }

/-- FMUL (R396). -/
def FFmt.mul (f : FFmt) (mode x y : Nat) : Nat × Nat :=
  let a := f.parts x
  let b := f.parts y
  let s := a.sgn != b.sgn
  match f.nanOf a b with
  | some r => r
  | none =>
    if f.isInf a || f.isInf b then (if a.isZero || b.isZero then (f.dnan, 16) else (f.inf s, 0))
    else if a.isZero || b.isZero then (f.zero s, 0)
    else f.round mode s (f.sig a * f.sig b) (f.ex a + f.ex b) false

/-- FDIV (R396). -/
def FFmt.div (f : FFmt) (mode x y : Nat) : Nat × Nat :=
  let a := f.parts x
  let b := f.parts y
  let s := a.sgn != b.sgn
  match f.nanOf a b with
  | some r => r
  | none =>
    if f.isInf a then (if f.isInf b then (f.dnan, 16) else (f.inf s, 0))
    else if f.isInf b then (f.zero s, 0)
    else if b.isZero then (if a.isZero then (f.dnan, 16) else (f.inf s, 8))
    else if a.isZero then (f.zero s, 0)
    else
      let k := 3 * f.fb + 8
      let n := f.sig a * 2 ^ k
      f.round mode s (n / f.sig b) (f.ex a - f.ex b - k) (n % f.sig b != 0)

/-- Order of two data that are no NaN: as signed magnitudes, with −0 below +0 when `strict`. -/
def FFmt.less (f : FFmt) (strict : Bool) (a b : FVal) : Bool :=
  let ma : Nat := a.exp * 2 ^ f.fb + a.frac
  let mb : Nat := b.exp * 2 ^ f.fb + b.frac
  if a.isZero && b.isZero then strict && a.sgn && !b.sgn
  else if a.sgn != b.sgn then a.sgn
  else if a.sgn then decide (mb < ma) else decide (ma < mb)

/-- FCMP: 0 equal, 1 less, 2 greater, 3 unordered (R397). -/
def FFmt.cmp (f : FFmt) (x y : Nat) : Nat × Nat :=
  let a := f.parts x
  let b := f.parts y
  if f.isNan a || f.isNan b then (3, if f.isSnan a || f.isSnan b then 16 else 0)
  else if f.less false a b then (1, 0) else if f.less false b a then (2, 0) else (0, 0)

/-- FMIN and FMAX (R397). -/
def FFmt.minMax (f : FFmt) (max : Bool) (x y : Nat) : Nat × Nat :=
  let a := f.parts x
  let b := f.parts y
  let iv := if f.isSnan a || f.isSnan b then 16 else 0
  if f.isNan a && f.isNan b then (f.quiet a, iv)
  else if f.isNan a then (y, iv)
  else if f.isNan b then (x, iv)
  else if f.less true b a then (if max then (x, 0) else (y, 0))
  else (if max then (y, 0) else (x, 0))

/-- A datum of one format in another, rounded (R398). -/
def convert (src dst : FFmt) (mode x : Nat) : Nat × Nat :=
  let a := src.parts x
  if src.isNan a then (dst.pack a.sgn dst.emax (a.frac % 2 ^ 22 + 2 ^ (dst.fb - 1)), if src.isSnan a then 16 else 0)
  else if src.isInf a then (dst.inf a.sgn, 0)
  else if a.isZero then (dst.zero a.sgn, 0)
  else dst.round mode a.sgn (src.sig a) (src.ex a) false

/-- FCVT.D.W (R398). -/
def fromInt (x : Nat) : Nat × Nat :=
  if x % 2 ^ 32 = 0 then (0, 0)
  else if x / 2 ^ 31 % 2 = 1 then f64.round 0 true (2 ^ 32 - x % 2 ^ 32) 0 false
  else f64.round 0 false (x % 2 ^ 32) 0 false

/-- FCVT.W.D (R398). -/
def toInt (mode x : Nat) : Nat × Nat :=
  let a := f64.parts x
  if f64.isNan a then (0x80000000, 16)
  else if f64.isInf a then (if a.sgn then 0x80000000 else 0x7FFFFFFF, 16)
  else
    let e := f64.ex a
    let (m, inexact) :=
      if 0 ≤ e then (f64.sig a * 2 ^ e.toNat, false) else roundShift mode a.sgn (f64.sig a) (-e).toNat false
    if a.sgn then
      if 2 ^ 31 < m then (0x80000000, 16) else ((2 ^ 32 - m) % 2 ^ 32, inexact.toNat)
    else if 2 ^ 31 ≤ m then (0x7FFFFFFF, 16) else (m, inexact.toNat)

end Sys2Proof.Machine
end

