-- ==== Sys2Proof/Machine/Flags.lean ====
section
/-! DEFINITION. The flags of SW and how instructions compute them (R271, R272, R296). -/

namespace Sys2Proof.Machine

/-- N, Z, C and V. -/
structure Nzcv where
  n : Bool
  z : Bool
  c : Bool
  v : Bool
  deriving DecidableEq, Repr

/-- The flags of a context. -/
def Ctx.flags (x : Ctx) : Nzcv := { n := x.sw.getLsbD 3, z := x.sw.getLsbD 2, c := x.sw.getLsbD 1, v := x.sw.getLsbD 0 }

/-- The flags as SW[3:0]. -/
def Nzcv.bits (f : Nzcv) : Half := BitVec.ofNat 16 (8 * f.n.toNat + 4 * f.z.toNat + 2 * f.c.toNat + f.v.toNat)

/-- The flags of a context take values. -/
def Ctx.setFlags (x : Ctx) (f : Nzcv) : Ctx := { x with sw := (x.sw &&& 0xFFF0) ||| f.bits }

/-- Bit `w - 1` of a value. -/
def signBit (w x : Nat) : Bool := x / 2 ^ (w - 1) % 2 == 1

/-- A value of `w` bits as a signed number. -/
def signed (w x : Nat) : Int := if signBit w x then (x : Int) - 2 ^ w else x

/-- Sign extension from `w` to `v` bits. -/
def sextTo (w v x : Nat) : Nat := if signBit w x then x + (2 ^ v - 2 ^ w) else x

/-- a + b + cin at width `w`, with the flags of code A (R271, R296). -/
def addFlags (w a b : Nat) (cin : Bool) : Nat × Nzcv :=
  let t := a + b + cin.toNat
  let r := t % 2 ^ w
  (r, { n := signBit w r, z := r == 0, c := decide (2 ^ w ≤ t),
        v := signBit w a == signBit w b && signBit w r != signBit w a })

/-- a − b − (1 − cin): C is 1 when no borrow occurs (R271). -/
def subFlags (w a b : Nat) (cin : Bool) : Nat × Nzcv := addFlags w a (2 ^ w - 1 - b) cin

/-- The flags of code L for a result (R296). -/
def logicFlags (w r : Nat) (old : Nzcv) : Nzcv := { n := signBit w r, z := r == 0, c := old.c, v := false }

/-- The flags of code S for a result and the last bit shifted out (R296). -/
def shiftFlags (w r : Nat) (out : Bool) : Nzcv := { n := signBit w r, z := r == 0, c := out, v := false }

/-- A condition code of R272, none for code 15. -/
def condHolds (code : Nat) (f : Nzcv) : Option Bool :=
  match code with
  | 0 => some f.z
  | 1 => some !f.z
  | 2 => some f.c
  | 3 => some !f.c
  | 4 => some f.n
  | 5 => some !f.n
  | 6 => some f.v
  | 7 => some !f.v
  | 8 => some (f.c && !f.z)
  | 9 => some (!f.c || f.z)
  | 10 => some (f.n == f.v)
  | 11 => some (f.n != f.v)
  | 12 => some (!f.z && f.n == f.v)
  | 13 => some (f.z || f.n != f.v)
  | 14 => some true
  | _ => none

end Sys2Proof.Machine
end

