-- ==== Sys2Proof/Machine/Operands.lean ====
section
/-! DEFINITION. The operand forms of Zaell instructions: registers, pairs and quads (R267, R303), the formats of R284, and the frame in which
every instruction executes: issue, fetch, encoding, pending registers, retry, its own effect, retirement (R200, R212 to R214, R285,
R298, R324, R349). -/

namespace Sys2Proof.Machine

/-! ### Registers -/

/-- The register numbers of an operand of `n` words from register `r` (R267). -/
def regsOf (r n : Nat) : List Nat := (List.range n).map fun i => (r + i) % 32

/-- The value of an operand of `n` words: the first register is the most significant (R267). -/
def Ctx.val (c : Ctx) (r n : Nat) : Nat := (regsOf r n).foldl (fun a i => a * 2 ^ 16 + (c.gr i).toNat) 0

/-- An operand of `n` words takes a value. -/
def Ctx.put (c : Ctx) (r n : Nat) (v : Nat) : Ctx :=
  (List.range n).foldl (fun c i => c.gw ((r + i) % 32) (BitVec.ofNat 16 (v / 2 ^ (16 * (n - 1 - i))))) c

/-- The register places of an operand in the bank in use. -/
def Ctx.places (c : Ctx) (r n : Nat) : List Nat := (regsOf r n).map c.gi

/-! ### Formats -/

/-- Words of an instruction in a format (R284). -/
def fmtLen : ZFmt → Nat
  | .srr _ _ | .sri _ _ | .sm _ _ _ | .sb _ _ | .sn _ _ _ => 1
  | _ => 2

/-- Three operands of one width in words. -/
structure Tri where
  dst : Nat
  a   : Nat
  b   : Nat
  n   : Nat
  deriving DecidableEq, Repr

/-- How major opcodes 0x0 and 0x8 use their fields for one operation: function code; one source operand only; no destination; quads allowed;
a short form exists (R299, R302). -/
structure TriSpec where
  fn    : BitVec 6
  unary : Bool
  noDst : Bool
  quad  : Bool
  short : Bool
  deriving DecidableEq, Repr

/-- The operands of an S-RR or L-RRR instruction, none where the encoding is illegal (R295, R302, R303). -/
def triOf (f : ZFmt) (t : TriSpec) : Option Tri :=
  match f with
  | .srr ra rb => if t.short then some ⟨ra.toNat, (if t.unary then rb else ra).toNat, rb.toNat, 1⟩ else none
  | .lrrr minor ra z rb rc fn =>
    if z = false ∧ fn = t.fn ∧ minor.toNat ≤ 2 ∧ (t.unary = true → rc = 0) ∧ (t.noDst = true → ra = 0) ∧
        (minor = 2 → t.quad = true ∧ ra.toNat % 4 = 0 ∧ rb.toNat % 4 = 0 ∧ rc.toNat % 4 = 0) then
      some ⟨ra.toNat, rb.toNat, rc.toNat, 2 ^ minor.toNat⟩
    else none
  | _ => none

/-- Register and 16-bit immediate of an L-RI instruction with a minor (R284, R304, R312). -/
def triRi (f : ZFmt) (m : BitVec 6) : Option (Nat × BitVec 16) :=
  match f with
  | .lri minor ra z imm => if z = false ∧ minor = m then some (ra.toNat, imm) else none
  | _ => none

/-- Register, base and signed displacement of an L-M instruction with a minor (R284, R305). -/
def memLm (f : ZFmt) (m : BitVec 6) : Option (Nat × Nat × BitVec 16) :=
  match f with
  | .lm minor ra z rb disp => if z = false ∧ minor = m then some (ra.toNat, rb.toNat, disp.signExtend 16) else none
  | _ => none

/-- The fields of an L-RRR instruction with a minor: RA, RB, RC, function (R308, R310). -/
def rrrOf (f : ZFmt) (m : BitVec 6) : Option (Nat × Nat × Nat × Nat) :=
  match f with
  | .lrrr minor ra z rb rc fn => if z = false ∧ minor = m then some (ra.toNat, rb.toNat, rc.toNat, fn.toNat) else none
  | _ => none

/-- w0[7:4] and w0[3:0] of an S-N instruction with w0[11:8] = `g` (R301). -/
def snOf (f : ZFmt) (g : BitVec 4) : Option (Nat × Nat) :=
  match f with
  | .sn h n ra => if h = g then some (n.toNat, ra.toNat) else none
  | _ => none

/-! ### Execution -/

/-- How an instruction ends. -/
inductive ZEnd where
  /-- it retires and the next one follows -/
  | next (cyc : Nat)
  /-- it retires and control goes to {CB, offset} -/
  | jump (cb : Byte) (pc : Half) (cyc : Nat)
  /-- it retires having set PC itself -/
  | own (cyc : Nat)
  /-- it retires and returns to an instruction, which may be one that an entry abandoned (R211, R341) -/
  | back (cyc : Nat)
  /-- it has retired as its effect says -/
  | over
  /-- it raises a fault and changes nothing (R298) -/
  | fault (f : ZFault)
  /-- it raises a fault after elements that are complete, which have taken their cycles (R290, R318) -/
  | faultAt (f : ZFault) (cyc : Nat)
  /-- its context waits and it executes again later (R200) -/
  | wait (w : WaitFor)
  /-- its access is issued and its context waits (R283) -/
  | issued (cyc : Nat)
  /-- it is stopped between elements, its PC staying (R210, R211) -/
  | paused (cyc : Nat)
  /-- it meets an uncorrectable word, after `cyc` cycles of complete elements (R417) -/
  | ue (cyc : Nat := 0)
  /-- its context goes to READY or to IDLE -/
  | yield
  | finish
  deriving DecidableEq, Repr

/-- Registers that an instruction reads and writes: first register and words. -/
structure ZRegs where
  reads  : List (Nat × Nat)
  writes : List (Nat × Nat)
  deriving DecidableEq, Repr

/-- The places of operands. -/
def Ctx.allPlaces (c : Ctx) (l : List (Nat × Nat)) : List Nat := l.flatMap fun x => c.places x.1 x.2

/-- Whether the context issues: it is in RUN on an engine that executes. -/
def State.issues (s : State) (k : Nat) : Bool := s.blk.live && s.blk.executes (k / 8) && (s.blk.ctx k).st == .run

/-- A context whose access bay memory does not grant waits for the grant (R200, case 5; R421). -/
def State.ungranted (s : State) (k : Nat) : State := { s with blk := s.blk.leave k .wait (some (.grant s.blk.now)) }

/-- A YIELD: the context goes to READY; a supervisor with no other context READY sets its idle flag (R436). -/
def Blk.yieldCtx (s : Blk) (k : Nat) : Blk :=
  let b := k / 64
  let alone := (engCtxs (k / 8)).all fun j => j == k || (s.ctx j).st != .ready
  let s := if k = s.supervisor b ∧ alone then { s.stir b with idle := pset s.idle b () } else s
  s.leave k .ready none

/-- A context of class B or Q leaves RUN where the gate of its bay has closed (R477). -/
def Blk.powerLeave (s : Blk) (k : Nat) : Blk :=
  if (s.ctx k).st = .run ∧ s.unpowered k then s.leave k .ready none else s

/-- Whether a register that is read holds a stored double error: a single bit is corrected and written back, a double stops the context (R212, R215). -/
def Ctx.regErr (c : Ctx) (l : List Nat) : Bool := l.any fun i => pget c.gErr i == some .double
/-- The single-bit errors among the registers read are gone. -/
def Ctx.regFix (c : Ctx) (l : List Nat) : Ctx := { c with gErr := l.foldl (fun m i => pdel m i) c.gErr }
/-- How many registers read hold one. -/
def Ctx.regOnes (c : Ctx) (l : List Nat) : Nat := (c.gErr.filter fun x => l.contains x.1 && x.2 != .double).length
/-- They are corrected, written back and counted (R212). -/
def Blk.regFix (s : Blk) (k : Nat) (l : List Nat) : Blk :=
  let n := (s.ctx k).regOnes l
  { s with regCe := if n = 0 then s.regCe else tset (fun _ => 0) s.regCe (k / 64) (tget (fun _ => 0) s.regCe (k / 64) + n) }.onCtx k fun x => x.regFix l

/-- The instruction's own effect, its end applied to the context. -/
def State.zend (s0 s : State) (k len : Nat) (keepsIdle : Bool) (e : ZEnd) : State :=
  let c0 := s0.blk.ctx k
  let step (b : Blk) : Blk := b.onCtx k fun c => { c with pc := c0.pc + BitVec.ofNat 16 len }
  match e with
  | .next cyc => { s with blk := (step (s.blk.retire k cyc keepsIdle c0.cb c0.pc)).powerLeave k }
  | .jump cb pc cyc =>
    { s with blk := ((s.blk.retire k cyc false c0.cb c0.pc).onCtx k fun c => { c with cb := cb, pc := pc }).powerLeave k }
  | .own cyc => { s with blk := (s.blk.retire k cyc false c0.cb c0.pc).powerLeave k }
  | .back cyc => { s with blk := ((s.blk.retire k cyc false c0.cb c0.pc).onCtx k Ctx.recall).powerLeave k }
  | .over => s
  | .fault f => s0.fault k f
  | .faultAt f cyc => { s with blk := s.blk.work (k / 8) cyc }.fault k f
  | .wait w => { s0 with blk := s0.blk.leave k .wait (some w) }
  | .issued cyc => { s with blk := s.blk.work (k / 8) cyc }
  | .paused cyc => { s with blk := s.blk.work (k / 8) cyc }
  | .ue cyc => { s with blk := (s.blk.work (k / 8) cyc).regUe k }
  | .yield => { s with blk := (step (s.blk.retire k 1 true c0.cb c0.pc)).yieldCtx k }
  | .finish => { s with blk := (step (s.blk.retire k 1 false c0.cb c0.pc)).leave k .idle none }

/-- The engine's error injection applies to this instruction (R224). -/
def Blk.injects (s : Blk) (k : Nat) : Bool :=
  let b := k / 64
  let x := s.slotOf (k / 8)
  s.bit (F.EA_ENG_CTRL_INJ b x) && s.fld (F.EA_ENG_CTRL_INJCTX b x) == k % 8

/-- A STEP ends with the instruction that it runs: not while the context waits, nor with a detected error, after which the
instruction is tried again (R508). -/
def State.stepDone (t s : State) (k : Nat) : State :=
  if s.issues k && (t.blk.ctx k).st != .wait && decide ((t.blk.ctx k).attempt ≤ (s.blk.ctx k).attempt) then
    { t with blk := t.blk.stepEnd k }
  else t

/-- One instruction of a context: `legal` its encoding, `alu` whether it has an ALU result, `body` its own effect on a state whose context can
execute it; where an array that it needs is granted to another requester in this cycle, it waits instead (R200, R409, log 166). -/
def State.zaellRun (s0 : State) (c : CtxRef) (len : Nat) (legal alu keepsIdle : Bool) (regs : ZRegs) (body : State → State × ZEnd) : State :=
  let s := s0
  let k := ctxKey c
  let x := s.blk.ctx k
  let b := k / 64
  if !s.issues k then s
  else if !s.blk.bmReady b then s.ungranted k
  else if x.defer then s.deferred k
  else if x.lockOut then s.fault k (zfault 0x0C) fun x => { x with lockOut := false }
  else
    let at_ := (List.range len).map fun i => x.pc.toNat + i
    match at_.find? fun o => x.farBad || !codeAt x.cb.toNat o with
    | some o => s.fault k (afault 0x03 x.cb.toNat (o % 0x10000)) fun x => { x with farBad := false }
    | none =>
      match s.bmReads b (s.blk.engReq k) (at_.map fun o => bayWord x.cb.toNat o) with
      | (s, none) => { s with blk := s.blk.regUe k }
      | (s, some _) =>
        if !legal then s.fault k (zfault 0x01)
        else
          let rd := x.allPlaces regs.reads
          let all := rd ++ x.allPlaces regs.writes
          match all.find? fun i => s.blk.pendingReg k i with
          | some i => { s with blk := s.blk.leave k .wait (some (.reg i)) }
          | none =>
            if x.regErr rd then { s with blk := s.blk.regUe k }
            else if rd.any fun i => (pget x.parErr i).isSome then
              { s with blk := (s.blk.onCtx k fun x => { x with parErr := rd.foldl (fun m i => pdel m i) x.parErr }).detected k }
            else if alu && s.blk.injects k then
              { s with blk := (s.blk.clr1 (F.EA_ENG_CTRL_INJ b (s.blk.slotOf (k / 8)))).detected k }
            else
              let s := { s with blk := s.blk.regFix k rd }
              let (t, e) := body s
              if s0.blk.clash t.blk b (s.blk.engReq k) then s0.ungranted k else s.zend t k len keepsIdle e

/-- The same, with the end of a STEP (R508); a STEP with UWORD runs microwords only.  An instruction that microwords have begun is executed from
its start (R211). -/
def State.zaell (s : State) (c : CtxRef) (len : Nat) (legal alu keepsIdle : Bool) (regs : ZRegs) (body : State → State × ZEnd) : State :=
  if s.blk.td.step = some (ctxKey c, true) then s
  else
    let s := if ((s.blk.ctx (ctxKey c)).u.start).isSome then { s with blk := s.blk.onCtx (ctxKey c) Ctx.home } else s
    (s.zaellRun c len legal alu keepsIdle regs body).stepDone s (ctxKey c)

/-- The context of a reference. -/
def State.ctxOf (s : State) (c : CtxRef) : Ctx := s.blk.ctx (ctxKey c)
/-- A context takes a content. -/
def State.setCtx (s : State) (c : CtxRef) (x : Ctx) : State := { s with blk := s.blk.setCtx (ctxKey c) x }

/-- An instruction that only changes its context's registers and flags, in a number of cycles. -/
def State.pure (s : State) (c : CtxRef) (f : ZFmt) (legal alu : Bool) (regs : ZRegs) (cyc : Nat) (g : Ctx → Ctx) :
    Host.Outcome State Fault Refusal :=
  .next (s.zaell c (fmtLen f) legal alu false regs fun s => (s.setCtx c (g (s.ctxOf c)), .next cyc))

/-- An illegal encoding: the instruction raises ILLEGAL where it would execute (R285). -/
def State.illegal (s : State) (c : CtxRef) (f : ZFmt) : Host.Outcome State Fault Refusal :=
  .next (s.zaell c (fmtLen f) false false false ⟨[], []⟩ fun s => (s, .next 0))

end Sys2Proof.Machine
end

