-- ==== Sys2Proof/Machine/Coproc.lean ====
section
/-! DEFINITION. The coprocessor port and its units (R387 to R401) and the instructions that dispatch to them (R287, R311). -/

namespace Sys2Proof.Machine

/-! ### Integer multiply and divide -/

/-- Significant bits of a multiplier operand of `w` bits (R392). -/
def mulBits (w x : Nat) (sgn : Bool) : Nat :=
  if sgn && signBit w x then bitLen (2 ^ w - 1 - x) + 1
  else max 1 (bitLen x + (if sgn && x != 0 then 1 else 0))

/-- A product in the full width (R392). -/
def mulOp (w a b : Nat) (sgn : Bool) : Nat :=
  if sgn then ((signed w a * signed w b) % (2 ^ (2 * w) : Nat)).toNat else a * b

/-- Outcome of a division (R393): remainder over quotient, division by zero, overflow. -/
structure DivOut where
  val : Nat
  dz  : Bool
  ov  : Bool
  deriving DecidableEq, Repr

/-- A division of 2w bits by w bits (R393). -/
def divOp (w a b : Nat) (sgn : Bool) : DivOut :=
  if b = 0 then ⟨a, true, false⟩
  else if sgn then
    let x := signed (2 * w) a
    let y := signed w b
    let q := x.tdiv y
    let r := x.tmod y
    if q < -(2 ^ (w - 1) : Nat) ∨ (2 ^ (w - 1) : Nat) ≤ q then ⟨a, false, true⟩
    else ⟨(r % (2 ^ w : Nat)).toNat * 2 ^ w + (q % (2 ^ w : Nat)).toNat, false, false⟩
  else if 2 ^ w ≤ a / b then ⟨a, false, true⟩
  else ⟨a % b * 2 ^ w + a / b, false, false⟩

/-! ### Operations -/

/-- A result: value, flags, whether they go to CPF, integer V. -/
structure CopRes where
  val  : Nat
  fl   : Nat
  cpf  : Bool
  intV : Bool
  deriving DecidableEq, Repr

/-- The result of an operation of units 0 to 3 from its operands (R390). -/
def copResult (unit op a b : Nat) : CopRes :=
  let md := op / 64
  let fn := op % 32
  let fp (r : Nat × Nat) : CopRes := ⟨r.1, r.2, true, false⟩
  match unit with
  | 0 =>
    let w := if fn = 2 ∨ fn = 3 ∨ fn = 0x0A ∨ fn = 0x0B then 32 else 16
    let sgn := fn % 2 = 1
    if fn < 4 then ⟨mulOp w a b sgn, 0, false, false⟩
    else
      let d := divOp w a b sgn
      ⟨d.val, if d.dz then 8 else if d.ov then 4 else 0, true, d.ov⟩
  | 3 =>
    (match fn with
     | 0 => fp (convert f32 f64 0 a)
     | 1 => fp (convert f64 f32 md a)
     | 2 => fp (fromInt a)
     | _ => fp (toInt md a))
  | u =>
    let f := if u = 1 then f32 else f64
    match fn with
    | 0 => fp (f.add md a b)
    | 1 => fp (f.sub md a b)
    | 2 => fp (f.mul md a b)
    | 3 => fp (f.div md a b)
    | 4 => fp (f.cmp a b)
    | 5 => fp (f.minMax false a b)
    | _ => fp (f.minMax true a b)

/-- Latency from the start (R390, R392). -/
def copLatency (unit op a b : Nat) : Nat :=
  let fn := op % 32
  match unit with
  | 0 =>
    let w := if fn = 2 ∨ fn = 3 ∨ fn = 0x0A ∨ fn = 0x0B then 32 else 16
    let sgn := fn % 2 = 1
    if fn < 4 then 2 + (mulBits w b sgn + 3) / 4
    else
      let d := divOp w a b sgn
      if d.dz || d.ov then 3 else if w = 16 then 11 else 19
  | 3 => 3
  | u =>
    match fn with
    | 0 | 1 => 4
    | 2 => 5
    | 3 => if u = 1 then 12 else 20
    | _ => 2

/-- The functional unit of an operation within its bay, and whether it accepts one start per cycle (R389). -/
def copFu (unit op : Nat) : Nat × Bool :=
  let fn := op % 32
  match unit with
  | 0 => if fn < 4 then (0, false) else (1, false)
  | 1 => if fn = 2 then (3, true) else if fn = 3 then (4, false) else (2, true)
  | 2 => if fn = 2 then (6, true) else if fn = 3 then (7, false) else (5, true)
  | _ => (8, true)

/-- Words of the destination and of the operands of an operation of units 0 to 3, none where it is undefined (R390). -/
def copShape (unit op : Nat) : Option (Nat × Nat × Nat) :=
  let fn := op % 32
  let any := op / 32 % 2 = 0
  let zero := op / 32 = 0
  match unit with
  | 0 =>
    if !zero then none
    else match fn with
      | 0 | 1 => some (2, 1, 1)
      | 2 | 3 => some (4, 2, 2)
      | 8 | 9 => some (2, 2, 1)
      | 10 | 11 => some (4, 4, 2)
      | _ => none
  | 3 =>
    (match fn with
     | 0 => if zero then some (4, 2, 0) else none
     | 1 => if any then some (2, 4, 0) else none
     | 2 => if zero then some (4, 2, 0) else none
     | 3 => if any then some (2, 4, 0) else none
     | _ => none)
  | u =>
    let n := if u = 1 then 2 else 4
    match fn with
    | 0 | 1 | 2 | 3 => if any then some (n, n, n) else none
    | 4 => if zero then some (1, n, n) else none
    | 5 | 6 => if zero then some (n, n, n) else none
    | _ => none

/-- Words of the destination and of each operand of a socket operation (R400). -/
def socketShape (op : Nat) : Nat × Nat × Nat :=
  let w (x : Nat) : Nat := match x with | 0 => 1 | 1 => 2 | 2 => 4 | _ => 0
  (w (op / 64), w (op / 16 % 4), w (op / 16 % 4))

/-- Whether a unit is present (R273, R287, R387). -/
def Blk.unitThere (s : Blk) (u : Nat) : Bool := decide (u < 4) || s.straps.getLsbD (u - 4)

/-- Whether a dispatch comes before another: the earlier cycle, within a cycle the lower physical slot (R389). -/
def FuUse.before (x y : FuUse) : Bool := decide (x.at_ < y.at_) || (x.at_ == y.at_ && decide (x.slot ≤ y.slot))

/-- An operation of units 0 to 3 takes its place in its functional unit; those behind it in the order start after it (R389). -/
def Blk.fuPlace (s : Blk) (x : FuUse) : Blk :=
  let (mine, rest) := (s.fu.filter fun y => decide (s.now < y.free)).partition fun y => y.fu == x.fu
  let (ahead, behind) := mine.partition fun y => y.before x
  let (uses, s, _) := (x :: behind).foldl (fun (acc : List FuUse × Blk × Nat) y =>
    let (done, s, free) := acc
    match pget s.cops y.op with
    | none => (done ++ [y], s, max free y.free)
    | some op =>
      let start := max y.at_ free
      let due := start + copLatency op.unit op.op op.a.toNat op.b.toNat
      let y := { y with start := start, free := if (copFu op.unit op.op).2 then start + 1 else due + 1 }
      (done ++ [y], { s with cops := pset s.cops y.op { op with start := start, due := some due } }, y.free))
    ([], s, ahead.foldl (fun m y => max m y.free) 0)
  { s with fu := ahead ++ uses ++ rest }

/-- A dispatch of a context: the operation enters the port with its operands as they stand (R388, R389). -/
def Blk.dispatch (s : Blk) (k unit op : Nat) (dst : List Nat) (a b : Nat) : Blk :=
  let id := s.opNo
  let at_ := max (s.eng (k / 8)).free s.now
  let s := { s with opNo := id + 1,
                    cops := pset s.cops id ⟨k, unit, op, dst, BitVec.ofNat 64 a, BitVec.ofNat 64 b, at_, none, none⟩ }
  if unit < 4 then s.fuPlace ⟨16 * (k / 64) + (copFu unit op).1, at_, s.slotOf (k / 8), id, at_, at_⟩ else s

/-- A coprocessor instruction (R311): the operands of the format, its checks, its dispatch. -/
def State.copInstr (s : State) (c : CtxRef) (f : ZFmt) (mine : Nat → Nat → Bool) : Host.Outcome State Fault Refusal :=
  match f with
  | .lcp unit op ra z rb rc z5 =>
    let u := unit.toNat
    let o := op.toNat
    let shape := if u < 4 then copShape u o else some (socketShape o)
    (match shape with
     | none => s.illegal c f
     | some (nd, na, nb) =>
       let quadOk (r n : Nat) : Bool := n != 4 || r % 4 == 0
       let legal := !z && !z5 && mine u (o % 32) && quadOk ra.toNat nd && quadOk rb.toNat na && quadOk rc.toNat nb &&
         (na != 0 || rb == 0) && (nb != 0 || rc == 0)
       .next (s.zaell c 2 legal false false ⟨[(rb.toNat, na), (rc.toNat, nb)], [(ra.toNat, nd)]⟩ fun s =>
         let k := ctxKey c
         let x := s.ctxOf c
         if x.lock then (s, .fault (zfault 0x01))
         else if !s.blk.unitThere u then (s, .fault (zfault 0x0B))
         else if 4 ≤ s.blk.portUse (k / 8) then (s, .wait .port)
         else
           ({ s with blk := s.blk.dispatch k u o (x.places ra.toNat nd) (x.val rb.toNat na) (x.val rc.toNat nb) }, .next 1)))
  | _ => s.illegal c f

/-! ### Results -/

/-- An operation of units 0 to 3 writes its result in its cycle, a socket's when it answers; for a context whose results are held it waits (R196,
R388, R400). -/
def Blk.copDone (s : Blk) (id : Nat) (ans : BitVec 64) (fl : BitVec 5) (par : Bool) : Blk :=
  match pget s.cops id with
  | none => s
  | some op =>
    let r : CopRes := if op.unit < 4 then copResult op.unit op.op op.a.toNat op.b.toNat else ⟨ans.toNat, fl.toNat, true, false⟩
    let ready := match op.due with | some t => decide (t ≤ s.now) | none => decide (op.start ≤ s.now) && decide (s.now ≤ op.start + 4096)
    if !ready || op.held.isSome then s
    else
      let v := BitVec.ofNat 64 r.val
      let g := BitVec.ofNat 5 r.fl
      if s.holds op.ctx then { s with cops := pset s.cops id { op with held := some (v, g, r.cpf, r.intV, par) } }
      else s.copWrite id op v g r.cpf r.intV par

/-- A socket has not answered in 4096 cycles (R401). -/
def Blk.socketOut (s : Blk) (id : Nat) : Blk :=
  match pget s.cops id with
  | none => s
  | some op =>
    if 4 ≤ op.unit ∧ op.start + 4096 ≤ s.now ∧ op.held.isNone then
      let s := s.eaEvt op.ctx 0x07
      if s.holds op.ctx then { s with cops := pset s.cops id { op with held := some (0, 16, true, false, false) } }
      else s.copWrite id op 0 16 true false false
    else s

end Sys2Proof.Machine
end

