-- ==== Sys2Proof/Machine/EngineWork.lean ====
section
/-! DEFINITION. The engines' commands (06) and the watchdogs and bay clocks of the Event Controller (14, R437 to R447). -/

namespace Sys2Proof.Machine

/-! ### Engine pages -/

/-- A write of EA_ENG_CTRL of slot `x` (R216, R224). -/
def Blk.wrEngCtrl (s : Blk) (b x : Nat) (v : Word) : Blk :=
  let s := s.setFld (F.EA_ENG_CTRL_INJCTX b x) ((F.EA_ENG_CTRL_INJCTX b x).get v)
  let s := if (F.EA_ENG_CTRL_INJ b x).get v = 1 then s.set1 (F.EA_ENG_CTRL_INJ b x) else s
  let idle : Bool := match s.onSlot b x with
    | some e => (engCtxs e).all fun k => (s.ctx k).st == .idle
    | none => true
  let s := if idle then s.setFld (F.EA_ENG_CTRL_COMPAT b x) ((F.EA_ENG_CTRL_COMPAT b x).get v) else s
  if (F.EA_ENG_CTRL_RETIRE b x).get v = 1 then s.retireSlot b x else s

/-- A write of EA_CTX_LIRQ of context `n` on slot `x`; a bit set and cleared at once stays set (R224). -/
def Blk.wrLirq (s : Blk) (b x n : Nat) (v : Word) : Blk :=
  match s.onSlot b x with
  | some e => s.onCtx (8 * e + n) fun c =>
      { c with pend := (c.pend &&& ~~~v.extractLsb' 0 3) ||| v.extractLsb' 8 3, en := v.extractLsb' 16 3 }
  | none => s

/-- A write of EA_SWAP (R222, R223). -/
def Blk.wrSwap (s : Blk) (b : Nat) (v : Word) : Blk :=
  let s := s.w1c (F.EA_SWAP_off b) 4 v
  if (F.EA_SWAP_ARM b).get v = 1 && !s.bit (F.EA_SWAP_PEND b) then
    { (s.set1 (F.EA_SWAP_PEND b)).set1 (F.EA_SWAP_ARM b) with asked := pset s.asked (2 * b) s.now }
  else s

/-- A context timer reaches zero (R252). -/
def Blk.timerOut (s : Blk) (k : Nat) : Blk :=
  if (s.ctx k).tim.due s.now then
    s.onCtx k fun c => { c with tim := ⟨0, s.now, false⟩, timHit := true, pend := c.pend ||| 2 }
  else s

/-! ### Watchdogs -/

/-- A context watchdog expires (R442); the bit of context 0 sets too (log 171). -/
def Blk.ctxWdOut (s : Blk) (k : Nat) : Blk :=
  if (s.ctx k).wd.due s.now then
    let s := s.onCtx k fun c => { c with wd := c.wd.reload s.now s.ctxReload }
    let f : Fld := ⟨F.EV_CWD_STAT_off (k / 64) (s.slotOf (k / 8)), k % 8, 1⟩
    if k % 8 = 0 ∨ s.bit f then (s.hwSet f).eaEvt k 0x0D
    else (s.hwSet f).onCtx (k / 8 * 8) fun c => { c with pend := c.pend ||| 1 }
  else s

/-- An engine watchdog expires (R443). -/
def Blk.engWdOut (s : Blk) (b x : Nat) : Blk :=
  let w := s.engWdOf b x
  if w.due s.now then
    let s := { s with engWd := pset s.engWd (9 * b + x) (w.reload s.now s.engReload) }
    s.raise (58 + 4 * b) (some (0x0C, x * 2 ^ 24 + (s.onSlot b x).getD 0))
  else s

/-- A bay watchdog expires (R444). -/
def Blk.bayWdOut (s : Blk) (b : Nat) : Blk :=
  let w := s.bayWdOf b
  if w.due s.now then { s with bayWd := pset s.bayWd b (w.reload s.now s.bayReload) }.raise (59 + 4 * b) (some (0x0E, 0)) else s

/-- The reload value of the block watchdog (R441). -/
def Blk.blkReload (s : Blk) : Nat := s.fld F.EV_BLK_WD_LIMIT * 4096

/-- The block watchdog expires: the chip fails (R179, R445). -/
def Blk.blkWdOut (s : Blk) : Blk :=
  if s.blkWd.due s.now then
    ({ s with blkWd := s.blkWd.reload s.now s.blkReload }.raise 0 (some (0x10, 0))).chipFail false
  else s

/-- The key of a kick (R445). -/
def kickKey : Nat := 0xA5C3

/-- A write of EV_BWD_KICK (R445). -/
def Blk.wrBwdKick (s : Blk) (b : Nat) (v : Word) : Blk :=
  if (F.EV_BWD_KICK_KEY b).get v = kickKey then { s with bayWd := pset s.bayWd b ((s.bayWdOf b).reload s.now s.bayReload) } else s

/-- A write of EV_BLK_KICK (R445). -/
def Blk.wrBlkKick (s : Blk) (v : Word) : Blk :=
  if F.EV_BLK_KICK_KEY.get v = kickKey then { s with blkWd := s.blkWd.reload s.now s.blkReload } else s

/-- A write of EV_BLK_WD, ignored once ARMED (R445, R448). -/
def Blk.wrBlkWd (s : Blk) (v : Word) : Blk :=
  if s.bit F.EV_BLK_WD_ARMED then s
  else
    let s := s.setFld F.EV_BLK_WD_LIMIT (max 1 (F.EV_BLK_WD_LIMIT.get v))
    if F.EV_BLK_WD_ARM.get v = 1 then
      { (s.set1 F.EV_BLK_WD_ARMED).set1 F.EV_BLK_WD_ARM with blkWd := ⟨s.blkReload, s.now, true⟩ }
    else { s with blkWd := ⟨s.blkReload, s.now, false⟩ }

/-- A write of EV_WD_CFG: a limit of 0 stops the watchdogs it reloads (R441). -/
def Blk.wrWdCfg (s : Blk) (v : Word) : Blk :=
  let s := s.wr F.EV_WD_CFG_off v
  s.ctxs.foldl (fun s x => s.onCtx x.1 id) s

/-- A write of EV_WD_BAY (R441). -/
def Blk.wrWdBay (s : Blk) (v : Word) : Blk :=
  let s := s.setFld F.EV_WD_BAY_LIMIT (F.EV_WD_BAY_LIMIT.get v)
  (List.range 32).foldl (fun s b => if (pget s.bayWd b).isSome then s.bayWatch b else s) s

/-! ### Bay clocks -/

/-- Whether a bay is as R437 asks for its clocks to stop. -/
def Blk.bayQuiet (s : Blk) (b : Nat) : Bool :=
  (List.range 64).all (fun i => s.quietCtx (64 * b + i)) &&
  !(s.dms.any fun x => x.2.ctx / 64 == b) && !s.bit (F.SV_UNIT_STAT_BUSY b) && (pget s.moves b).isNone &&
  !(s.cops.any fun x => x.2.ctx / 64 == b) && !(s.pools.any fun x => x.2.ctx / 64 == b)

/-- A bay's clocks stop (R437, R447). -/
def Blk.bayStops (s : Blk) (b : Nat) : Blk :=
  let since := (pget s.idleAt b).getD s.relAt
  if s.rbit F.EV_BAYCLK_off b && !s.rbit F.EV_BAYSTOP_off b && s.bayQuiet b && decide (since + 256 ≤ s.now) then
    (s.setRbit F.EV_BAYSTOP_off b true).bayWatch b
  else s

/-- A stopped bay runs 24 cycles after the first edge caught (R438). -/
def Blk.bayWakes (s : Blk) (b : Nat) : Blk :=
  match pget s.latch b with
  | some t => if t + 24 ≤ s.now then s.wakeBay b else s
  | none => s

/-- A write of EV_BAYCLK: 0 restarts a stopped bay (R439). -/
def Blk.wrBayclk (s : Blk) (v : Word) : Blk :=
  (List.range 32).foldl (fun s b => if v.getLsbD b then s else s.edge b) (s.wr F.EV_BAYCLK_off v)

end Sys2Proof.Machine
end

