-- ==== Sys2Proof/Machine/Events.lean ====
section
/-! DEFINITION. The Event Controller (14): offers, claims and completions (R427 to R434), moderation (R435, R436), the
freeze (R429, R430) and the registers of its page but the watchdogs'. -/

namespace Sys2Proof.Machine

/-- Whether source `n` is routed to target `t` (R450). -/
def Blk.routed (s : Blk) (n t : Nat) : Bool :=
  if t < 32 then s.rbit (F.EV_ROUTE_LO_off n) t else s.rbit (F.EV_ROUTE_HI_off n) (t - 32)

/-- Whether source `n` is active on a target. -/
def Blk.isActive (s : Blk) (n : Nat) : Bool := s.ev.active.any fun x => x.2 == n

/-- R427; a source with a parity error found counts as masked (R452). -/
def Blk.offerable (s : Blk) (n : Nat) : Bool :=
  (List.range 3).all (fun j => (pget s.ev.bad (3 * n + j)).isNone) &&
  s.bit (evPendBit n) && !s.bit (evMaskBit n) && (List.range 34).any (s.routed n) && s.bit F.EV_GCTL_EN &&
  !s.ev.frozen && !s.isActive n

/-- Whether target `t` is idle (R436). -/
def Blk.tgtIdle (s : Blk) (t : Nat) : Bool :=
  if t < 32 then s.rbit F.EV_BAYSTOP_off t || (pget s.idle t).isSome
  else
    match s.ev.t32Done with
    | some c => t == 32 && decide (c + s.fld (F.EV_TMOD_HOLD 32) * 16 ≤ s.now)
    | none => t == 32

/-- A condition of R435 for the offer of source `n` to target `t`. -/
def Blk.moderated (s : Blk) (t n : Nat) : Bool :=
  let hold := s.fld (F.EV_TMOD_HOLD t)
  let count := s.fld (F.EV_TMOD_COUNT t)
  let waited := match pget s.ev.waitFrom t with
    | some c => decide (c + hold * 16 ≤ s.now)
    | none => false
  hold == 0 || s.tgtIdle t || decide (n < s.fld F.EV_GCTL_URG) ||
  (count != 0 && decide (count ≤ ((List.range 250).filter fun m => s.offerable m && s.routed m t).length)) ||
  waited || t == 33

/-- The offer of target `t` is released when a condition of R435 holds. -/
def Blk.release1 (s : Blk) (t : Nat) : Blk :=
  match pget s.ev.offer t with
  | some n => if s.moderated t n then { s with ev := { s.ev with released := pset s.ev.released t () } } else s
  | none => s

/-- The offers of R431: sources in priority order, each to the first free routed target after its last one. -/
def Blk.offers (s : Blk) : List (Nat × Nat) :=
  (List.range 250).foldl (fun o n =>
    if s.offerable n then
      let rr := s.fld (F.EV_ROUTE_HI_RR n)
      match ((List.range 34).map fun k => (rr + 1 + k) % 34).find? fun t =>
          s.routed n t && (pget s.ev.active t).isNone && (pget o t).isNone with
      | some t => pset o t n
      | none => o
    else o) []

/-- The offers assigned from the state at the start of this cycle, those of a source or a target with a claim of this cycle dropped, and all of them
during a freeze (R429, R431, R432); a parity error found in this cycle counts (R452). -/
def Blk.newOffers (s : Blk) : List (Nat × Nat) :=
  let d : Blk := { s.atDawn with ev := { s.dawn.ev with bad := s.ev.bad } }
  if s.ev.frozen then [] else d.offers.filter fun o => (pget s.ev.active o.1).isNone && !s.isActive o.2

/-- The new offers take effect at the end of the cycle (R431): each is held from the next one on, where it may be released at once (R435); an offer
that stays keeps its release, and a stopped bay's latch sees its offer (R438). -/
def Blk.assign (s : Blk) : Blk :=
  let old := s.ev.offer
  let new := s.newOffers
  let t : Blk := { s with now := s.now + 1, ev := { s.ev with
    offer := new
    released := s.ev.released.filter fun r => (pget new r.1).isSome && pget new r.1 == pget old r.1
    waitFrom := new.map fun o => (o.1, ((pget s.ev.waitFrom o.1).getD (s.now + 1))) } }
  let t := new.foldl (fun (s : Blk) o => s.release1 o.1) t
  let t := new.foldl (fun s o => if o.1 < 32 ∧ (pget old o.1).isNone then s.edge o.1 else s) t
  { t with now := s.now }

/-- The offer of target `t` is released in a cycle at whose start a condition of R435 held. -/
def Blk.releaseNow (s : Blk) (t : Nat) : Blk :=
  match pget s.ev.offer t with
  | some n =>
    if pget s.dawn.ev.offer t = some n ∧ s.atDawn.moderated t n then { s with ev := { s.ev with released := pset s.ev.released t () } } else s
  | none => s

/-- Target `t` loses its offer. -/
def Blk.dropOffer (s : Blk) (t : Nat) : Blk :=
  { s with ev := { s.ev with offer := pdel s.ev.offer t, released := pdel s.ev.released t, waitFrom := pdel s.ev.waitFrom t } }

/-- A claim by target `t` and the value read (R432). -/
def Blk.claim (s : Blk) (t : Nat) : Blk × Word :=
  match pget s.ev.offer t with
  | some n =>
    let s := s.dropOffer t
    let s := { s with ev := { s.ev with active := pset s.ev.active t n } }
    let s := s.clr1 (evPendBit n)
    (s.setFld (F.EV_ROUTE_HI_RR n) t, BitVec.ofNat 32 (2 ^ 31 + n))
  | none => (s, 0)

/-- The value of EV_CLAIM without a claim (R9, R432). -/
def Blk.claimView (s : Blk) (t : Nat) : Word :=
  match pget s.ev.offer t with
  | some n => BitVec.ofNat 32 (2 ^ 31 + n)
  | none => 0

/-- A completion of source `n` by target `t` (R433); Sage keeps those of T33 (R499). -/
def Blk.complete (s : Blk) (t n : Nat) : Blk :=
  if pget s.ev.active t = some n then
    { s with ev := { s.ev with active := pdel s.ev.active t,
                               t32Done := if t = 32 then some s.now else s.ev.t32Done },
             td := if t = 33 then { s.td with sage := s.td.sage ++ [n] } else s.td }
  else (s.hwSet F.EV_STAT_DONEERR).raise 0 (some (0x01, t * 2 ^ 16 + n % 256))

/-- EV_TSTAT of target `t` (R449). -/
def Blk.tstat (s : Blk) (t : Nat) : Word :=
  let a := match pget s.ev.active t with | some n => 2 ^ 31 + n * 2 ^ 16 | none => 0
  let o := match pget s.ev.offer t with | some n => 2 ^ 15 + n | none => 0
  BitVec.ofNat 32 (a + o + (s.tgtIdle t).toNat * 2 ^ 14 + (pget s.ev.released t).isSome.toNat * 2 ^ 13)

/-! ### Freeze -/

/-- A freeze starts: every offer is withdrawn (R429, R430). -/
def Blk.freeze (s : Blk) (owner limit : Nat) : Blk :=
  let s := ((s.set1 F.EV_STAT_FROZEN).set1 F.EV_FRZ_FRZ).setFld F.EV_FRZ_ID owner
  let s := s.setFld F.EV_FRZ_LIMIT limit
  { s with ev := { s.ev with frozen := true, frzOwner := BitVec.ofNat 6 owner, frzAt := s.now, frzLimit := limit,
                             offer := [], released := [], waitFrom := [] } }

/-- A freeze ends: the sets held are applied at the end of the next cycle (R429). -/
def Blk.unfreeze (s : Blk) : Blk :=
  let s := (s.clr1 F.EV_STAT_FROZEN).clr1 F.EV_FRZ_FRZ
  let s := s.ev.heldPend.foldl (fun s x => s.evLater false x.1) s
  let s := s.ev.heldMask.foldl (fun s x => s.evLater true x.1) s
  { s with ev := { s.ev with frozen := false, heldPend := [], heldMask := [] } }

/-- A write of EV_FRZ (R430, R448). -/
def Blk.wrEvFrz (s : Blk) (v : Word) : Blk :=
  let id := F.EV_FRZ_ID.get v
  let limit := max 1 (F.EV_FRZ_LIMIT.get v)
  if s.ev.frozen then
    if F.EV_FRZ_FRZ.get v = 0 ∧ id = s.ev.frzOwner.toNat then s.unfreeze.setFld F.EV_FRZ_ID id
    else s.hwSet F.EV_STAT_FRZBUSY
  else if F.EV_FRZ_FRZ.get v = 1 then s.freeze id limit
  else (s.setFld F.EV_FRZ_LIMIT limit).setFld F.EV_FRZ_ID id

/-- The freeze limit has passed (R430). -/
def Blk.freezeOut (s : Blk) : Blk :=
  if s.ev.frozen && decide (s.ev.frzAt + s.ev.frzLimit * 16 ≤ s.now) then
    (s.unfreeze.hwSet F.EV_STAT_FRZTO).raise 1 (some (0x21, s.ev.frzOwner.toNat))
  else s

/-- The controller finds a parity error in an entry of source `n` (R452). -/
def Blk.evParity (s : Blk) (n j : Nat) : Blk :=
  if (pget s.ev.bad (3 * n + j)).isSome then s
  else { s with ev := { s.ev with bad := pset s.ev.bad (3 * n + j) () } }.raise 0 (some (0x02, n))

/-- An entry of source `n` is rewritten (R452). -/
def Blk.evRewrite (s : Blk) (n j : Nat) : Blk := { s with ev := { s.ev with bad := pdel s.ev.bad (3 * n + j) } }

/-- The bits of word `i` whose sources hardware has set in this cycle. -/
def nowBits (m : List (Nat × Nat)) (now i : Nat) : Word :=
  m.foldl (fun a x => if x.2 = now ∧ x.1 / 32 = i then a ||| (1#32 <<< (x.1 % 32)) else a) 0

/-- A write of EV_PEND or EV_MASK word `i`: ignored while FRZTO is 1; a bit that hardware sets in the same cycle stays set
(R429, R430). -/
def Blk.wrPendMask (s : Blk) (mask : Bool) (i : Nat) (v : Word) : Blk :=
  if s.bit F.EV_STAT_FRZTO then s
  else
    let v := if i = 7 then v &&& 0x03FFFFFF else v
    let s := (List.range 32).foldl (fun s b => s.evRewrite (32 * i + b) (if mask then 1 else 0)) s
    if mask then s.wr (F.EV_MASK_off i) (v ||| nowBits s.ev.maskAt s.now i)
    else s.wr (F.EV_PEND_off i) v

/-- The counts of the storm guard restart at a frame boundary (R428). -/
def Blk.stormFrame (s : Blk) : Blk := { s with ev := { s.ev with storm := [] } }

end Sys2Proof.Machine
end

