-- ==== Sys2Proof/Machine/Patch.lean ====
section
/-! DEFINITION. Microcode patches (07, R255 to R266, with R492 and R493): the image, the loader, activation and the match registers. -/

namespace Sys2Proof.Machine

/-! ### The image -/

/-- The bytes of words, each word's lowest byte first. -/
def wordBytes (ws : List Word) : List Byte := ws.flatMap fun w => bytesLE 4 w

/-- `n` bytes from place `i` as a little-endian number. -/
def leAt (bs : List Byte) (i n : Nat) : Nat := ((bs.drop i).take n).foldr (fun b a => a * 256 + b.toNat) 0
/-- `n` bytes from place `i` as a big-endian number. -/
def beAt (bs : List Byte) (i n : Nat) : Nat := ((bs.drop i).take n).foldl (fun a b => a * 256 + b.toNat) 0

/-- The image in the window, as long as CS_PATCH_LEN says (R258, R259). -/
def Blk.patchImage (s : Blk) : List Byte :=
  let n := s.fld F.CS_PATCH_LEN_LEN
  (wordBytes ((List.range ((n + 3) / 4)).map fun i => tget (fun _ => 0) s.patchWin i)).take n

/-- The header fields of an image (R258). -/
structure PatchHead where
  romver : Nat
  level  : Nat
  nwords : Nat
  nmatch : Nat
  keyid  : Nat
  plen   : Nat
  deriving DecidableEq, Repr

/-- The header, and whether its length, fields and reserved bytes are consistent (check 1 of R259). -/
def patchHead (bs : List Byte) : PatchHead × Bool :=
  let h : PatchHead := { romver := leAt bs 8 4, level := leAt bs 12 4, nwords := leAt bs 16 2, nmatch := leAt bs 18 2,
                         keyid := leAt bs 20 4, plen := leAt bs 36 4 }
  (h, bs.take 4 == [0x4B, 0x41, 0x50, 0x54] && leAt bs 4 2 == 1 && leAt bs 6 2 == 0 && leAt bs 40 24 == 0 &&
    decide (h.romver < 2 ^ 16) && decide (1 ≤ h.level) && decide (h.level < 2 ^ 16) && decide (1 ≤ h.nwords) &&
    decide (h.nwords ≤ 1024) && decide (h.nmatch ≤ 64) && h.plen == 20 * h.nwords + 8 * h.nmatch &&
    bs.length == 64 + h.plen + 16 + 96)

/-- The AES key of patch key pair `k` (R492). -/
def Blk.patchKey (s : Blk) (k : Nat) : BitVec 256 :=
  BitVec.ofNat 256 (Config.hkdf (bytesBE 32 s.td.fuses.psec) ((bytesBE 9 0x4B52592D5041544348#72) ++ [BitVec.ofNat 8 k]) 32)

/-- Check 2 of R259 and R492: the plaintext payload, or the ERR code. -/
def Blk.patchOpen (s : Blk) (bs : List Byte) (h : PatchHead) : Except Nat (List Byte) :=
  let k := h.keyid % 4
  if h.keyid / 4 ≠ 0 ∨ s.td.fuses.revoke.getLsbD k ∨ s.fld F.TD_LIFE_LIFE = 0 then .error 1
  else
    let signed := bs.take (64 + h.plen + 16)
    if !Config.p384Verify (Config.vendorPatchKey k) (Config.sha384 signed) (BitVec.ofNat 768 (beAt bs signed.length 96)) then .error 1
    else
      match Config.gcmOpen (s.patchKey k) ((bs.drop 24).take 12) (bs.take 64) ((bs.drop 64).take h.plen) ((bs.drop (64 + h.plen)).take 16) with
      | some p => .ok p
      | none => .error 2

/-- The microwords of a payload (R258). -/
def patchWords (p : List Byte) (n : Nat) : List (BitVec 160) := (List.range n).map fun i => BitVec.ofNat 160 (leAt p (20 * i) 20)

/-- The match entries of a payload as ROMADDR, TARGET and the two unused words (R258). -/
def patchEntries (p : List Byte) (nwords nmatch : Nat) : List (Nat × Nat × Nat) :=
  (List.range nmatch).map fun i =>
    let o := 20 * nwords + 8 * i
    (leAt p o 2, leAt p (o + 2) 2, leAt p (o + 4) 4)

/-- The checks of R259 in order: the payload, its microwords and the patch, or the ERR code. -/
def Blk.patchCheck (s : Blk) : Except Nat (List Byte × List (BitVec 160) × Patch) :=
  let bs := s.patchImage
  let (h, good) := patchHead bs
  if !good then .error 4
  else
    match s.patchOpen bs h with
    | .error e => .error e
    | .ok p =>
      let ws := patchWords p h.nwords
      let es := patchEntries p h.nwords h.nmatch
      if h.romver ≠ Config.romVersion.toNat then .error 3
      else if ws.any fun w => meccSyndrome w != 0 || w.extractLsb' 0 8 != 0 then .error 5
      else if (es.any fun e => decide (2 ^ 13 ≤ e.1) || decide (h.nwords ≤ e.2.1) || e.2.2 != 0) || !decide ((es.map (·.1)).Nodup) then .error 6
      else .ok (p, ws, { entries := es.map fun e => (BitVec.ofNat 13 e.1, BitVec.ofNat 10 e.2.1), level := BitVec.ofNat 16 h.level })

/-! ### The loader -/

/-- CS_PATCH_STAT.STATE (R260). -/
def Blk.patchState (s : Blk) : Nat := s.fld F.CS_PATCH_STAT_STATE

/-- A refusal with its ERR code. -/
def Blk.patchRefuse (s : Blk) (code : Nat) : Blk := (s.setFld F.CS_PATCH_STAT_ERR code).raise 46 (some (code, 0))

/-- The loader leaves LOADING; the window is cleared (R259, R260, R493). -/
def Blk.patchLoaded (s : Blk) : Blk :=
  if s.patchState = 1 then
    let r := s.patchCheck
    let s := { s with patchWin := [] }
    match r with
    | .error code => (s.setFld F.CS_PATCH_STAT_STATE 5).patchRefuse code
    | .ok (p, ws, pat) =>
      let s := (s.setFld F.CS_PATCH_STAT_STATE 2).setFld F.CS_PATCH_LEVEL_LEVEL pat.level.toNat
      { s with patch := some pat, patchRam := ws.zipIdx.map (fun (x : BitVec 160 × Nat) => (x.2, x.1)), td := { s.td with payload := p } }.raise 46
  else s

/-- The registers of match register `n` of a bay that hold an enabled patch match, and their ROM address. -/
def Blk.patchMatch (s : Blk) (b n : Nat) : Option Nat :=
  if s.bit (F.CS_MATCH_ADDR_EN b n) && !s.bit (F.CS_MATCH_ADDR_KIND b n) then some (s.fld (F.CS_MATCH_ADDR_ROMADDR b n)) else none

/-- Breakpoints that an activation displaces in a bay are disabled (step 1 of R261). -/
def Blk.breaksLost (s : Blk) (b : Nat) (pat : Patch) (last : Nat) : Blk :=
  let lost := (List.range 64).filter fun n =>
    s.bit (F.CS_MATCH_ADDR_EN b n) && s.bit (F.CS_MATCH_ADDR_KIND b n) &&
    (decide (n < pat.entries.length) || pat.entries.any fun e => e.1.toNat == s.fld (F.CS_MATCH_ADDR_ROMADDR b n))
  match lost with
  | [] => s
  | n0 :: _ =>
    let s := lost.foldl (fun s n => s.setMatch (F.CS_MATCH_ADDR_off b n) ((F.CS_MATCH_ADDR_EN b n).put (s.rd (F.CS_MATCH_ADDR_off b n)) 0) last) s
    (s.hwSet (F.CS_BAY_STAT_BRKLOST b)).raise 49 (some (0x31, b * 2 ^ 24 + n0))

/-- The match entries take their registers (step 2 of R261). -/
def Blk.matchesSet (s : Blk) (b : Nat) (pat : Patch) (last : Nat) : Blk :=
  pat.entries.zipIdx.foldl (fun s x =>
    let n := x.2
    let s := s.setMatch (F.CS_MATCH_ADDR_off b n) (BitVec.ofNat 32 (2 ^ 31 + 0xFF * 2 ^ 16 + x.1.1.toNat)) last
    s.setMatch (F.CS_MATCH_TGT_off b n) (BitVec.ofNat 32 x.1.2.toNat) last) s

/-- The installed patch becomes ACTIVE in cycle `c`, whose fetches follow the new matches (R261); this chip's version has changed (R193, R262). -/
def Blk.patchActivate (s : Blk) (c : Nat) : Blk :=
  match s.patch with
  | some pat =>
    let s := (List.range 32).foldl (fun s b => (s.breaksLost b pat (c - 1)).matchesSet b pat (c - 1)) s
    (((s.setFld F.CS_VERSION_LEVEL pat.level.toNat).setFld F.CS_PATCH_STAT_STATE 4).raise 47).verSeen
  | none => s

/-- A pending activation at a frame boundary strictly after its request (R6, step 8 of R25). -/
def Blk.patchFrame (s : Blk) : Blk :=
  if s.patchState = 3 ∧ pget s.asked 64 ≠ some s.tb.bndAt then s.patchActivate s.tb.bndAt else s

/-- An activation requested while every bay was disabled takes effect in the next cycle (R26, R261). -/
def Blk.patchDue (s : Blk) : Blk :=
  match s.patchNow with
  | some c =>
    if c < s.now then
      let t := { s with now := c + 1, patchNow := none }.patchActivate (c + 1)
      { t with now := s.now }
    else s
  | none => s

/-- GO in a state of the loader (R260, R559). -/
def Blk.patchGo (s : Blk) : Blk :=
  match s.patchState with
  | 0 | 5 => if s.bit F.BLK_STAT_FUSEDONE then s.setFld F.CS_PATCH_STAT_STATE 1 else { s with td := { s.td with goHeld := true } }
  | 1 => s
  | _ => s.patchRefuse 7

/-- ACT in a state of the loader (R260, R261). -/
def Blk.patchAct (s : Blk) : Blk :=
  match s.patchState with
  | 2 =>
    if s.patchNow.isSome then s
    else if (List.range 32).any fun b => s.bit (F.EA_BAY_CTRL_EN b) then
      { s.setFld F.CS_PATCH_STAT_STATE 3 with asked := pset s.asked 64 s.now }
    else { s with patchNow := some s.now }
  | 3 | 4 => s
  | _ => s.patchRefuse 8

/-- A write of CS_PATCH_CTRL: ACT is judged on the state before GO. -/
def Blk.wrPatchCtrl (s : Blk) (v : Word) : Blk :=
  let s := if F.CS_PATCH_CTRL_ACT.get v = 1 then s.patchAct else s
  if F.CS_PATCH_CTRL_GO.get v = 1 then s.patchGo else s

/-- A write of the patch image window (R260). -/
def Blk.wrPatchWin (s : Blk) (off : Nat) (v : Word) : Blk :=
  if s.patchState = 0 ∨ s.patchState = 5 then
    { s with patchWin := tset (fun _ => 0) s.patchWin ((off - 0x140000) / 4) v }
  else s

/-! ### Match registers -/

/-- A write of CS_MATCH_ADDR or CS_MATCH_TGT, refused as R257 gives. -/
def Blk.wrMatch (s : Blk) (b n : Nat) (tgt : Bool) (v : Word) : Blk :=
  let refuse := (s.hwSet (F.CS_BAY_STAT_CONFLICT b)).raise 49 (some (0x30, b * 2 ^ 24 + n))
  if (s.patchMatch b n).isSome then refuse
  else if tgt then s.setMatch (F.CS_MATCH_TGT_off b n) (v &&& 0x3FF) s.now
  else
    let en := (F.CS_MATCH_ADDR_EN b n).get v = 1
    let kind := (F.CS_MATCH_ADDR_KIND b n).get v
    let rom := (F.CS_MATCH_ADDR_ROMADDR b n).get v
    if en ∧ kind = 0 then refuse
    else if kind = 1 ∧ (List.range 64).any fun m => s.patchMatch b m == some rom then refuse
    else s.setMatch (F.CS_MATCH_ADDR_off b n) (v &&& 0xC0FF1FFF) s.now

end Sys2Proof.Machine
end

