-- ==== Sys2Proof/Machine/Trust.lean ====
section
/-! DEFINITION. The Trust and Debug Unit but for the monitor's commands: fuse load, identity, SPDM, debug authorisation, halts and the
cross-trigger matrix (16). -/

namespace Sys2Proof.Machine

/-- The unit's own state takes a content. -/
def Blk.onTd (s : Blk) (f : Trust → Trust) : Blk := { s with td := f s.td }

/-! ### Fuse load (R486, R418, R559) -/

/-- The fuse fields in force: either copy, the bits blown since, and zero where the field's CRC fails (R486). -/
def fuseFields (img : FuseImage) (burnt : BitVec 4480) : FuseCopy :=
  let ok (i : Nat) : Bool := !img.bad.getLsbD i
  { uds := if ok 0 then img.a.uds ||| img.b.uds else 0,
    unitid := if ok 1 then img.a.unitid ||| img.b.unitid else 0,
    life := if ok 2 then img.a.life ||| img.b.life else 0,
    own := if ok 3 then img.a.own ||| img.b.own else 0,
    pwd := if ok 4 then img.a.pwd ||| img.b.pwd else 0,
    psec := if ok 5 then img.a.psec ||| img.b.psec else 0,
    revoke := if ok 6 then img.a.revoke ||| img.b.revoke else 0,
    rep := if ok 7 then img.a.rep ||| img.b.rep ||| burnt else 0 }

/-- The place of the seven bits of entry `i` of array `a` of bay `b`. -/
def repAt (b a i : Nat) : Nat := 7 * (20 * b + 4 * a + i)

/-- The fused entries of an array as BM_REPAIR shows them (R418). -/
def repWord (rep : BitVec 4480) (b a : Nat) : Word :=
  (List.range 4).foldl (fun w i =>
    let e := (rep.extractLsb' (repAt b a i) 7).toNat
    w ||| (BitVec.ofNat 32 (e / 64 * 128 + e % 64) <<< (8 * i))) 0

/-- A new nonce, while random bits can be drawn (R494, R515). -/
def Blk.drawNonce (s : Blk) (n : BitVec 384) : Blk :=
  if s.td.rbgBad then s else (List.range 12).foldl (fun s i => s.wr (F.TD_DBG_NONCE_off i) (n.extractLsb' (32 * i) 32)) s

/-- Fuse load ends (R486, R487, R418, R559); the self-test of the bay memories follows it (R419). -/
def State.fuseLoad (s : State) (img : FuseImage) (nonce : BitVec 384) : State :=
  if s.blk.bit F.BLK_STAT_FUSEDONE then s
  else
    let f := fuseFields img s.blk.burnt
    let k := s.blk.onTd fun t => { t with fuses := f }
    let k := (List.range 8).foldl (fun k i => if img.bad.getLsbD i then k.raise 5 (some (0x30, i)) else k) k
    let k := (((k.setBit F.TD_LIFE_FUSEOK (img.bad == 0)).setFld F.TD_LIFE_PREVOKE f.revoke.toNat).setBit F.TD_LIFE_OWNSET (f.own != 0)).setFld
      F.TD_LIFE_LIFE f.life.toNat
    let k := (k.wr F.TD_UNITID_LO_off (f.unitid.extractLsb' 0 32)).wr F.TD_UNITID_HI_off (f.unitid.extractLsb' 32 32)
    let k := (List.range 32).foldl (fun k b => (List.range 5).foldl (fun k a => k.wr (F.BM_REPAIR_off b a) (repWord f.rep b a)) k) k
    let k := if f.life = 0 then k.setFld F.TD_DBG_STAT_LEVEL 3 else k
    let k := (k.drawNonce nonce).set1 F.BLK_STAT_FUSEDONE
    let k := if k.td.goHeld then (k.onTd fun t => { t with goHeld := false }).patchGo else k
    (List.range 32).foldl (fun t b => t.bistStart b) { s with blk := k }

/-! ### Identity (R488, R489) -/

/-- A private scalar of the method that R488 names. -/
def privateKey (ikm : List Byte) (info : List Byte) : BitVec 384 :=
  BitVec.ofNat 384 (Config.hkdf ikm info 56 % (p384Order - 1) + 1)

/-- "KRY-DEVID" and "KRY-ALIAS". -/
def infoDevid : List Byte := [0x4B, 0x52, 0x59, 0x2D, 0x44, 0x45, 0x56, 0x49, 0x44]
@[inherit_doc infoDevid] def infoAlias : List Byte := [0x4B, 0x52, 0x59, 0x2D, 0x41, 0x4C, 0x49, 0x41, 0x53]

/-- Measurement 3 (R491). -/
def Blk.measure3 (s : Blk) : BitVec 384 := Config.measurement3 s.td.fuses.life s.td.fuses.revoke s.td.fuses.own

/-- The identity keys are derived, and UDS is erased (R488). -/
def Blk.deriveKeys (s : Blk) : Blk :=
  if s.bit F.BLK_STAT_FUSEDONE && !s.bit F.BLK_STAT_TDKEYS then
    let uds := bytesBE 48 s.td.fuses.uds
    let dev := privateKey uds infoDevid
    let cdi := Config.hmac384 uds (bytesBE 48 Config.measurement1 ++ bytesBE 48 s.measure3)
    let alias_ := privateKey (bytesBE 48 cdi) infoAlias
    (s.set1 F.BLK_STAT_TDKEYS).onTd fun t =>
      { t with ident := some (Config.p384Public dev, alias_), fuses := { t.fuses with uds := 0 } }
  else s

/-- The bytes of the certificate window, as long as LEN says. -/
def Blk.certBytes (s : Blk) : List Byte :=
  let n := s.fld F.TD_CERT_CTRL_LEN
  (wordBytes ((List.range ((n + 3) / 4)).map fun i => s.rd (F.TD_CERT_off i))).take n

/-- Whether the unit has an identity (R487). -/
def Blk.identity (s : Blk) : Option (BitVec 768 × BitVec 384) := if s.fld F.TD_LIFE_LIFE = 0 then none else s.td.ident

/-- LOAD of the certificate chain (R489). -/
def Blk.certLoad (s : Blk) : Blk :=
  if s.bit F.TD_CERT_CTRL_OK then s
  else
    let bs := s.certBytes
    match s.identity with
    | some (pub, alias_) =>
      if Config.deviceIdKey bs = some pub then
        (s.set1 F.TD_CERT_CTRL_OK).onTd fun t => { t with chain := some (bs ++ Config.aliasCert pub alias_) }
      else s.raise 4 (some (0x20, 0))
    | none => s.raise 4 (some (0x20, 0))

/-- A write of TD_CERT_CTRL. -/
def Blk.wrCertCtrl (s : Blk) (v : Word) : Blk :=
  let s := s.setFld F.TD_CERT_CTRL_LEN (F.TD_CERT_CTRL_LEN.get v)
  if F.TD_CERT_CTRL_LOAD.get v = 1 then s.certLoad else s

/-- A write of the certificate window. -/
def Blk.wrCert (s : Blk) (i : Nat) (v : Word) : Blk := if s.bit F.TD_CERT_CTRL_OK then s else s.wr (F.TD_CERT_off i) v

/-! ### SPDM (R490, R491) -/

/-- The digests that GET_MEASUREMENTS reports (R491). -/
def Blk.measurement (s : Blk) (i : Nat) : BitVec 384 :=
  match i with
  | 1 => Config.measurement1
  | 2 =>
    (match s.patch with
     | some p =>
       if s.patchState = 4 then Config.sha384 (s.td.payload ++ bytesLE 4 (p.level.setWidth 32)) else Config.sha384 (List.replicate 48 0)
     | none => Config.sha384 (List.replicate 48 0))
  | 3 => s.measure3
  | _ => Config.sha384 [BitVec.ofNat 8 s.td.top.1, BitVec.ofNat 8 s.td.top.2]

/-- A response leaves. -/
def Blk.spdmSend (s : Blk) (r : SpdmRsp) : Blk := s.onTd fun t => { t with spdmTx := t.spdmTx ++ [r] }

/-- A request is answered by `f`: ERROR in BLANK, ERROR Busy while another is in progress (R487, R490). -/
def Blk.spdm (s : Blk) (f : Blk → Blk) : Blk :=
  if s.fld F.TD_LIFE_LIFE = 0 then s.spdmSend (.error .blank)
  else if s.td.spdm.isSome then s.spdmSend (.error .busy)
  else f s

/-- A request whose response is signed (R490, R515). -/
def Blk.spdmSigned (s : Blk) (ok : Bool) (r : SpdmReq) : Blk :=
  if s.td.rbgBad then s.spdmSend (.error .busy)
  else if ok && s.identity.isSome then s.onTd fun t => { t with spdm := some r }
  else s.spdmSend (.error .unspecified)

/-- The measurement blocks of an index: one, all, or, for the index that asks for their number, none (R491). -/
def Blk.blocks (s : Blk) (index : Byte) : Option (List (Nat × BitVec 384)) :=
  if index = 0xFF then some ([1, 2, 3, 4].map fun i => (i, s.measurement i))
  else if index = 0 then some []
  else if index.toNat ≤ 4 then some [(index.toNat, s.measurement index.toNat)]
  else none

/-- The response to a signed request is ready (R490). -/
def Blk.spdmReady (s : Blk) : Blk :=
  match s.td.spdm, s.td.ident with
  | some r, some (_, alias_) =>
    let s := s.onTd fun t => { t with spdm := none }
    if s.td.rbgBad then s.spdmSend (.error .busy)
    else
      let sig := Config.signature alias_ s.td.sigs
      let s := s.onTd fun t => { t with sigs := t.sigs + 1 }
      (match r with
       | .challenge meas nonce =>
         s.spdmSend (.challengeAuth (Config.sha384 (s.td.chain.getD [])) (Config.summary meas ([1, 2, 3, 4].map s.measurement)) nonce sig)
       | .measurements index _ => s.spdmSend (.measurements ((s.blocks index).getD []) (some sig)))
  | _, _ => s

/-- GET_CERTIFICATE (R489, R490). -/
def Blk.spdmCert (s : Blk) (slot off len : Nat) : Blk :=
  match s.td.chain with
  | some c =>
    if slot = 0 ∧ off ≤ c.length then
      let part := (c.drop off).take len
      s.spdmSend (.certificate part (c.length - off - part.length))
    else s.spdmSend (.error .unspecified)
  | none => s.spdmSend (.error .unspecified)

/-! ### Debug authorisation (R494 to R496) -/

/-- A token as the bytes of TD_TOKEN. -/
def Blk.tokenBytes (s : Blk) : List Byte := wordBytes ((List.range 64).map fun i => tget (fun _ => 0) s.td.token i)

/-- What a token grants: level and SRC (R495). -/
def Blk.tokenGrant (s : Blk) : Option (Nat × Nat) :=
  let t := s.tokenBytes
  let level := leAt t 6 1
  let signer := leAt t 7 1
  let nonce := wordBytes ((List.range 12).map fun i => s.rd (F.TD_DBG_NONCE_off i))
  let key := (t.drop 64).take 96
  let sig := BitVec.ofNat 768 (beAt t 160 96)
  let dig := Config.sha384 (t.take 160)
  if t.take 4 == [0x4B, 0x44, 0x42, 0x54] && leAt t 4 2 == 1 && decide (1 ≤ level) && leAt t 8 8 == s.td.fuses.unitid.toNat &&
      (t.drop 16).take 48 == nonce then
    if signer = 0 then
      if key.all (· == 0) && decide (level ≤ 3) && Config.p384Verify Config.vendorDebugKey dig sig then some (level, 1) else none
    else if signer = 1 then
      if s.bit F.TD_LIFE_OWNSET && Config.sha384 key == s.td.fuses.own && decide (level ≤ 2) &&
        Config.p384Verify (BitVec.ofNat 768 (beAt key 0 96)) dig sig then some (level, 2) else none
    else none
  else none

/-- What a password grants (R495). -/
def Blk.passwordGrant (s : Blk) : Option (Nat × Nat) :=
  if s.fld F.TD_LIFE_LIFE = 1 ∧ Config.sha384 (bytesLE 8 s.td.fuses.unitid ++ s.tokenBytes.take 32) = s.td.fuses.pwd then some (3, 3) else none

/-- An attempt starts: ignored in BLANK, in LOCKOUT and while another runs (R495, R496). -/
def Blk.authStart (s : Blk) : Blk :=
  if s.fld F.TD_LIFE_LIFE = 0 ∨ s.bit F.TD_DBG_STAT_LOCKOUT ∨ s.bit F.TD_DBG_CTRL_AUTH then s
  else
    let pw := s.bit F.TD_DBG_CTRL_MODE
    let g := if s.td.rbgBad then none else if pw then s.passwordGrant else s.tokenGrant
    (s.set1 F.TD_DBG_CTRL_AUTH).onTd fun t => { t with auth := some (pw, g) }

/-- An attempt fails (R496). -/
def Blk.authFails (s : Blk) (pw : Bool) : Blk :=
  let s := (s.setFld F.TD_DBG_STAT_RESULT 2).bump F.TD_DBG_STAT_FAILS
  let s := s.raise 2 (some (if pw then 0x03 else 0x02, 0))
  if s.fld F.TD_DBG_STAT_FAILS = 3 then (s.set1 F.TD_DBG_STAT_LOCKOUT).raise 2 (some (0x04, 0)) else s

/-- The attempt ends; it fails too where the health test has failed meanwhile (R494, R496, R515). -/
def Blk.authEnd (s : Blk) (nonce : BitVec 384) : Blk :=
  match s.td.auth with
  | none => s
  | some (pw, g) =>
    let s := ((s.clr1 F.TD_DBG_CTRL_AUTH).onTd fun t => { t with auth := none }).drawNonce nonce
    match g with
    | some (level, src) =>
      if s.td.rbgBad then s.authFails pw else
      let s := ((s.setFld F.TD_DBG_STAT_LEVEL level).setFld F.TD_DBG_STAT_SRC src).setFld F.TD_DBG_STAT_RESULT 1
      let s := s.setFld F.TD_DBG_STAT_FAILS 0
      let s := if s.td.top.1 < level then s.onTd fun t => { t with top := (level, src) } else s
      s.raise 2 (some (0x01, 0))
    | none => s.authFails pw

/-! ### Halts (R503 to R507) -/

/-- TD_HSTATX.DEFER (R506). -/
def Blk.showDefer (s : Blk) : Blk := s.setBit F.TD_HSTATX_DEFER (!s.td.defer.isEmpty || s.td.deferBlk)

/-- Event source 3 for a domain halted (R515). -/
def Blk.haltEvt (s : Blk) : Blk := s.raise 3 (some (0x10, 0))

/-- The locked context of an engine loses LOCK and goes back to its restart point (R327, R506). -/
def Blk.breakLock (s : Blk) (e : Nat) : Blk :=
  match s.locked e with
  | some k => (s.onCtx k fun c => { c.home.unlock with pc := c.lockPc }).raise 3 (some (0x12, e))
  | none => s

/-- The contexts of an engine stop with a halt of their domain, or, while one holds LOCK, the halt is deferred (R506). -/
def Blk.stopEng (s : Blk) (demand : Bool) (e : Nat) : Blk :=
  if (s.locked e).isSome && !demand then (s.onTd fun t => { t with defer := pset t.defer e () }).showDefer
  else
    let s := if demand then s.breakLock e else s
    let s := match s.running e with | some k => s.dispose k | none => s
    ((s.onTd fun t => { t with defer := pdel t.defer e }).showDefer).haltCtxs e

/-- The engines that may hold a context, in order. -/
def allEngines : List Nat := List.range 256
/-- The engines of a bay. -/
def bayEngines (b : Nat) : List Nat := (List.range 8).map (8 * b + ·)

/-- A halt of a logical engine (R503, R505, R506). -/
def Blk.haltEngine (s : Blk) (e : Nat) (force : Bool) : Blk :=
  if s.halted e then s
  else
    let demand := force || (pget s.td.defer e).isSome
    if (s.locked e).isSome && !demand then s.stopEng false e
    else (s.stopEng demand e).set1 (hstatFld e) |>.haltEvt

/-- A halt of a bay. -/
def Blk.haltBay (s : Blk) (b : Nat) (force : Bool) : Blk :=
  if s.blockHalted then s
  else if s.rbit F.TD_HSTATB_off b then
    (bayEngines b).foldl (fun s e => if (pget s.td.defer e).isSome then s.stopEng true e else s) s
  else
    let was := (bayEngines b).filter fun e => !s.halted e
    let s := s.setRbit F.TD_HSTATB_off b true
    ((was.foldl (fun s e => s.stopEng force e) s).bayWatch b).haltEvt

/-- A halt of the block. -/
def Blk.haltBlock (s : Blk) (force : Bool) : Blk :=
  if s.blockHalted then s
  else
    let demand := force || s.td.deferBlk
    let busy := s.ctxs.any fun x => x.2.lock
    if busy && !demand then (s.onTd fun t => { t with deferBlk := true }).showDefer
    else
      let s := allEngines.foldl (fun s e => if s.halted e then s else s.stopEng true e) s
      ((s.onTd fun t => { t with deferBlk := false }).showDefer.set1 F.TD_HSTATX_BLOCK).haltEvt

/-- The deferred halts whose lock was released before this cycle take place (R506). -/
def Blk.deferredHalts (s : Blk) : Blk :=
  let s := s.td.defer.foldl (fun s x =>
    let e := x.1
    if (s.locked e).isSome || s.dawn.locks.any (fun k => k / 8 == e) then s
    else if s.rbit F.TD_HSTATB_off (e / 8) then s.stopEng false e
    else ((s.stopEng false e).set1 (hstatFld e)).haltEvt) s
  if s.td.deferBlk && s.dawn.locks.isEmpty && !s.ctxs.any fun x => x.2.lock then s.haltBlock true else s

/-- Event source 3 for a domain released. -/
def Blk.releaseEvt (s : Blk) : Blk := s.raise 3 (some (0x11, 0))

/-- RELEASE of a logical engine: refused inside a halted bay or block (R507). -/
def Blk.releaseEngine (s : Blk) (e : Nat) : Blk × Bool :=
  if s.blockHalted || s.rbit F.TD_HSTATB_off (e / 8) then (s, false)
  else if s.bit (hstatFld e) then (((s.clr1 (hstatFld e)).resumeCtxs e).releaseEvt, true)
  else (s, true)

/-- RELEASE of a bay. -/
def Blk.releaseBay (s : Blk) (b : Nat) : Blk :=
  if s.rbit F.TD_HSTATB_off b then
    let s := s.setRbit F.TD_HSTATB_off b false
    let s := (s.onTd fun t => { t with defer := t.defer.filter fun x => x.1 / 8 != b }).showDefer
    let s := (bayEngines b).foldl (fun s e => if s.halted e then s else s.resumeCtxs e) s
    let s := { s with bayWd := pset s.bayWd b ((s.bayWdOf b).reload s.now s.bayReload) }
    ((s.stir b).bayWatch b).releaseEvt
  else s

/-- RELEASE of the block: the tracker drifts (R507). -/
def Blk.releaseBlock (s : Blk) : Blk :=
  if s.blockHalted then
    let s := s.clr1 F.TD_HSTATX_BLOCK
    let s : Blk := allEngines.foldl (fun s e => if s.halted e then s else s.resumeCtxs e) s
    let wds := s.bayWd.map fun w => (w.1, w.2.reload s.now s.bayReload)
    let s : Blk := { s with bayWd := wds, blkWd := s.blkWd.reload s.now (s.fld F.EV_BLK_WD_LIMIT * 4096) }
    let s :=
      if s.fld F.SC_TB_STAT_STATE = 0 then s
      else ((s.setFld F.SC_TB_STAT_STATE 3).set1 F.SC_TB_DRIFT_MISS).raise 23 (some (0x03, 0))
    s.releaseEvt
  else s

/-- A halt of a domain enters the matrix (R505). -/
def Blk.askHalt (s : Blk) (d : Domain) (force : Bool) : Blk := s.onTd fun t => { t with asks := t.asks ++ [(d, force)] }

/-- Pulses on cross-trigger channels (R504). -/
def Blk.xtPulse (s : Blk) (cs : List Nat) : Blk := s.onTd fun t => { t with pulses := t.pulses ++ cs }

/-- A BREAK in engine `e`: its halt, and the pulses of R504. -/
def Blk.breakPulse (s : Blk) (e : Nat) : Blk :=
  (s.askHalt (.engine e) false).xtPulse ((List.range 8).filter fun c => s.atDawn.rbit (F.TD_XT_BRK_off c) (e / 8))

/-- Whether a halt asked for in this cycle is a demand by its FORCE (R506). -/
def Blk.forced (s : Blk) (d : Domain) : Bool := s.td.asks.contains (d, true)

/-- The halts of a cycle take effect at its end, each domain once (R504, R505). -/
def Blk.haltsDue (s : Blk) : Blk :=
  if s.td.asks.isEmpty && s.td.pulses.isEmpty then s
  else
    let t := (allEngines.filter fun e => s.triggers (.engine e)).foldl (fun t e => t.haltEngine e (s.forced (.engine e))) s
    let t := ((List.range 32).filter fun b => s.triggers (.bay b)).foldl (fun t b => t.haltBay b (s.forced (.bay b))) t
    let t := if s.triggers .block then t.haltBlock (s.forced .block) else t
    t.onTd fun x => { x with asks := [], pulses := [] }

/-- DROP (R497); a STEP in progress ends with its release (log 173). -/
def Blk.debugDrop (s : Blk) : Blk :=
  let s := s.releaseBlock
  let s := (List.range 32).foldl (fun s b => s.releaseBay b) s
  let s := allEngines.foldl (fun s e => (s.releaseEngine e).1) s
  let s := if s.td.step.isSome then s.monEnd 0 [] else s
  let s := (s.onTd fun t => { t with defer := [], deferBlk := false, asks := [], pulses := [], step := none }).showDefer
  let s := s.td.brk.foldl (fun s x =>
    let f := F.CS_MATCH_ADDR_EN (x.1 / 64) (x.1 % 64)
    if s.bit (F.CS_MATCH_ADDR_KIND (x.1 / 64) (x.1 % 64)) then s.clr1 f else s) s
  let s := s.onTd fun t => { t with brk := [] }
  let s := (List.range 8).foldl (fun s c =>
    let s := (List.range 8).foldl (fun s i => s.wr (F.TD_XT_ENG_off c i) 0) s
    ((s.wr (F.TD_XT_BAY_off c) 0).wr (F.TD_XT_CTL_off c) 0).wr (F.TD_XT_BRK_off c) 0) s
  s.setFld F.TD_DBG_STAT_LEVEL 0

/-- A write of TD_DBG_CTRL (R495, R497). -/
def Blk.wrDbgCtrl (s : Blk) (v : Word) : Blk :=
  let s := s.setFld F.TD_DBG_CTRL_MODE (F.TD_DBG_CTRL_MODE.get v)
  let s := if F.TD_DBG_CTRL_DROP.get v = 1 then s.debugDrop else s
  if F.TD_DBG_CTRL_AUTH.get v = 1 then s.authStart else s

/-- A write of the token window (R494). -/
def Blk.wrToken (s : Blk) (i : Nat) (v : Word) : Blk := s.onTd fun t => { t with token := tset (fun _ => 0) t.token i v }

/-! ### The monitor's door and answers (R498, R500) -/

/-- A write of TD_MON_DOOR; an undefined code ends at once (R498, R500). -/
def Blk.wrMonDoor (s : Blk) (v : Word) : Blk :=
  if s.bit F.TD_MON_STAT_BUSY then s.hwSet F.TD_MON_STAT_DOORREF
  else
    let s := (s.set1 F.TD_MON_STAT_BUSY).onTd fun t => { t with seq := v.setWidth 8 }
    if 0x0D < (s.rd (F.TD_MON_CMD_off 0)).toNat % 256 then s.monEnd 6 [] else s

end Sys2Proof.Machine
end

