-- ==== Sys2Proof/Machine/Tick.lean ====
section
/-! DEFINITION. Passing time: what falls at the end of a cycle (R440), what falls due in later ones, and the forms of the commands that are
events in time. -/

namespace Sys2Proof.Machine

/-- Silence of the partner, messages and pulses (R177). -/
def Blk.twinSilent (s : Blk) : Blk := if s.watches && s.noHb && s.noMsg then s.holdSuspect 1 else s
/-- Sixteen slots without a message while pulses arrive (R178). -/
def Blk.linkSilent (s : Blk) : Blk := if s.watches && s.noMsg && !s.noHb then s.linkLoss else s
/-- LOSS cycles have passed without an accepted edge (R46, R572). -/
def Blk.tbSilent (s : Blk) : Blk :=
  if s.tbCounts && decide (s.lossNow ≤ s.now - s.tb.lossFrom) then s.enterHoldover else s

/-- An expiry takes effect where its condition still holds. -/
def Blk.duskOne (s : Blk) : Dusk → Blk
  | .ctxWd k => s.ctxWdOut k
  | .engWd b x => s.engWdOut b x
  | .bayWd b => s.bayWdOut b
  | .blkWd => s.blkWdOut
  | .txn p i => s.expire p i
  | .txnFail p i => s.txnFails p i
  | .silence => s.twinSilent
  | .msgSilence => s.linkSilent
  | .freeze => s.freezeOut
  | .socket k => s.socketOut k
  | .loss => s.tbSilent
  | .xclaim b n v => s.xbufClaim b n v
  | .offers => s.assign

/-- The end of a cycle: the expiries seen in it, then the decisions of the host ports (R96, R99) and the halts
triggered in the cycle (R504, R505). -/
def Blk.cycleEnd (s : Blk) : Blk :=
  if s.live then (((s.dusk.foldl Blk.duskOne { s with dusk := [] }).decideAll).settle).haltsDue else { s with dusk := [] }

/-- What falls due in the cycles since the last command: answers, moves, grants of bay memory, a patch activation. -/
def Blk.falls (s : Blk) : Blk := if s.live then ((s.ripen.movesDue).grantsDue.patchDue).settle else s

/-- A cycle begins. -/
def Blk.dawns (s : Blk) : Blk :=
  { s with dawn := ⟨s.tb, s.regs, s.sched.badParity, s.ev, s.idle, (s.ctxs.filter fun x => x.2.lock).map (·.1)⟩ }

/-- `n + 1` CLK_B cycles pass, and what falls due in them takes effect; a block that a halt of the first of them stops counts no other (R503). -/
def Blk.elapse (s : Blk) (n : Nat) : Blk :=
  let s := s.cycleEnd
  if s.blockHalted then { s with now := s.now + 1 }.dawns
  else (((({ s with now := s.now + (n + 1) }).falls).lossDue).speedDue).evDue.dawns

/-- `dt` CLK_B cycles pass; a halted block counts none (R503, R532). -/
def Blk.pass (s : Blk) (dt : Nat) : Blk :=
  match dt with
  | 0 => s
  | n + 1 => if s.blockHalted then { s with fresh := ⟨s.now, [], [], []⟩ }.haltsDue.dawns else s.elapse n

/-- The same for the whole machine: port B of the bay memories serves its agents meanwhile (R411). -/
def State.pass (s : State) (dt : Nat) : State :=
  let s := s.portBFor dt
  { s with blk := s.blk.pass dt }

/-- An event `dt` cycles from now: its effect on the block, where events take place. -/
def State.run (s : State) (dt : Nat) (f : Blk → Blk) : Host.Outcome State Fault Refusal :=
  let t := s.pass dt
  .next { t with blk := if t.blk.live then f t.blk else t.blk }

/-- The same for an event that reaches bay memory. -/
def State.runM (s : State) (dt : Nat) (f : State → State) : Host.Outcome State Fault Refusal :=
  let t := s.pass dt
  .next (if t.blk.live then f t else t)

/-- The same for an event after which the line accesses settle. -/
def State.line (s : State) (dt : Nat) (f : Blk → Blk) : Host.Outcome State Fault Refusal := s.run dt fun k => (f k).settle

/-- An event of the Trust and Debug Unit, which no halt stops (R503). -/
def State.trust (s : State) (dt : Nat) (f : State → State) : Host.Outcome State Fault Refusal :=
  let t := s.pass dt
  .next (if t.blk.phase = .running then f t else t)

end Sys2Proof.Machine
end

