-- ==== Sys2Proof/Machine/AccessRows.lean ====
section
/-! DEFINITION. The commands of pool-window accesses and of the data mover (08). -/

namespace Sys2Proof.Machine

/-- POOL_WINDOW_COMPLETE (R283). -/
def execPoolWindowComplete (dt k : Nat) (s : State) : Host.Outcome State Fault Refusal := s.runM dt fun s => s.poolDone k
/-- DATA_MOVER_COMPLETE (R293). -/
def execDataMoverComplete (dt k : Nat) (s : State) : Host.Outcome State Fault Refusal := s.runM dt fun s => s.dmComplete k
/-- DEFERRED_POOL_DATA (R334). -/
def execDeferredPoolData (dt : Nat) (c : CtxRef) (s : State) : Host.Outcome State Fault Refusal := s.runM dt fun s => s.deferred (ctxKey c)

end Sys2Proof.Machine
end

