-- ==== Sys2Proof/Machine/BayMemRows.lean ====
section
/-! DEFINITION. The commands of bay memory (13). -/

namespace Sys2Proof.Machine

/-- A port-B agent asks for a line transfer (R411). -/
def Blk.portBAsk (s : Blk) (b agent : Nat) (x : Option (Bool × BitVec 10 × Line)) : Blk :=
  match x with
  | some (wr, l, d) => { s with xfer := s.xfer ++ [(b, ⟨agent, wr, l.toNat, d, 0, false, false⟩)] }
  | none => s

/-- XBUF_OWN_WRITE (R412); a port-B agent's is made by hardware. -/
def execXbufOwnWrite (q : XbufBy) (bay : Bay) (n : Fin 64) (v : Word) (s : State) : Host.Outcome State Fault Refusal :=
  match q with
  | .window req => s.reg fun k => k.gated req (F.BM_XBUF_OWN_off bay n) fun k => k.wrXbufOwn bay n v
  | .portB dt agent x => s.run dt fun k => (k.wrXbufOwn bay n v).portBAsk bay agent x

/-- BM_CORRECTION_WRITEBACK (R416). -/
def execBmCorrectionWriteback (dt : Nat) (bay : Bay) (w : BitVec 19) (s : State) : Host.Outcome State Fault Refusal :=
  s.run dt fun k => k.bmWriteback bay w.toNat

/-- BIST_START (R419). -/
def execBistStart (req : Req) (bay : Bay) (v : Word) (s : State) : Host.Outcome State Fault Refusal :=
  s.regM fun s => s.gatedM req (F.BM_CTRL_off bay) fun s => s.wrBmCtrl bay (force (F.BM_CTRL_BIST bay) v 1)

/-- BIST_COMPLETE (R420). -/
def execBistComplete (dt : Nat) (bay : Bay) (bad : List (Fin 5 × Fin 44)) (s : State) : Host.Outcome State Fault Refusal :=
  s.runM dt fun s => s.bistEnd bay (bad.map fun c => (c.1.val, c.2.val))

/-- CLEARING_COMPLETE (R421). -/
def execClearingComplete (dt : Nat) (bay : Bay) (s : State) : Host.Outcome State Fault Refusal := s.runM dt fun s => s.clearEnd bay

/-- MEMORY_OFF (R422). -/
def execMemoryOff (req : Req) (bay : Bay) (v : Word) (s : State) : Host.Outcome State Fault Refusal :=
  s.regM fun s => s.gatedM req (F.BM_CTRL_off bay) fun s => s.wrBmCtrl bay (force (F.BM_CTRL_OFF bay) v 1)

/-- MEMORY_WAKE (R422). -/
def execMemoryWake (req : Req) (bay : Bay) (v : Word) (s : State) : Host.Outcome State Fault Refusal :=
  s.regM fun s => s.gatedM req (F.BM_CTRL_off bay) fun s => s.wrBmCtrl bay (force (F.BM_CTRL_OFF bay) v 0)

end Sys2Proof.Machine
end

