-- ==== Sys2Proof/Machine/Boot.lean ====
section
/-! DEFINITION. The ROM boot program (R560, R561) and the management port's common command codes (R470). -/

namespace Sys2Proof.Machine

/-! ### The boot program -/

/-- The line address of the image's line `i` (R560). -/
def Blk.bootAddr (s : Blk) (i : Nat) : PAddr :=
  let a := (s.rd (F.BLK_SCRATCH_off 1)).setWidth 16 ++ (s.rd (F.BLK_SCRATCH_off 0)).extractLsb' 6 26 ++ (0 : BitVec 6)
  a + BitVec.ofNat 48 (64 * i)

/-- Whether the boot program of a bay runs: context 0 of the supervisor's engine, where it executes (R561). -/
def Blk.booting (s : Blk) (b : Nat) : Bool :=
  let k := s.supervisor b
  s.executes (k / 8) && ((s.ctx k).st == .run || (s.ctx k).st == .ready) && !(pget s.boots b).any (·.ended)

/-- The boot program ends with the copy that failed (R561). -/
def Blk.bootFail (s : Blk) (b : Nat) (r : BootRun) : Blk :=
  let k := s.supervisor b
  let s := { s with boots := pset s.boots b { r with busy := false, ended := true } }
  (s.eaEvt k 0x0F).leave k .idle none

/-- BLK_SCRATCH3 is read: without MAGIC again 1024 cycles later; a descriptor out of range fails; else the lines are asked for (R560, R561). -/
def Blk.bootPoll (s : Blk) (b : Nat) : Blk :=
  let due := match pget s.boots b with | some r => !r.busy && decide (r.at_ + 1024 ≤ s.now) | none => true
  if !s.booting b || !due then s
  else
    let w3 := s.rd (F.BLK_SCRATCH_off 3)
    let r : BootRun := { at_ := s.now, lines := (s.rd (F.BLK_SCRATCH_off 1)).toNat / 2 ^ 16, sum := s.rd (F.BLK_SCRATCH_off 2),
                         cb := w3.extractLsb' 16 8, pc := w3.setWidth 16, busy := false, ended := false }
    if w3.toNat / 2 ^ 24 ≠ 0xB0 then { s with boots := pset s.boots b r }
    else if r.lines = 0 ∨ 14336 < r.lines ∨ 6 < r.cb.toNat then s.bootFail b r
    else
      let s := { s with boots := pset s.boots b { r with busy := true } }
      ((List.range r.lines).foldl (fun s i => s.moverJob (.boot b i) .rd (s.bootAddr i) 2 0 0 false) s).settle

/-- The outcomes of the lines copied, none while one is awaited. -/
def Blk.bootOuts (s : Blk) (b : Nat) : Nat → Option (List JobOut)
  | 0 => some []
  | n + 1 =>
    match s.bootOuts b n, s.gotOf (.boot b n) with
    | some l, some r => some (l ++ [r])
    | _, _ => none

/-- The copy ends: the image lies in bay memory from word 0, SUM is checked, the context continues at {CB, PC} or ends (R561). -/
def State.bootDone (s : State) (b : Nat) : State :=
  match pget s.blk.boots b with
  | none => s
  | some r =>
    if !r.busy || !s.blk.booting b || !s.blk.moverRuns b then s
    else
      match s.blk.bootOuts b r.lines with
      | none => s
      | some l =>
        let s := s.dmPut b 0 0 l
        let got := s.blk.got.filter fun x => match x.1 with | .boot j _ => j != b | _ => true
        let s := { s with blk := { s.blk with got := got } }
        let bytes := l.flatMap fun o => bytesLE 64 ((goodLine o).getD 0)
        if (l.any fun o => (goodLine o).isNone) || crc32c bytes != r.sum then { s with blk := s.blk.bootFail b r }
        else
          let k := s.blk.supervisor b
          let x := { s.blk with boots := pset s.blk.boots b { r with busy := false, ended := true } }
          { s with blk := x.onCtx k fun c => { c with cb := r.cb, pc := r.pc } }

/-- BOOT_DESCRIPTOR_POLL (R560). -/
def execBootDescriptorPoll (dt : Nat) (bay : Bay) (s : State) : Host.Outcome State Fault Refusal := s.run dt fun b => b.bootPoll bay
/-- BOOT_IMAGE_COPY_COMPLETE (R561). -/
def execBootImageCopyComplete (dt : Nat) (bay : Bay) (s : State) : Host.Outcome State Fault Refusal := s.runM dt fun s => s.bootDone bay

/-! ### Common command codes -/

/-- The static address of the management port (R470). -/
def Blk.mgtStatic (s : Blk) : BitVec 7 := if s.bit F.TW_STAT_SIDE then 0x3D else 0x3C

/-- A read CCC, answered at the dynamic address alone. -/
def Blk.cccGet (s : Blk) (addr : BitVec 7) (v : BitVec 64) : Blk :=
  { s with i3c := { s.i3c with tx := s.i3c.tx ++ [if s.i3c.dyn = some addr then some v else none] } }

/-- A common command code (R470): ENTDAA gives a port without a dynamic address one; SETDASA the port at its static address; RSTDAA takes it;
every code that the port does not answer is ignored. -/
def Blk.ccc (s : Blk) (c : I3cCcc) : Blk :=
  match c with
  | .entdaa d => if s.i3c.dyn.isNone then { s with i3c := { s.i3c with dyn := some d } } else s
  | .setdasa a d => if s.i3c.dyn.isNone ∧ a = s.mgtStatic then { s with i3c := { s.i3c with dyn := some d } } else s
  | .rstdaa => { s with i3c := { s.i3c with dyn := none } }
  | .getpid a => s.cccGet a (Config.i3cPid.setWidth 64)
  | .getbcr a => s.cccGet a (Config.i3cBcr.setWidth 64)
  | .getdcr a => s.cccGet a (Config.i3cDcr.setWidth 64)
  | .getstatus a => s.cccGet a ((Config.i3cStatus s.i3c.tx.length).setWidth 64)
  | .getmwl a => s.cccGet a (Config.i3cMwl.setWidth 64)
  | .getmrl a => s.cccGet a (Config.i3cMrl.setWidth 64)
  | .other _ => { s with i3c := { s.i3c with tx := s.i3c.tx ++ [none] } }

/-- CCC (R470). -/
def execCcc (dt : Nat) (c : I3cCcc) (s : State) : Host.Outcome State Fault Refusal :=
  s.trust dt fun s => { s with blk := s.blk.ccc c }

end Sys2Proof.Machine
end

