-- ==== Sys2Proof/Machine/CoprocRows.lean ====
section
/-! DEFINITION. The commands of the coprocessor ports (12). -/

namespace Sys2Proof.Machine

/-- COPROCESSOR_RESULT (R388). -/
def execCoprocessorResult (dt k : Nat) (ans : BitVec 64) (flags : BitVec 5) (par : Bool) (s : State) : Host.Outcome State Fault Refusal :=
  s.run dt fun b => b.copDone k ans flags par
/-- SOCKET_TIMEOUT (R401). -/
def execSocketTimeout (dt k : Nat) (s : State) : Host.Outcome State Fault Refusal := s.run dt fun b => b.atDusk (.socket k)

/-- MULU16 (R392). -/
def execZMulu16 (c : CtxRef) (f : ZFmt) (s : State) : Host.Outcome State Fault Refusal :=
  s.copInstr c f fun u fn => u == 0 && fn == 0

/-- MULS16 (R392). -/
def execZMuls16 (c : CtxRef) (f : ZFmt) (s : State) : Host.Outcome State Fault Refusal :=
  s.copInstr c f fun u fn => u == 0 && fn == 1

/-- MULU32 (R392). -/
def execZMulu32 (c : CtxRef) (f : ZFmt) (s : State) : Host.Outcome State Fault Refusal :=
  s.copInstr c f fun u fn => u == 0 && fn == 2

/-- MULS32 (R392). -/
def execZMuls32 (c : CtxRef) (f : ZFmt) (s : State) : Host.Outcome State Fault Refusal :=
  s.copInstr c f fun u fn => u == 0 && fn == 3

/-- DIVU16 (R393). -/
def execZDivu16 (c : CtxRef) (f : ZFmt) (s : State) : Host.Outcome State Fault Refusal :=
  s.copInstr c f fun u fn => u == 0 && fn == 8

/-- DIVS16 (R393). -/
def execZDivs16 (c : CtxRef) (f : ZFmt) (s : State) : Host.Outcome State Fault Refusal :=
  s.copInstr c f fun u fn => u == 0 && fn == 9

/-- DIVU32 (R393). -/
def execZDivu32 (c : CtxRef) (f : ZFmt) (s : State) : Host.Outcome State Fault Refusal :=
  s.copInstr c f fun u fn => u == 0 && fn == 10

/-- DIVS32 (R393). -/
def execZDivs32 (c : CtxRef) (f : ZFmt) (s : State) : Host.Outcome State Fault Refusal :=
  s.copInstr c f fun u fn => u == 0 && fn == 11

/-- FADD, in binary32 and binary64 (R396). -/
def execZFadd (c : CtxRef) (f : ZFmt) (s : State) : Host.Outcome State Fault Refusal :=
  s.copInstr c f fun u fn => (u == 1 || u == 2) && fn == 0

/-- FSUB, in binary32 and binary64 (R396). -/
def execZFsub (c : CtxRef) (f : ZFmt) (s : State) : Host.Outcome State Fault Refusal :=
  s.copInstr c f fun u fn => (u == 1 || u == 2) && fn == 1

/-- FMUL, in binary32 and binary64 (R396). -/
def execZFmul (c : CtxRef) (f : ZFmt) (s : State) : Host.Outcome State Fault Refusal :=
  s.copInstr c f fun u fn => (u == 1 || u == 2) && fn == 2

/-- FDIV, in binary32 and binary64 (R396). -/
def execZFdiv (c : CtxRef) (f : ZFmt) (s : State) : Host.Outcome State Fault Refusal :=
  s.copInstr c f fun u fn => (u == 1 || u == 2) && fn == 3

/-- FCMP, in binary32 and binary64 (R397). -/
def execZFcmp (c : CtxRef) (f : ZFmt) (s : State) : Host.Outcome State Fault Refusal :=
  s.copInstr c f fun u fn => (u == 1 || u == 2) && fn == 4

/-- FMIN, in binary32 and binary64 (R397). -/
def execZFmin (c : CtxRef) (f : ZFmt) (s : State) : Host.Outcome State Fault Refusal :=
  s.copInstr c f fun u fn => (u == 1 || u == 2) && fn == 5

/-- FMAX, in binary32 and binary64 (R397). -/
def execZFmax (c : CtxRef) (f : ZFmt) (s : State) : Host.Outcome State Fault Refusal :=
  s.copInstr c f fun u fn => (u == 1 || u == 2) && fn == 6

/-- FCVT.D.S (R398). -/
def execZFcvtDS (c : CtxRef) (f : ZFmt) (s : State) : Host.Outcome State Fault Refusal :=
  s.copInstr c f fun u fn => u == 3 && fn == 0

/-- FCVT.S.D (R398). -/
def execZFcvtSD (c : CtxRef) (f : ZFmt) (s : State) : Host.Outcome State Fault Refusal :=
  s.copInstr c f fun u fn => u == 3 && fn == 1

/-- FCVT.D.W (R398). -/
def execZFcvtDW (c : CtxRef) (f : ZFmt) (s : State) : Host.Outcome State Fault Refusal :=
  s.copInstr c f fun u fn => u == 3 && fn == 2

/-- FCVT.W.D (R398). -/
def execZFcvtWD (c : CtxRef) (f : ZFmt) (s : State) : Host.Outcome State Fault Refusal :=
  s.copInstr c f fun u fn => u == 3 && fn == 3

/-- An operation of a socket (R400). -/
def execZSocketOp (c : CtxRef) (f : ZFmt) (s : State) : Host.Outcome State Fault Refusal :=
  s.copInstr c f fun u fn => decide (4 ≤ u) && decide (fn < 32)

end Sys2Proof.Machine
end

