-- ==== Sys2Proof/Machine/EngineRows.lean ====
section
/-! DEFINITION. The commands of engines, moves, bays and watchdogs (06, 14). -/

namespace Sys2Proof.Machine

/-- INTERRUPT_ENTRY (R209). -/
def execInterruptEntry (dt : Nat) (c : CtxRef) (s : State) : Host.Outcome State Fault Refusal := s.runM dt fun s => s.irqEntry (ctxKey c)
/-- MOVE_COMPLETE (R217, R219). -/
def execMoveComplete (dt : Nat) (bay : Bay) (bad : Bool) (regs : List (Fin 8)) (s : State) : Host.Outcome State Fault Refusal :=
  s.run dt fun b => b.moveEnd bay bad regs
/-- ENGINE_RETIRE (R216). -/
def execEngineRetire (req : Req) (bay : Bay) (e : Fin 9) (v : Word) (s : State) : Host.Outcome State Fault Refusal :=
  s.reg fun b => b.gated req (F.EA_ENG_CTRL_off bay e) fun b => b.wrEngCtrl bay e (force (F.EA_ENG_CTRL_RETIRE bay e) v 1)
/-- ERROR_INJECT (R224). -/
def execErrorInject (req : Req) (bay : Bay) (e : Fin 9) (v : Word) (s : State) : Host.Outcome State Fault Refusal :=
  s.reg fun b => b.gated req (F.EA_ENG_CTRL_off bay e) fun b => b.wrEngCtrl bay e (force (F.EA_ENG_CTRL_INJ bay e) v 1)
/-- PLANNED_SWAP_ARM (R222). -/
def execPlannedSwapArm (req : Req) (bay : Bay) (v : Word) (s : State) : Host.Outcome State Fault Refusal :=
  s.reg fun b => b.gated req (F.EA_SWAP_off bay) fun b => b.wrSwap bay (force (F.EA_SWAP_ARM bay) v 1)
/-- LIRQ_SET (R224). -/
def execLirqSet (req : Req) (bay : Bay) (e : Fin 9) (n : Fin 8) (v : Word) (s : State) : Host.Outcome State Fault Refusal :=
  s.reg fun b => b.gated req (F.EA_CTX_LIRQ_off bay e n) fun b => b.wrLirq bay e n v
/-- BAY_ENABLE (R240). -/
def execBayEnable (req : Req) (bay : Bay) (v : Word) (s : State) : Host.Outcome State Fault Refusal :=
  s.reg fun b => b.gated req (F.EA_BAY_CTRL_off bay) fun b => b.wrBayCtrl bay v
/-- CONTEXT_TIMER_EXPIRY (R252). -/
def execContextTimerExpiry (dt : Nat) (c : CtxRef) (s : State) : Host.Outcome State Fault Refusal := s.run dt fun b => b.timerOut (ctxKey c)

/-- CONTEXT_WATCHDOG_EXPIRY (R442). -/
def execContextWatchdogExpiry (dt : Nat) (c : CtxRef) (s : State) : Host.Outcome State Fault Refusal := s.run dt fun b => b.atDusk (.ctxWd (ctxKey c))
/-- ENGINE_WATCHDOG_EXPIRY (R443). -/
def execEngineWatchdogExpiry (dt : Nat) (bay : Bay) (e : Fin 9) (s : State) : Host.Outcome State Fault Refusal := s.run dt fun b => b.atDusk (.engWd bay e)
/-- BAY_WATCHDOG_EXPIRY (R444). -/
def execBayWatchdogExpiry (dt : Nat) (bay : Bay) (s : State) : Host.Outcome State Fault Refusal := s.run dt fun b => b.atDusk (.bayWd bay)
/-- BLOCK_WATCHDOG_EXPIRY (R445). -/
def execBlockWatchdogExpiry (dt : Nat) (s : State) : Host.Outcome State Fault Refusal := s.run dt fun b => b.atDusk .blkWd
/-- BAY_WATCHDOG_KICK (R445). -/
def execBayWatchdogKick (req : Req) (bay : Bay) (v : Word) (s : State) : Host.Outcome State Fault Refusal :=
  s.reg fun b => b.gated req (F.EV_BWD_KICK_off bay) fun b => b.wrBwdKick bay v
/-- BLOCK_WATCHDOG_KICK (R445). -/
def execBlockWatchdogKick (req : Req) (v : Word) (s : State) : Host.Outcome State Fault Refusal :=
  s.reg fun b => b.gated req F.EV_BLK_KICK_off fun b => b.wrBlkKick v
/-- BLOCK_WATCHDOG_ARM (R445). -/
def execBlockWatchdogArm (req : Req) (v : Word) (s : State) : Host.Outcome State Fault Refusal :=
  s.reg fun b => b.gated req F.EV_BLK_WD_off fun b => b.wrBlkWd (force F.EV_BLK_WD_ARM v 1)

/-- EV_BAYCLK_WRITE (R439). -/
def execEvBayclkWrite (req : Req) (v : Word) (s : State) : Host.Outcome State Fault Refusal :=
  s.reg fun b => b.gated req F.EV_BAYCLK_off fun b => b.wrBayclk v
/-- BAY_CLOCK_STOP (R437). -/
def execBayClockStop (dt : Nat) (bay : Bay) (s : State) : Host.Outcome State Fault Refusal := s.run dt fun b => b.bayStops bay
/-- BAY_CLOCK_WAKE (R438). -/
def execBayClockWake (dt : Nat) (bay : Bay) (s : State) : Host.Outcome State Fault Refusal := s.run dt fun b => b.bayWakes bay

end Sys2Proof.Machine
end

