-- ==== Sys2Proof/Machine/EventRows.lean ====
section
/-! DEFINITION. The commands of the Event Controller (14). -/

namespace Sys2Proof.Machine

/-- OFFER_ASSIGN (R431, R452): the new offers take effect at the end of the cycle. -/
def execOfferAssign (dt : Nat) (bad : List (Fin 250 × Fin 3)) (s : State) : Host.Outcome State Fault Refusal :=
  s.run dt fun k => (bad.foldl (fun k x => k.evParity x.1 x.2) k).atDusk .offers

/-- OFFER_RELEASE (R435). -/
def execOfferRelease (dt : Nat) (t : Fin 34) (s : State) : Host.Outcome State Fault Refusal :=
  s.run dt fun k => k.releaseNow t

/-- EVENT_CLAIM (R432): a normal read of EV_CLAIM. -/
def execEventClaim (req : Req) (t : Fin 34) (s : State) : Host.Outcome State Fault Refusal :=
  s.reg fun k => let r := k.claim t; { r.1 with winRsp := some ⟨req, r.2, false⟩ }

/-- EVENT_DONE (R433). -/
def execEventDone (req : Req) (t : Fin 34) (v : Word) (s : State) : Host.Outcome State Fault Refusal :=
  s.reg fun k => k.gated req (F.EV_DONE_off t) fun k => k.complete t (F.EV_DONE_SOURCE t |>.get v)

/-- FREEZE_START (R430). -/
def execFreezeStart (req : Req) (v : Word) (s : State) : Host.Outcome State Fault Refusal :=
  s.reg fun k => k.gated req F.EV_FRZ_off fun k => k.wrEvFrz (force F.EV_FRZ_FRZ v 1)

/-- FREEZE_END (R430). -/
def execFreezeEnd (req : Req) (v : Word) (s : State) : Host.Outcome State Fault Refusal :=
  s.reg fun k => k.gated req F.EV_FRZ_off fun k => k.wrEvFrz (force F.EV_FRZ_FRZ v 0)

/-- FREEZE_TIMEOUT (R430): at the end of the cycle, unless the owner has ended the freeze in it (R440). -/
def execFreezeTimeout (dt : Nat) (s : State) : Host.Outcome State Fault Refusal := s.run dt fun k => k.atDusk .freeze

/-- EV_PEND_MASK_WRITE (R429). -/
def execEvPendMaskWrite (req : Req) (mask : Bool) (n : Fin 8) (v : Word) (s : State) :
    Host.Outcome State Fault Refusal :=
  s.reg fun k => k.gated req (if mask then F.EV_MASK_off n else F.EV_PEND_off n) fun k => k.wrPendMask mask n v

end Sys2Proof.Machine
end

