-- ==== Sys2Proof/Machine/PinEngine.lean ====
section
/-! DEFINITION. The pin engines, their shared flags and the pads (15, R453 to R474). -/

namespace Sys2Proof.Machine

/-! ### State of an engine -/

/-- Pin engine `n`. -/
def Blk.pe (s : Blk) (n : Nat) : PinEng := tget (fun _ => PinEng.reset) s.pes n
/-- Pin engine `n` takes a state. -/
def Blk.setPe (s : Blk) (n : Nat) (p : PinEng) : Blk := { s with pes := tset (fun _ => PinEng.reset) s.pes n p }
/-- ERR_INFO of the pin engines: engine, pad, flag (R474). -/
def peInfo (n pad flag : Nat) : Nat := n + pad * 2 ^ 8 + flag * 2 ^ 16

/-- Word `k` of an engine's program memory (R472). -/
abbrev peProgOff (n k : Nat) : Nat := 0x4800 + 0x40 * n + 4 * k
/-- The instruction at a program counter (R472). -/
def Blk.peFetch (s : Blk) (n pc : Nat) : Half := (s.rd (peProgOff n (pc / 2))).extractLsb' (16 * (pc % 2)) 16

/-- FRAME of an engine, 0 counting as 32 (R459). -/
def Blk.peFrame (s : Blk) (n : Nat) : Nat :=
  let f := s.fld (F.SB_PE_CFG_FRAME n)
  if f = 0 then 32 else f

/-! ### Shared flags (R463) -/

/-- The flags after the operations of the cycle. -/
def PinFlags.now (f : PinFlags) : Half := f.set ||| (~~~f.clr &&& (f.base ^^^ f.inv))
/-- The flags at the beginning of pin-engine cycle `c`. -/
def PinFlags.roll (f : PinFlags) (c : Nat) : PinFlags := if f.cyc = c then f else { base := f.now, cyc := c, set := 0, clr := 0, inv := 0 }
/-- The flags that an instruction reads in this pin-engine cycle. -/
def Blk.peFlag (s : Blk) (i : Nat) : Bool := (s.peFlags.roll (s.now / 4)).base.getLsbD i
/-- Operations on the flags in this pin-engine cycle. -/
def Blk.flagOps (s : Blk) (st cl iv : Half) : Blk :=
  let f := s.peFlags.roll (s.now / 4)
  { s with peFlags := { f with set := f.set ||| st, clr := f.clr ||| cl, inv := f.inv ^^^ iv } }

/-! ### The window of pads (R457, R466) -/

/-- The pad that a window index names. -/
def Blk.winPad (s : Blk) (n i : Nat) : Option Nat :=
  if i < s.fld (F.SB_PE_PINS_PWID n) then some ((s.fld (F.SB_PE_PINS_PBASE n) + i) % 128) else none
/-- The level that an engine reads at a window index. -/
def Blk.padRead (s : Blk) (n i : Nat) : Bool :=
  match s.winPad n i with
  | some p => s.pins.padIn.getLsbD p
  | none => false
/-- The pads of the window as a word. -/
def Blk.padWord (s : Blk) (n : Nat) : Word :=
  (List.range 16).foldl (fun w i => if s.padRead n i then w ||| (1 <<< i) else w) 0
/-- A bit of a set of pads takes a value. -/
def padBit (v : BitVec 128) (p : Nat) (b : Bool) : BitVec 128 := if b then v ||| (1#128 <<< p) else v &&& ~~~(1#128 <<< p)
/-- An engine writes the output, or with `dir` the direction, of the pad at a window index. -/
def Blk.padWrite (s : Blk) (n i : Nat) (dir b : Bool) : Blk :=
  match s.winPad n i with
  | some p =>
    if s.fld (F.SB_PAD_OWN_KIND p) = 1 ∧ s.fld (F.SB_PAD_OWN_ID p) = n then
      if dir then { s with pins := { s.pins with dir := padBit s.pins.dir p b } }
      else { s with pins := { s.pins with out := padBit s.pins.out p b } }
    else s
  | none => s
/-- The level that the block drives on a pad, none where it is released (R466). -/
def Blk.padDrive (s : Blk) (p : Nat) : Option Bool :=
  let own := s.fld (F.SB_PAD_OWN_KIND p)
  let (o, e) := if own = 1 then (s.pins.out.getLsbD p, s.pins.dir.getLsbD p)
    else if own = 2 then (s.bit (F.SB_PAD_OWN_OUT p), s.bit (F.SB_PAD_OWN_OE p)) else (false, false)
  if !e || (o && s.bit (F.SB_PAD_OWN_OD p)) then none else some o

/-! ### The shift register (R458) -/

/-- The bit that leaves the shift register as the `k`-th of a transfer. -/
def srOut (left : Bool) (v : Word) (k : Nat) : Bool := if left then v.getLsbD (31 - k) else v.getLsbD k
/-- The register after one place, with the bit that enters. -/
def srStep (left : Bool) (v : Word) (b : Bool) : Word :=
  let e : Word := if b then 1 else 0
  if left then (v <<< 1) ||| e else (v >>> 1) ||| (e <<< 31)
/-- The register after `n` places, the bits of `src` entering from its index 0 upward. -/
def srIn (left : Bool) (v : Word) (n : Nat) (src : Nat → Bool) : Word :=
  (List.range n).foldl (fun v k => srStep left v (src k)) v

/-! ### Instructions (R456 to R460) -/

/-- How the execution of an instruction ends. -/
inductive PeEnd where
  | done
  | goto (pc : Nat)
  | stall
  | illegal
  | stop
  deriving DecidableEq, Repr

/-- A field of an instruction. -/
def peF (i : Half) (lo w : Nat) : Nat := i.toNat / 2 ^ lo % 2 ^ w
/-- A one-bit field of an instruction. -/
def peB (i : Half) (lo : Nat) : Bool := i.getLsbD lo

/-- BR: whether the encoding is legal, and whether the condition holds (R457). -/
def Blk.peCond (s : Blk) (n : Nat) (i : Half) : Option Bool :=
  let p := s.pe n
  let pol := peB i 9
  let idx := peF i 5 4
  match peF i 10 3 with
  | 0 => if !pol && idx == 0 then some true else none
  | 1 => if !pol && idx == 0 then some (p.ca != 0) else none
  | 2 => if !pol && idx == 0 then some (p.cb != 0) else none
  | 3 => some (s.padRead n idx == pol)
  | 4 => if idx = 0 then some (decide (s.peFrame n ≤ p.bc) == pol) else none
  | 5 => if idx = 0 then some ((!p.tx.isEmpty) == pol) else none
  | 6 => some (s.peFlag idx == pol)
  | _ => none

/-- BR (R457): KIND 1 and 2 count down when they branch. -/
def Blk.peBr (s : Blk) (n : Nat) (i : Half) : Blk × PeEnd :=
  let p := s.pe n
  match s.peCond n i with
  | none => (s, .illegal)
  | some false => (s, .done)
  | some true =>
    let p := match peF i 10 3 with
      | 1 => { p with ca := p.ca - 1 }
      | 2 => { p with cb := p.cb - 1 }
      | _ => p
    (s.setPe n p, .goto (peF i 0 5))

/-- HOLD (R457); it reads the trigger latch as it stood at the end of the previous pin-engine cycle (log 172). -/
def Blk.peHold (s : Blk) (n : Nat) (i : Half) : Blk × PeEnd :=
  let pol := peB i 10
  let idx := peF i 6 4
  if peF i 0 6 ≠ 0 then (s, .illegal)
  else
    match peF i 11 2 with
    | 0 => (s, if s.padRead n idx == pol then .done else .stall)
    | 1 => (s, if s.peFlag idx == pol then .done else .stall)
    | 2 =>
      if pol && idx == 0 then
        if (pget s.peTrig n).any (· < s.now / 4) then ({ s with peTrig := pdel s.peTrig n }, .done) else (s, .stall)
      else (s, .illegal)
    | _ => (s, .illegal)

/-- PAUSE (R455). -/
def Blk.pePause (s : Blk) (n : Nat) (i : Half) : Blk × PeEnd :=
  let p := s.pe n
  if peB i 12 then (s, .illegal)
  else if peF i 0 12 ≤ p.pause then (s.setPe n { p with pause := 0 }, .done)
  else (s.setPe n { p with pause := p.pause + 1 }, .stall)

/-- The count of SHIN and SHOUT (R456). -/
def peCount (i : Half) : Nat := if peF i 0 5 = 0 then 32 else peF i 0 5

/-- SHIN (R458). -/
def Blk.peShin (s : Blk) (n : Nat) (i : Half) : Blk × PeEnd :=
  let p := s.pe n
  if peF i 5 6 ≠ 0 then (s, .illegal)
  else
    let src : Nat → Bool := match peF i 11 2 with
      | 0 => s.padRead n
      | 1 => p.ca.getLsbD
      | 2 => fun _ => false
      | _ => fun _ => true
    let k := peCount i
    (s.setPe n { p with sr := srIn (s.bit (F.SB_PE_CFG_SHDIR n)) p.sr k src, bc := min 32 (p.bc + k) }, .done)

/-- SHOUT (R458). -/
def Blk.peShout (s : Blk) (n : Nat) (i : Half) : Blk × PeEnd :=
  let p := s.pe n
  let left := s.bit (F.SB_PE_CFG_SHDIR n)
  let k := peCount i
  let out := srOut left p.sr
  let q := { p with sr := srIn left p.sr k fun _ => false, bc := min 32 (p.bc + k) }
  if peF i 5 5 ≠ 0 then (s, .illegal)
  else
    match peF i 10 3 with
    | 0 => ((List.range k).foldl (fun s j => s.padWrite n j false (out j)) (s.setPe n q), .done)
    | 1 => ((List.range k).foldl (fun s j => s.padWrite n j true (out j)) (s.setPe n q), .done)
    | 2 =>
      let ca := (List.range (min k 16)).foldl (fun (v : Half) j => if out j then v ||| (1#16 <<< j) else v &&& ~~~(1#16 <<< j)) p.ca
      (s.setPe n { q with ca := ca }, .done)
    | 3 => (s.setPe n q, .done)
    | _ => (s, .illegal)

/-- Words pushed into the receive FIFO in a cycle. -/
def PinEng.putNow (p : PinEng) (now : Nat) : Nat := if p.put.1 = now then p.put.2 else 0
/-- One more is pushed. -/
def PinEng.pushed (p : PinEng) (now : Nat) : PinEng := { p with put := (now, p.putNow now + 1) }
/-- The receive FIFO as it was before the words pushed in this cycle (R11). -/
def PinEng.rxBefore (p : PinEng) (now : Nat) : List Word := p.rx.take (p.rx.length - p.putNow now)

/-- FIFO (R459): OP 0 LOAD, 1 STORE, 2 LOADIF, 3 STOREIF. -/
def Blk.peFifo (s : Blk) (n : Nat) (i : Half) : Blk × PeEnd :=
  let p := s.pe n
  let op := peF i 11 2
  let nb := peB i 10
  if peF i 0 10 ≠ 0 then (s, .illegal)
  else if 2 ≤ op ∧ p.bc < s.peFrame n then (s, .done)
  else if op % 2 = 1 then
    if p.rx.length < 8 then (s.setPe n { p.pushed s.now with rx := p.rx ++ [p.sr], sr := 0, bc := 0 }, .done)
    else if nb then
      (((s.setPe n { p with sr := 0, bc := 0 }).hwSet (F.SB_PE_STAT_RXOVF n)).raise 52 (some (0x04, peInfo n 0 0)), .done)
    else (s, .stall)
  else
    match p.tx with
    | w :: r => (s.setPe n { p with tx := r, sr := w, last := w, bc := 0 }, .done)
    | [] =>
      if nb then ((s.setPe n { p with sr := p.last, bc := 0 }).hwSet (F.SB_PE_STAT_STALE n), .done)
      else (s, .stall)

/-- PUT (R457). -/
def Blk.pePut (s : Blk) (n : Nat) (i : Half) : Blk × PeEnd :=
  let p := s.pe n
  let d := peF i 11 2
  if d = 2 then (s.setPe n { p with ca := BitVec.ofNat 16 (peF i 0 11) }, .done)
  else if d = 3 then (s.setPe n { p with cb := BitVec.ofNat 16 (peF i 0 11) }, .done)
  else if peF i 0 2 ≠ 0 then (s, .illegal)
  else ((List.range (peF i 2 4 + 1)).foldl (fun s j => s.padWrite n (peF i 6 4 + j) (d == 1) (peB i 10)) s, .done)

/-- The source of COPY after XF (R457). -/
def Blk.copySrc (s : Blk) (n : Nat) (i : Half) : Option Word :=
  let p := s.pe n
  let v : Option Word := match peF i 3 3 with
    | 0 => some p.sr
    | 1 => some (p.ca.setWidth 32)
    | 2 => some (p.cb.setWidth 32)
    | 3 => some p.last
    | 4 => some (s.padWord n)
    | 5 => some 0
    | _ => none
  v.bind fun v => match peF i 1 2 with
    | 0 => some v
    | 1 => some (~~~v)
    | 2 => some (v.extractLsb' 0 16 ++ v.extractLsb' 16 16)
    | _ => none

/-- MISC COPY (R457). -/
def Blk.peCopy (s : Blk) (n : Nat) (i : Half) : Blk × PeEnd :=
  let p := s.pe n
  match s.copySrc n i, peB i 0 with
  | some v, false =>
    let h := v.setWidth 16
    match peF i 6 3 with
    | 0 => (s.setPe n { p with sr := v, bc := 0 }, .done)
    | 1 => (s.setPe n { p with ca := h }, .done)
    | 2 => (s.setPe n { p with cb := h }, .done)
    | 3 => ((List.range 16).foldl (fun s j => s.padWrite n j false (h.getLsbD j)) s, .done)
    | 4 => (s, .goto (v.toNat % 32))
    | _ => (s, .illegal)
  | _, _ => (s, .illegal)

/-- MISC SIGNAL (R457). -/
def Blk.peSignal (s : Blk) (n : Nat) (i : Half) : Blk × PeEnd :=
  let k := peF i 0 4
  let m : Half := 1 <<< k
  if peF i 4 3 ≠ 0 then (s, .illegal)
  else
    match peF i 7 2 with
    | 0 => (s.flagOps m 0 0, .done)
    | 1 => (s.flagOps 0 m 0, .done)
    | 2 => (s.flagOps 0 0 m, .done)
    | _ => (s.raise 55 (some (0x07, peInfo n 0 k)), .done)

/-- MISC SWAP (R458). -/
def Blk.peSwap (s : Blk) (n : Nat) (i : Half) : Blk × PeEnd :=
  let p := s.pe n
  let left := s.bit (F.SB_PE_CFG_SHDIR n)
  if peB i 4 then (s, .illegal)
  else
    let q := { p with sr := srStep left p.sr (s.padRead n (peF i 0 4)), bc := min 32 (p.bc + 1) }
    ((s.setPe n q).padWrite n (peF i 5 4) false (srOut left p.sr 0), .done)

/-- MISC NOP, and the KINDs that no instruction has (R457). -/
def Blk.peNop (s : Blk) (_n : Nat) (i : Half) : Blk × PeEnd :=
  (s, if peF i 9 4 = 3 ∧ peF i 0 9 = 0 then .done else .illegal)

/-- MISC STOP (R460). -/
def Blk.peStop (s : Blk) (_n : Nat) (i : Half) : Blk × PeEnd := (s, if peF i 0 9 = 0 then .stop else .illegal)

/-! ### Ticks (R454, R455, R460) -/

/-- The divider makes a tick: the cycle of the next one (R454). -/
def Blk.peTick (s : Blk) (n : Nat) : Blk :=
  let p := s.pe n
  let a := p.acc.toNat + s.fld (F.SB_PE_DIV_FRAC n)
  let int := s.fld (F.SB_PE_DIV_INT n)
  let int := if int = 0 then 65536 else int
  s.setPe n { p with acc := BitVec.ofNat 8 a, tick := p.tick + 4 * (int + a / 256) }

/-- The divider starts: tick 0 falls in the first pin-engine cycle from now on that has not begun (R454, R461). -/
def Blk.peRestart (s : Blk) (n : Nat) : Blk := s.setPe n { s.pe n with acc := 0, tick := 4 * (s.now / 4 + 1) }

/-- The end of an instruction's execution. -/
def Blk.peEnd (s : Blk) (n : Nat) (e : PeEnd) : Blk :=
  let p := s.pe n
  match e with
  | .done => s.setPe n { p with pc := p.pc + 1, stall := false }
  | .goto t => s.setPe n { p with pc := BitVec.ofNat 5 t, stall := false }
  | .stall => s.setPe n { p with stall := true }
  | .illegal =>
    (((s.setPe n { p with stall := false }).clr1 (F.SB_PE_CTRL_EN n)).hwSet (F.SB_PE_STAT_ILL n)).raise 54 (some (0x06, peInfo n 0 0))
  | .stop => ((s.setPe n { p with pc := p.pc + 1, stall := false }).clr1 (F.SB_PE_CTRL_EN n)).raise 56 (some (0x08, peInfo n 0 0))

/-- The kinds of instruction, one to a command (R456, R457). -/
inductive PeKind where
  | br | hold | pause | shin | shout | load | store | loadif | storeif | put | copy | signal | swap | nop | stop
  deriving DecidableEq, Repr

/-- The kind of an instruction word; an illegal MISC KIND is one of no kind and stands under NOP. -/
def peKind (i : Half) : PeKind :=
  match peF i 13 3 with
  | 0 => .br
  | 1 => .hold
  | 2 => .pause
  | 3 => .shin
  | 4 => .shout
  | 5 => (match peF i 11 2 with
    | 0 => .load
    | 1 => .store
    | 2 => .loadif
    | _ => .storeif)
  | 6 => .put
  | _ => (match peF i 9 4 with
    | 0 => .copy
    | 1 => .signal
    | 2 => .swap
    | 4 => .stop
    | _ => .nop)

/-- The synchronised levels of the pads in this pin-engine cycle: one set for all engines (R455). -/
def Blk.samplePads (s : Blk) (pads : BitVec 128) : Blk :=
  if s.pins.padAt = some (s.now / 4) then s else { s with pins := { s.pins with padIn := pads, padAt := some (s.now / 4) } }

/-- An engine executes the instruction at its PC in the tick that is due, where it is of the kind given; `pads` are the
synchronised levels that it reads (R455). -/
def Blk.peExec (s : Blk) (n : Nat) (pads : BitVec 128) (k : PeKind) (f : Blk → Nat → Half → Blk × PeEnd) : Blk :=
  let s := s.samplePads pads
  let p := s.pe n
  let i := s.peFetch n p.pc.toNat
  if s.bit (F.SB_PE_CTRL_EN n) && decide (p.tick ≤ s.now) && peKind i == k then
    let r := f (s.peTick n) n i
    r.1.peEnd n r.2
  else s

/-! ### Starting, stopping and changing programs (R461, R462, R468) -/

/-- A stopped engine starts (R462). -/
def Blk.peStart (s : Blk) (n : Nat) : Blk :=
  let s := (s.set1 (F.SB_PE_CTRL_EN n)).peRestart n
  let p := s.pe n
  if p.changed then
    let bc := if s.bit (F.SB_PE_CTRL_KEEP_SHIFT n) then p.bc else 0
    s.setPe n { p with pc := BitVec.ofNat 5 (s.fld (F.SB_PE_CTRL_START n)), changed := false, bc := bc, pause := 0, stall := false }
  else s

/-- The engine whose FIFOs the power arbiter has (R468). -/
def Blk.farb (s : Blk) : Option Nat := (List.range 32).find? fun n => s.bit (F.SB_PE_CTRL_FARB n)

/-- A write of SB_PE_CTRL (R461, R462, R468). -/
def Blk.wrPeCtrl (s : Blk) (n : Nat) (v : Word) : Blk :=
  if (F.SB_PE_CTRL_FARB n).get v = 1 ∧ s.farb.any (· != n) then
    (s.hwSet F.SB_PE_GSTAT_FARBCONF).raise 50 (some (0x02, peInfo n 0 0))
  else
    let was := s.bit (F.SB_PE_CTRL_EN n)
    let s := s.plainWrite (F.SB_PE_CTRL_off n) v
    if s.bit (F.SB_PE_CTRL_EN n) && !was then s.peStart n else s

/-- A write of SB_PE_GSTART (R461). -/
def Blk.wrPeGstart (s : Blk) (v : Word) : Blk :=
  (List.range 32).foldl (fun s n =>
    if v.getLsbD n then (if s.bit (F.SB_PE_CTRL_EN n) then s.peRestart n else s.peStart n) else s) s

/-- A write of a program-memory word (R462). -/
def Blk.wrPeProg (s : Blk) (n k : Nat) (v : Word) : Blk :=
  if s.bit (F.SB_PE_CTRL_EN n) then (s.hwSet (F.SB_PE_STAT_PWREF n)).raise 51 (some (0x03, peInfo n 0 0))
  else (s.wr (peProgOff n k) v).setPe n { s.pe n with changed := true }

/-- A write of SB_PE_PINS (R472). -/
def Blk.wrPePins (s : Blk) (n : Nat) (v : Word) : Blk :=
  (s.plainWrite (F.SB_PE_PINS_off n) v).setFld (F.SB_PE_PINS_PWID n) (min 16 (max 1 ((F.SB_PE_PINS_PWID n).get v)))

/-- A word for the transmit FIFO (R467). -/
def Blk.pushTx (s : Blk) (n : Nat) (v : Word) : Blk :=
  let p := s.pe n
  if p.tx.length < 8 then s.setPe n { p with tx := p.tx ++ [v] }
  else (s.hwSet (F.SB_PE_STAT_TXOVF n)).raise 53 (some (0x05, peInfo n 0 0))

/-- A control-window write of SB_PE_TX (R467, R468). -/
def Blk.wrPeTx (s : Blk) (n : Nat) (v : Word) : Blk := if s.bit (F.SB_PE_CTRL_FARB n) then s else s.pushTx n v

/-- The word at the head of the receive FIFO, 0 when empty and while the arbiter has the FIFOs (R467, R468); a word pushed in this cycle is not seen
(R11). -/
def Blk.peRx (s : Blk) (n : Nat) : Word := if s.bit (F.SB_PE_CTRL_FARB n) then 0 else ((s.pe n).rxBefore s.now).headD 0
/-- A normal-view read of SB_PE_RX removes it. -/
def Blk.popRx (s : Blk) (n : Nat) : Blk :=
  if s.bit (F.SB_PE_CTRL_FARB n) || ((s.pe n).rxBefore s.now).isEmpty then s else s.setPe n { s.pe n with rx := (s.pe n).rx.tail }

/-! ### Pads (R465) -/

/-- A pad claim or release is refused. -/
def Blk.padRefuse (s : Blk) (p : Nat) : Blk := (s.hwSet F.SB_PE_GSTAT_PADCONF).raise 50 (some (0x01, peInfo 0 p 0))

/-- A write of SB_PAD_OWN. -/
def Blk.wrPadOwn (s : Blk) (p : Nat) (v : Word) : Blk :=
  let off := F.SB_PAD_OWN_off p
  let kind := (F.SB_PAD_OWN_KIND p).get v
  let id := (F.SB_PAD_OWN_ID p).get v
  let own := s.fld (F.SB_PAD_OWN_KIND p)
  let v := if (F.SB_PAD_OWN_PULL p).get v = 3 then (F.SB_PAD_OWN_PULL p).put v 0 else v
  if kind = 3 then s.padRefuse p
  else if own = 0 then (if kind = 0 then s else s.plainWrite off v)
  else if id = s.fld (F.SB_PAD_OWN_ID p) ∧ kind = own then s.plainWrite off v
  else if id = s.fld (F.SB_PAD_OWN_ID p) ∧ kind = 0 then
    { s.wr off 0 with pins := { s.pins with out := padBit s.pins.out p false, dir := padBit s.pins.dir p false } }
  else s.padRefuse p

end Sys2Proof.Machine
end

