-- ==== Sys2Proof/Machine/Power.lean ====
section
/-! DEFINITION. The power arbiter: tokens and gates, the supervision of the input bus, the slot eFuses (15, R475 to R485). -/

namespace Sys2Proof.Machine

/-! ### Grants (R476) -/

/-- The fixed order of the consumers: G, M, S, X, C, the bays, B, Q, the Sieve units (R476, R484). -/
def grantOrder : List Nat := [0, 3, 4, 6, 5] ++ (List.range 32).map (8 + ·) ++ [1, 2] ++ (List.range 32).map (40 + ·)

/-- The consumers that hold-up leaves without a token: B, Q and the Sieve units (R476). -/
def heldUp (k : Nat) : Bool := k == 1 || k == 2 || decide (40 ≤ k)

/-- The floor pass: tokens given to each consumer in order, what is left, whether a floor is short. -/
def floorPass (floor : Nat → Nat) (zero : Nat → Bool) : Nat → List Nat → List (Nat × Nat) × Nat × Bool
  | avail, [] => ([], avail, false)
  | avail, k :: r =>
    let g := if zero k then 0 else min (floor k) avail
    let (rest, left, short) := floorPass floor zero (avail - g) r
    ((k, g) :: rest, left, short || (!zero k && decide (g < floor k)))

/-- The grant pass over the result of the floor pass. -/
def grantPass (want : Nat → Nat) (zero : Nat → Bool) : Nat → List (Nat × Nat) → List (Nat × Nat)
  | _, [] => []
  | avail, (k, g) :: r =>
    let x := if zero k then 0 else min (want k - g) avail
    (k, g + x) :: grantPass want zero (avail - x) r

/-- Whether UV, and whether PMFAIL, was in force in a cycle of the frame that ends now (R476, R479). -/
def Blk.uvFrame (s : Blk) : Bool :=
  (s.bit F.SB_PWR_STAT_UV && decide (s.pwr.uvOn < s.tb.bndAt)) || s.pwr.uvOff.any fun t => decide (s.pwr.bndAt < t)
@[inherit_doc Blk.uvFrame] def Blk.pmFrame (s : Blk) : Bool :=
  (s.bit F.SB_PWR_STAT_PMFAIL && decide (s.pwr.pmOn < s.tb.bndAt)) || s.pwr.pmOff.any fun t => decide (s.pwr.bndAt < t)
/-- Whether PWR_ALERT_N was asserted in a cycle of the frame that ends now. -/
def Blk.alertFrame (s : Blk) : Bool := s.pwr.alerts.any fun t => decide (t < s.tb.bndAt)

/-- Engines look for a context again, where a gate may have opened (R477). -/
def Blk.gatesMoved (s : Blk) : Blk := s.ctxs.foldl (fun s x => s.select (x.1 / 8)) s

/-- What the actions of this cycle cost a consumer; it is subtracted at the end of the cycle, from the new grant where a frame begins (R477). -/
def Blk.spentNow (s : Blk) (k : Nat) : Int := ((pget s.freshNow.met k).map (· - s.meterOf k)).getD 0

/-- The grants of a frame boundary (R476), and the end of an ALERT (R479). -/
def Blk.powerFrame (s : Blk) : Blk :=
  let alert := s.alertFrame
  let low := s.uvFrame || s.pmFrame
  let avail := s.fld F.SB_PWR_BUDGET_BUDGET
  let avail := if alert then min avail (s.fld F.SB_PWR_BUDGET_ALERTB) else avail
  let avail := if low then min avail (s.fld F.SB_PWR_HOLDB_HOLDB) else avail
  let zero := fun k => low && heldUp k
  let floor := fun k => s.fld (F.SB_TOK_GRANT_FLOOR k)
  let (given, left, short) := floorPass floor zero avail grantOrder
  let given := grantPass (fun k => max (s.fld (F.SB_TOK_GRANT_GRANT k)) (floor k)) zero left given
  let speed := s.fld F.SC_TB_SPEED_SPEED
  let s := given.foldl (fun s g =>
    let s := s.setFld (F.SB_TOK_COST_GIVEN g.1) g.2
    { s with meter := tset (fun _ => 0) s.meter g.1 (((g.2 * 65536 * speed / 0x200000 : Nat) : Int) - s.spentNow g.1) }) s
  let s := if short && !s.pwr.short then s.raise 21 (some (0x06, 0)) else s
  let s := if alert || !s.pwr.alerts.isEmpty then s else s.clr1 F.SB_PWR_STAT_ALERT
  let later := s.pwr.alerts.filter fun t => decide (s.tb.bndAt ≤ t)
  { s with pwr := { s.pwr with bndAt := s.tb.bndAt, short := short, uvOff := none, pmOff := none, alerts := later },
           fresh := { s.freshNow with met := [] } }

/-- A register of gates: bit `i` set while the gate of consumer `base + i` is closed (R483). -/
def Blk.gateWord (s : Blk) (base n : Nat) : Word :=
  (List.range n).foldl (fun w i => if s.gateOpen (base + i) then w else w ||| (1 <<< i)) 0

/-! ### PMBus transactions (R478) -/

/-- The polls lie 10 ms apart; a transaction may take 1 ms. -/
def pollPeriod : Nat := 20000000
@[inherit_doc pollPeriod] def answerLimit : Nat := 2000000

/-- Word 1 of a transaction: KIND 0 read word, 1 write word, 2 write byte; address; command code. -/
def pmWord (kind addr cmd : Nat) : Word := BitVec.ofNat 32 (kind * 2 ^ 30 + addr * 2 ^ 23 + cmd * 2 ^ 15)

/-- The TX words of a transaction (R478, R482). -/
def Blk.pmWords (s : Blk) : PmTxn → List Word
  | .vin => [pmWord 0 (s.fld F.SB_PWR_PMCFG_ADDR) 0x88]
  | .iin => [pmWord 0 (s.fld F.SB_PWR_PMCFG_ADDR) 0x89]
  | .slot k 0 => [pmWord 1 (s.fld (F.SB_SLOT_CFG_ADDR k)) 0x46,
      BitVec.ofNat 32 (0x1D * 2 ^ 11 + s.fld (F.SB_SLOT_CFG_ILIM k) * 4 / 5)]
  | .slot k 1 => [pmWord 1 (s.fld (F.SB_SLOT_CFG_ADDR k)) (s.fld F.SB_EF_TCMD_TCMD), BitVec.ofNat 32 (s.fld (F.SB_SLOT_CFG_TTRIP k))]
  | .slot k _ => [pmWord 2 (s.fld (F.SB_SLOT_CFG_ADDR k)) 0x01, 0x80]
  | .off k => [pmWord 2 (s.fld (F.SB_SLOT_CFG_ADDR k)) 0x01, 0x00]

/-- The words go to the engine with FARB, as far as its transmit FIFO has room. -/
def Blk.pmSend (s : Blk) (ws : List Word) : Blk :=
  match s.farb with
  | some n => s.setPe n { s.pe n with tx := ((s.pe n).tx ++ ws).take 8 }
  | none => s

/-- The next transaction starts when none is in progress. -/
def Blk.pmNext (s : Blk) : Blk :=
  match s.pwr.cur, s.pwr.wait with
  | none, t :: r => { s.pmSend (s.pmWords t) with pwr := { s.pwr with cur := some (t, s.now), wait := r } }
  | _, _ => s

/-- Transactions wait for their turn. -/
def Blk.pmAdd (s : Blk) (ts : List PmTxn) : Blk := { s with pwr := { s.pwr with wait := s.pwr.wait ++ ts } }.pmNext

/-! ### The input bus (R479) -/

/-- UV is entered. -/
def Blk.enterUv (s : Blk) (code : Nat) : Blk :=
  if s.bit F.SB_PWR_STAT_UV then s
  else { s.set1 F.SB_PWR_STAT_UV with pwr := { s.pwr with uvOn := s.now } }.raise 15 (some (code, 0))

/-- A condition is left. -/
def Blk.leftBus (s : Blk) (f : Fld) : Blk := (s.clr1 f).raise 20 (some (0x05, 0))

/-- A VIN reading in 10 mV. -/
def Blk.vinRead (s : Blk) (v : Nat) : Blk :=
  let s := (s.setFld F.SB_PWR_VIN_VIN v).set1 F.SB_PWR_VIN_VALID
  let hyst := s.fld F.SB_PWR_VHYST_HYST
  let lo := s.fld F.SB_PWR_VLIM_VLOW
  let hi := s.fld F.SB_PWR_VLIM_VHIGH
  let s :=
    if v < lo then s.enterUv 0x01
    else if s.bit F.SB_PWR_STAT_UV && decide (lo + hyst ≤ v) && s.bit F.SB_PWR_STAT_PGOOD then
      { s with pwr := { s.pwr with uvOff := some s.now } }.leftBus F.SB_PWR_STAT_UV
    else s
  if hi < v then (if s.bit F.SB_PWR_STAT_OV then s else (s.set1 F.SB_PWR_STAT_OV).raise 16 (some (0x03, 0)))
  else if s.bit F.SB_PWR_STAT_OV && decide (v + hyst ≤ hi) then s.leftBus F.SB_PWR_STAT_OV
  else s

/-- LINEAR11 in hundredths of the unit, truncated toward zero, where it fits 16 bits (R478). -/
def linear11 (w : BitVec 16) : BitVec 16 :=
  let e := (w.extractLsb' 11 5).toInt
  let m := (w.extractLsb' 0 11).toInt * 100
  let v := if 0 ≤ e then m * 2 ^ e.toNat else Int.tdiv m (2 ^ (-e).toNat)
  if 0 ≤ v ∧ v < 65536 then BitVec.ofInt 16 v else Config.linear11 w

/-- A poll transaction succeeds or fails: PMFAIL (R479). -/
def Blk.polled (s : Blk) (vin ok : Bool) : Blk :=
  let f := if ok then 0 else s.pwr.fails + 1
  let good := if vin then ok else ok && s.pwr.vinOk
  let s := { s with pwr := { s.pwr with fails := f, vinOk := good } }
  if decide (3 ≤ f) && !s.bit F.SB_PWR_STAT_PMFAIL then
    { s.set1 F.SB_PWR_STAT_PMFAIL with pwr := { s.pwr with pmOn := s.now } }.raise 17 (some (0x04, 0))
  else if !vin && good && s.bit F.SB_PWR_STAT_PMFAIL then
    { s with pwr := { s.pwr with pmOff := some s.now } }.leftBus F.SB_PWR_STAT_PMFAIL
  else s

/-! ### Slot eFuses (R480 to R482) -/

/-- The state of a power slot: 0 OFF, 1 QUEUED, 2 POWERING, 3 ON, 4 REFUSED, 5 FAULT. -/
def Blk.slotState (s : Blk) (k : Nat) : Nat := s.fld (F.SB_SLOT_CFG_STATE k)
/-- A power slot enters a state; SB_SLOT_REQ reads 1 while QUEUED (R483). -/
def Blk.setSlot (s : Blk) (k st : Nat) : Blk := (s.setFld (F.SB_SLOT_CFG_STATE k) st).setRbit F.SB_SLOT_REQ_off k (st == 1)

/-- The energy check (R481). -/
def energyOk (ilim vhigh ttrip elim : Nat) : Bool := decide (ilim * vhigh * ttrip ≤ elim * 100000)
/-- The energy check of a power slot under limits. -/
def Blk.slotEnergy (s : Blk) (k vhigh elim : Nat) : Bool :=
  energyOk (s.fld (F.SB_SLOT_CFG_ILIM k)) vhigh (s.fld (F.SB_SLOT_CFG_TTRIP k)) elim

/-- A start or a power-down fails. -/
def Blk.slotFails (s : Blk) (k : Nat) : Blk := s.raise 19 (some (0x23, k))

/-- The end of a transaction: its data when it succeeded. -/
def Blk.pmDone (s : Blk) (t : PmTxn) (r : Option (BitVec 16)) : Blk :=
  let s := { s with pwr := { s.pwr with cur := none } }
  let s := match t, r with
    | .vin, some w => (s.vinRead (linear11 w).toNat).polled true true
    | .vin, none => s.polled true false
    | .iin, some w => (s.setFld F.SB_PWR_IIN_IIN (linear11 w).toNat).polled false true
    | .iin, none => s.polled false false
    | .slot k i, some _ => if i < 2 then s.pmAdd [.slot k (i + 1)] else s.setSlot k 3
    | .slot k _, none => (s.setSlot k 5).slotFails k
    | .off _, some _ => s
    | .off k, none => s.slotFails k
  s.pmNext

/-- The arbiter takes an answer (R478). -/
def Blk.pmAnswer (s : Blk) : Blk :=
  match s.farb with
  | none => s
  | some n =>
    match (s.pe n).rx with
    | [] => s
    | w :: r =>
      let s := s.setPe n { s.pe n with rx := r }
      match s.pwr.cur with
      | none => s
      | some (t, at_) =>
        s.pmDone t (if w.extractLsb' 24 8 = 0 ∧ s.now ≤ at_ + answerLimit then some (w.extractLsb' 0 16) else none)

/-- No answer comes (R478). -/
def Blk.pmTimeout (s : Blk) : Blk :=
  match s.pwr.cur with
  | some (t, at_) => if at_ + answerLimit < s.now then s.pmDone t none else s
  | none => s

/-- The poll that is due starts (R478). -/
def Blk.pmPoll (s : Blk) : Blk :=
  if s.bit F.SB_PWR_CTRL_POLLEN && decide (s.pwr.pollAt + pollPeriod ≤ s.now) then
    { s with pwr := { s.pwr with pollAt := s.pwr.pollAt + pollPeriod } }.pmAdd [.vin, .iin]
  else s

/-- It is the turn of a queued power slot (R480, R482). -/
def Blk.slotTurn (s : Blk) (k : Nat) : Blk :=
  let turn := s.slotState k == 1 && (List.range k).all (fun j => s.slotState j != 1) &&
    (List.range 16).all (fun j => s.slotState j != 2) && s.pwr.slotAt.all fun t => decide (t + 100000000 ≤ s.now)
  if !turn then s
  else if s.bit F.SB_PWR_STAT_UV || s.bit F.SB_PWR_STAT_OV || s.bit F.SB_PWR_STAT_PMFAIL then
    (s.setSlot k 4).raise 18 (some (0x21, k))
  else if !s.slotEnergy k (s.fld F.SB_PWR_VLIM_VHIGH) (s.fld F.SB_SLOT_ELIM_ELIM) then (s.setSlot k 4).raise 18 (some (0x20, k))
  else { s.setSlot k 2 with pwr := { s.pwr with slotAt := some s.now } }.pmAdd [.slot k 0]

/-- A write of SB_SLOT_REQ (R480). -/
def Blk.wrSlotReq (s : Blk) (v : Word) : Blk :=
  (List.range 16).foldl (fun s k =>
    let st := s.slotState k
    if v.getLsbD k && (st == 0 || decide (4 ≤ st)) then s.setSlot k 1 else s) s

/-- A write of SB_SLOT_OFF (R480). -/
def Blk.wrSlotOff (s : Blk) (v : Word) : Blk :=
  (List.range 16).foldl (fun s k => if v.getLsbD k && s.slotState k == 3 then (s.setSlot k 0).pmAdd [.off k] else s) s

/-- A write that the energy limit refuses (R481). -/
def Blk.energyRefuse (s : Blk) (k : Nat) : Blk := (s.hwSet F.SB_PWR_STAT_ELREF).raise 18 (some (0x22, k))

/-- The power slots not in OFF whose energy check limits would make fail. -/
def Blk.overLimit (s : Blk) (vhigh elim : Nat) : Option Nat :=
  (List.range 16).find? fun k => s.slotState k != 0 && !s.slotEnergy k vhigh elim

/-- A write of SB_SLOT_CFG (R480, R481). -/
def Blk.wrSlotCfg (s : Blk) (k : Nat) (v : Word) : Blk :=
  let st := s.slotState k
  if !(st == 0 || decide (4 ≤ st)) then s
  else if energyOk ((F.SB_SLOT_CFG_ILIM k).get v) (s.fld F.SB_PWR_VLIM_VHIGH) ((F.SB_SLOT_CFG_TTRIP k).get v) (s.fld F.SB_SLOT_ELIM_ELIM)
  then s.plainWrite (F.SB_SLOT_CFG_off k) v
  else s.energyRefuse k
/-- A write of SB_SLOT_ELIM (R481). -/
def Blk.wrElim (s : Blk) (v : Word) : Blk :=
  match s.overLimit (s.fld F.SB_PWR_VLIM_VHIGH) (F.SB_SLOT_ELIM_ELIM.get v) with
  | some k => s.energyRefuse k
  | none => s.plainWrite F.SB_SLOT_ELIM_off v
/-- A write of SB_PWR_VLIM (R481). -/
def Blk.wrVlim (s : Blk) (v : Word) : Blk :=
  match s.overLimit (F.SB_PWR_VLIM_VHIGH.get v) (s.fld F.SB_SLOT_ELIM_ELIM) with
  | some k => s.energyRefuse k
  | none => s.plainWrite F.SB_PWR_VLIM_off v

/-- A write of an energy-limited register. -/
def Blk.wrEnergy (s : Blk) (off : Nat) (v : Word) : Blk :=
  if off = F.SB_SLOT_ELIM_off then s.wrElim v
  else if off = F.SB_PWR_VLIM_off then s.wrVlim v
  else if F.SB_SLOT_CFG_off 0 ≤ off ∧ off < F.SB_SLOT_CFG_off 16 ∧ off % 4 = 0 then s.wrSlotCfg ((off - F.SB_SLOT_CFG_off 0) / 4) v
  else s

/-- A write of SB_PWR_CTRL (R477, R478). -/
def Blk.wrPwrCtrl (s : Blk) (v : Word) : Blk :=
  let was := s.bit F.SB_PWR_CTRL_POLLEN
  let s := s.plainWrite F.SB_PWR_CTRL_off v
  let s := if s.bit F.SB_PWR_CTRL_POLLEN && !was then { s with pwr := { s.pwr with pollAt := s.now } } else s
  s.gatesMoved

/-- A write of SB_TOK_COST (R477). -/
def Blk.wrTokCost (s : Blk) (k : Nat) (v : Word) : Blk := (s.plainWrite (F.SB_TOK_COST_off k) v).gatesMoved

/-- PWR_ALERT_N is asserted (R479). -/
def Blk.alertPin (s : Blk) : Blk :=
  let s := { s with pwr := { s.pwr with alerts := s.pwr.alerts ++ [s.now] } }
  if s.bit F.SB_PWR_STAT_ALERT then s else (s.set1 F.SB_PWR_STAT_ALERT).raise 14 (some (0x01, 0))

/-- PWR_GOOD takes a level (R479). -/
def Blk.pwrGood (s : Blk) (level : Bool) : Blk :=
  let s := s.setBit F.SB_PWR_STAT_PGOOD level
  if level then s else s.enterUv 0x02

end Sys2Proof.Machine
end

