-- ==== Sys2Proof/Machine/Frame.lean ====
section
/-! DEFINITION. What a frame boundary and a slot boundary do (R25, R41), and the index edge with the acquisition load and the
realignment (R44, R45, R47, R48). -/

namespace Sys2Proof.Machine

/-- The actions of R25 at a frame boundary whose frame and slot index stand in the tracker, in their order; the storm
guard's counts restart with the frame (R428), and work that waited for the boundary goes on (R26, R100). -/
def Blk.frameActions (s : Blk) (ended : Nat) : Blk :=
  let s : Blk := (s.stormFrame).twSlot ended
  let s : Blk := s.tableSwitch
  let s : Blk := (List.range 32).foldl (fun s c => s.retireStep c) s
  let s : Blk := s.reloadBudgets.powerFrame.twFrame
  let s : Blk := (List.range 32).foldl (fun s b => (s.subFrame b).swapStep b) s
  s.patchFrame.gatesMoved.boundaryJobs.settle

/-- The tracker starts a frame at a position, in cycle `c`: the frame index is its bits [47:12], the slot index 0 (R41). -/
def Blk.tbFrame (s : Blk) (p : BitVec 48) (c : Nat) : Blk :=
  { s with tb := { s.tb with frame := p.extractLsb' 12 36, slot := 0, slotAt := c, bndAt := c } }

/-- A hit of channel 1, and of channel 0 with it (R41, R52, R55). -/
def Blk.frameHit (s : Blk) : Blk :=
  let ended := s.tb.slot.toNat
  let at_ := s.cmpOf 1
  let s := (((s.hitDone 1).setCmp 1 (at_ + 4096)).hwSet (F.SC_CMP_STAT_HIT 1)).tbFrame at_ s.tb.dueAt
  let s := if s.hitDue 0 then ((s.hitDone 0).setCmp 0 (s.cmpOf 0 + 4)).hwSet (F.SC_CMP_STAT_HIT 0) else s
  s.frameActions ended

/-- A hit of channel 0 without channel 1 (R41, R52, R55). -/
def Blk.slotHit (s : Blk) : Blk :=
  let ended := s.tb.slot.toNat
  let s := ((s.hitDone 0).setCmp 0 (s.cmpOf 0 + 4)).hwSet (F.SC_CMP_STAT_HIT 0)
  let s := { s with tb := { s.tb with slot := s.tb.slot + 1, slotAt := s.tb.dueAt } }
  (s.twSlot ended).settle

/-- The nearest multiple of 2^20, a tie taken upward (R45, R48). -/
def nearestEpoch (p : BitVec 48) : BitVec 48 := (p + 0x80000) &&& ~~~(0xFFFFF : BitVec 48)

/-- The load of R44 and R45 at a position: compare channels 0 and 1, frame and slot index, LOCKED, event source 25
(R79), and the actions of R25; a realignment judges LATE of the armed channels. -/
def Blk.tbLoad (s : Blk) (p : BitVec 48) (re : Bool) : Blk :=
  let ended := s.tb.slot.toNat
  let s := { s with
    tb := { s.tb with pos := p, lastMult := p.extractLsb' 20 28, idxSeen := true, lossFrom := s.now } }
  let s := (((s.setCmp 0 (p + 4)).setCmp 1 (p + 4096)).hitDone 0).hitDone 1
  let s := (s.set1 (F.SC_CMP_STAT_ARMED 0)).set1 (F.SC_CMP_STAT_ARMED 1)
  let s := if re then
      ([2, 3, 4, 5, 6, 7].foldl (fun s n =>
        if s.cmpArmed n && decide (s.cmpOf n < p) then s.set1 (F.SC_CMP_STAT_LATE n) else s) s).clr1 F.SC_TB_CTRL_REALIGN
    else s.clr1 F.SC_TB_CTRL_ACQ
  let s := (s.setFld F.SC_TB_STAT_STATE 2).tbFrame p s.now
  (s.raise 25).frameActions ended

/-- The signed difference between a latched position and the nearest multiple of 2^20, as SC_TB_DRIFT.DRIFT holds it
(R48, R59). -/
def driftOf (p : BitVec 48) : Nat := (p - nearestEpoch p).toNat % 2 ^ 20

/-- An index check writes DRIFT, clears MISS and counts a difference that is not zero (R48). -/
def Blk.indexCheck (s : Blk) : Blk :=
  let d := driftOf s.tb.pos
  let s := (s.clr1 F.SC_TB_DRIFT_MISS).setFld F.SC_TB_DRIFT_DRIFT d
  if d = 0 then s else s.bump F.SC_TB_FAULTS_DRIFTCNT

/-- An index edge in a state other than OFF (R44, R45, R47, R48). -/
def Blk.indexEdge (s : Blk) : Blk :=
  let p := s.tb.pos
  let s := s.setFld F.SC_TB_IDX_LO_IDX (p.toNat % 2 ^ 32)
  let s := s.setFld F.SC_TB_IDX_HI_IDX (p.toNat / 2 ^ 32)
  let s := { s with tb := { s.tb with idxSeen := true } }
  let re := s.bit F.SC_TB_CTRL_REALIGN
  let load (s : Blk) := s.tbLoad (nearestEpoch p) true
  match s.tbState with
  | 1 => s.tbLoad ((BitVec.ofNat 28 (s.fld F.SC_TB_EPOCH_LD_EPOCH)).setWidth 48 <<< 20) false
  | 2 =>
    if p.extractLsb' 0 20 = 0#20 then if re then s.clr1 F.SC_TB_CTRL_REALIGN else s.indexCheck
    else if re then load s.indexCheck
    else (s.indexCheck.raise 23 (some (2, 0))).setFld F.SC_TB_STAT_STATE 3
  | 3 => if re then load s else s.indexCheck
  | _ => load s

end Sys2Proof.Machine
end

