-- ==== Sys2Proof/Machine/FrameRows.lean ====
section
/-! DEFINITION. The commands of slot and frame boundaries and of the index edge (02). -/

namespace Sys2Proof.Machine

/-- SLOT_BOUNDARY (R41). -/
def execSlotBoundary (dt : Nat) (s : State) : Host.Outcome State Fault Refusal :=
  s.run dt fun k => if k.hitDue 0 && !k.hitDue 1 then k.slotHit else k

/-- FRAME_BOUNDARY (R25, R41). -/
def execFrameBoundary (dt : Nat) (s : State) : Host.Outcome State Fault Refusal :=
  s.run dt fun k => if k.hitDue 1 then k.frameHit else k

/-- INDEX_EDGE (R47), retransmitted when the tracker counts at the end of its cycle (R37). -/
def execIndexEdge (dt : Nat) (s : State) : Host.Outcome State Fault Refusal :=
  s.run dt fun k =>
    if k.tbState = 0 then k
    else
      let k := k.indexEdge
      if k.tbCounts then k.tbPulse .idx else k

end Sys2Proof.Machine
end

