-- ==== Sys2Proof/Machine/Scan.lean ====
section
/-! DEFINITION. What a Sieve descriptor says and computes, without the progress of a submission: fields, checks, predicates,
aggregates and records (11, R352 to R372, R380, R381). -/

namespace Sys2Proof.Machine

/-! ### Lines as bytes -/

/-- `n` bytes of a line from byte `o`, little-endian. -/
def lineFld (d : Line) (o n : Nat) : Nat := d.toNat / 2 ^ (8 * o) % 2 ^ (8 * n)
/-- A line from fields: first byte, number of bytes, value. -/
def lineOf (l : List (Nat × Nat × Nat)) : Line :=
  BitVec.ofNat 512 (l.foldl (fun a f => a + f.2.2 % 2 ^ (8 * f.2.1) * 2 ^ (8 * f.1)) 0)

/-! ### Descriptors (R356) -/

/-- A descriptor. -/
structure Desc where
  combine : Nat
  wlog    : Nat
  type    : Nat
  pkind   : Nat
  param   : Nat
  agg     : Nat
  id      : Nat
  col     : Nat
  nulls   : Nat
  set     : Nat
  rows    : Nat
  k1      : Nat
  k2      : Nat
  deriving DecidableEq, Repr

/-- A descriptor from its line. -/
def descOf (d : Line) : Desc :=
  let b0 := lineFld d 0 1
  let b1 := lineFld d 1 1
  { combine := b0 / 64, wlog := b0 / 16 % 4, type := b0 % 8, pkind := b1 / 16, param := b1 % 8, agg := lineFld d 2 1,
    id := lineFld d 4 4, col := lineFld d 8 6, nulls := lineFld d 16 6, set := lineFld d 24 6, rows := lineFld d 32 5,
    k1 := lineFld d 40 8, k2 := lineFld d 48 8 }

/-- Bit `i` of AGG: 0 COUNT, 1 SUM, 2 MIN, 3 MAX, 4 GATHER, 5 ROWID. -/
def Desc.asks (d : Desc) (i : Nat) : Bool := d.agg.testBit i
/-- The width of the column in bytes, and its rows in a line (R352). -/
def Desc.width (d : Desc) : Nat := 2 ^ d.wlog
@[inherit_doc Desc.width] def Desc.perLine (d : Desc) : Nat := 64 / d.width
/-- Whether the column is one of floating-point values; whether of signed integers. -/
def Desc.float (d : Desc) : Bool := d.type == 2 || d.type == 3
@[inherit_doc Desc.float] def Desc.signed (d : Desc) : Bool := d.type == 1
/-- The format of a floating-point column. -/
def Desc.fmt (d : Desc) : FFmt := if d.type = 2 then f32 else f64

/-! ### Checks (R372) -/

/-- 0x01: a bit that the format fixes as zero is not. -/
def Desc.dirty (d : Desc) (l : Line) : Bool :=
  (lineFld l 0 1).testBit 3 || (lineFld l 1 1).testBit 3 || decide (64 ≤ d.agg) || lineFld l 3 1 != 0 || lineFld l 14 2 != 0 ||
  lineFld l 22 2 != 0 || lineFld l 30 2 != 0 || lineFld l 37 3 != 0 || lineFld l 56 8 != 0 || decide (2 ^ 37 ≤ d.rows) ||
  d.col % 64 != 0 || d.nulls % 64 != 0 || d.set % 64 != 0 || (d.pkind != 3 && d.set != 0) ||
  decide (2 ^ (8 * d.width) ≤ d.k1) || decide (2 ^ (8 * d.width) ≤ d.k2)

/-- 0x02: COMBINE, TYPE and WLOG, PKIND and PARAM are valid (R358, R360). -/
def Desc.valid (d : Desc) : Bool :=
  d.combine != 3 &&
  (match d.type with
   | 0 | 1 => true
   | 2 => d.wlog == 2
   | 3 => d.wlog == 3
   | 4 => d.wlog == 1
   | _ => false) &&
  (match d.pkind with
   | 0 => d.param == 0
   | 1 => decide (d.param < 6)
   | 2 => decide (d.param < 4)
   | 3 | 4 => decide (d.param < 2)
   | _ => false)

/-- 0x03: AGG is valid. -/
def Desc.aggOk (d : Desc) : Bool :=
  !(d.asks 1 && d.type == 4) && !(d.pkind == 3 && d.float) && !(d.asks 5 && !d.asks 4)

/-- `n` bytes from an address lie in its segment. -/
def inSegment (a n : Nat) : Bool := decide (a % 2 ^ 36 + n ≤ 2 ^ 36)

/-- 0x06: a segment that a submission of port `p` may read. -/
def Blk.scanSeg (s : Blk) (p seg : Nat) : Bool :=
  let w0 := s.segWord seg 0
  s.segOk seg && !segREMOTE w0 && !segCOMP w0 && !segCMDSEG w0 && (segHPMASK w0).testBit p

/-- CHLOG and CHBASE of the segment of an address. -/
def Blk.chSet (s : Blk) (a : Nat) : Nat × Nat := (segCHLOG (s.segWord (a / 2 ^ 36) 1), segCHBASE (s.segWord (a / 2 ^ 36) 1))

/-- The two placements of a chain (R365). -/
def Blk.singleChannel (s : Blk) (ds : List Desc) : Bool :=
  match ds with
  | [] => true
  | d0 :: _ => ds.all fun d => s.chSet d.col == (0, (s.chSet d0.col).2) && (d.nulls == 0 || s.chSet d.nulls == (0, (s.chSet d0.col).2))
@[inherit_doc Blk.singleChannel] def Blk.striped (s : Blk) (ds : List Desc) : Bool :=
  match ds with
  | [] => true
  | d0 :: _ => ds.all fun d => d.wlog == d0.wlog && s.chSet d.col == s.chSet d0.col && d.col % 2 ^ 36 == d0.col % 2 ^ 36 &&
      d.nulls == 0 && !d.asks 4

/-- The first check that a descriptor fails, with the descriptors of its chain, and whether it is the first of the submission. -/
def Blk.descFault (s : Blk) (p : Nat) (first : Bool) (l : Line) (chain : List Desc) : Option Nat :=
  let d := descOf l
  if d.dirty l then some 0x01
  else if !d.valid then some 0x02
  else if !d.aggOk then some 0x03
  else if first && d.combine != 0 then some 0x04
  else if d.rows = 0 ∨ 2 ^ 36 < d.rows ∨ !inSegment d.col (d.rows * d.width) then some 0x05
  else if !s.scanSeg p (d.col / 2 ^ 36) then some 0x06
  else if (d.nulls != 0 && !(inSegment d.nulls ((d.rows + 7) / 8) && s.scanSeg p (d.nulls / 2 ^ 36))) ||
      (d.pkind == 3 && !(inSegment d.set 512 && s.scanSeg p (d.set / 2 ^ 36))) then some 0x07
  else if !s.singleChannel chain && !s.striped chain then some 0x08
  else if chain.any fun e => e.rows != d.rows then some 0x09
  else none

/-- The chains of a submission (R363): place of the first descriptor, number of descriptors. -/
def chainsOf : Nat → List Desc → List (Nat × Nat)
  | _, [] => []
  | i, _ :: r =>
    match chainsOf (i + 1) r, r with
    | (lo, n) :: cs, e :: _ => if e.combine = 0 then (i, 1) :: (lo, n) :: cs else (i, n + 1) :: cs
    | _, _ => [(i, 1)]

/-- The lowest descriptor that fails a check, and its code (R371). -/
def Blk.submissionFault (s : Blk) (p : Nat) (ls : List Line) : Option (Nat × Nat) :=
  let ds := ls.map descOf
  (chainsOf 0 ds).findSome? fun c =>
    let chain := (ds.drop c.1).take c.2
    (List.range c.2).findSome? fun i =>
      (s.descFault p (c.1 + i == 0) (ls.getD (c.1 + i) 0) chain).map fun k => (c.1 + i, k)

/-! ### Predicates (R359 to R362) -/

/-- A value as an integer. -/
def Desc.int (d : Desc) (v : Nat) : Int :=
  if d.signed && decide (2 ^ (8 * d.width - 1) ≤ v) then (v : Int) - (2 ^ (8 * d.width) : Nat) else v

/-- 0 equal, 1 less, 2 greater, 3 unordered (R361). -/
def Desc.order (d : Desc) (a b : Nat) : Nat :=
  if d.float then (d.fmt.cmp a b).1
  else if d.int a < d.int b then 1 else if d.int b < d.int a then 2 else 0

/-- Whether a row passes: its value, whether it is null, the IN set. -/
def Desc.passes (d : Desc) (v : Nat) (null : Bool) (set : BitVec 4096) : Bool :=
  if d.pkind = 4 then null == (d.param % 2 == 0)
  else if null then false
  else
    match d.pkind with
    | 0 => true
    | 1 =>
      let r := d.order v d.k1
      (match d.param with
       | 0 => r == 0
       | 1 => r != 0
       | 2 => r == 1
       | 3 => r == 0 || r == 1
       | 4 => r == 2
       | _ => r == 0 || r == 2)
    | 2 =>
      let lo := d.order d.k1 v
      let hi := d.order v d.k2
      (lo == 1 || (lo == 0 && d.param % 2 == 0)) && (hi == 1 || (hi == 0 && d.param / 2 == 0))
    | _ =>
      let x := d.int v - d.int d.k1
      let isIn := decide (0 ≤ x) && decide (x ≤ 4095) && set.getLsbD x.toNat
      isIn == (d.param % 2 == 0)

/-! ### Aggregates (R367 to R370) -/

/-- a ⊕ b, with the flags so far (R368). -/
def plusOpt (fl : BitVec 5) : Option (BitVec 64) → Option (BitVec 64) → Option (BitVec 64) × BitVec 5
  | none, b => (b, fl)
  | a, none => (a, fl)
  | some a, some b =>
    let r := f64.add 0 a.toNat b.toNat
    (some (BitVec.ofNat 64 r.1), fl ||| BitVec.ofNat 5 r.2)

/-- One level of the tree: neighbours are added. -/
def pairUp (fl : BitVec 5) : List (Option (BitVec 64)) → List (Option (BitVec 64)) × BitVec 5
  | a :: b :: r =>
    let x := plusOpt fl a b
    let y := pairUp x.2 r
    (x.1 :: y.1, y.2)
  | l => (l, fl)

/-- The tree over the rows of a line, of at most 2 ^ n values. -/
def treeSum : Nat → BitVec 5 → List (Option (BitVec 64)) → Option (BitVec 64) × BitVec 5
  | 0, fl, l => (l.headD none, fl)
  | n + 1, fl, l =>
    let r := pairUp fl l
    treeSum n r.2 r.1

/-- A value as binary64 (R368). -/
def Desc.wide (d : Desc) (v : Nat) : Nat × Nat := if d.type = 2 then convert f32 f64 0 v else (v, 0)

/-- The lesser, or with `max` the greater, of the extreme so far and a value (R367, R370). -/
def Desc.extreme (d : Desc) (max : Bool) (m : Option (BitVec 64)) (v : Nat) : Option (BitVec 64) :=
  match m with
  | none => some (BitVec.ofNat 64 v)
  | some w =>
    if d.float then some (BitVec.ofNat 64 (d.fmt.minMax max w.toNat v).1)
    else if max then (if d.int w.toNat < d.int v then some (BitVec.ofNat 64 v) else m)
    else if d.int v < d.int w.toNat then some (BitVec.ofNat 64 v) else m

/-- A row is aggregated, but for a floating-point sum: its number, its value. -/
def Desc.aggRow (d : Desc) (a : SvAcc) (r v : Nat) : SvAcc :=
  let a := { a with count := a.count + 1, sum := if d.float then a.sum else a.sum + d.int v }
  let a := if d.asks 4 then { a with gath := a.gath ++ [BitVec.ofNat 64 (if d.asks 5 then r else v)] } else a
  if !(d.asks 2 || d.asks 3) then a
  else if d.float && d.fmt.isNan (d.fmt.parts v) then
    { a with nan := a.nan + 1, fl := if d.fmt.isSnan (d.fmt.parts v) then a.fl ||| 16 else a.fl }
  else { a with mn := d.extreme false a.mn v, mx := d.extreme true a.mx v }

/-- A line is evaluated: for each of its rows its number and, where it is aggregated, its value. -/
def Desc.aggLine (d : Desc) (a : SvAcc) (rows : List (Nat × Option Nat)) : SvAcc :=
  let k := a.lines % 8
  let a := rows.foldl (fun a x => match x.2 with | some v => d.aggRow a x.1 v | none => a) { a with lines := a.lines + 1 }
  if !(d.float && d.asks 1) then a
  else
    let xs := rows.map fun x => x.2.map fun v => d.wide v
    let fl := xs.foldl (fun (f : BitVec 5) x => match x with | some y => f ||| BitVec.ofNat 5 y.2 | none => f) a.fl
    let t := treeSum 6 fl (xs.map fun x => x.map fun y => BitVec.ofNat 64 y.1)
    let l := plusOpt t.2 (a.lanes.getD k none) t.1
    { a with lanes := a.lanes.set k l.1, fl := l.2 }

/-- part[u]: the eight lanes of a unit (R368). -/
def SvAcc.part (a : SvAcc) : Option (BitVec 64) × BitVec 5 := treeSum 3 a.fl a.lanes

/-- The record's accumulators: those of the units in ascending bay number (R366). -/
structure SvTotal where
  count : Nat
  sum   : Int
  fsum  : Option (BitVec 64)
  fl    : BitVec 5
  mn    : Option (BitVec 64)
  mx    : Option (BitVec 64)
  nan   : Nat
  gath  : List (BitVec 64)
  deriving DecidableEq, Repr

/-- The partial results of the units, in ascending bay number, as one. -/
def Desc.total (d : Desc) (parts : List SvAcc) : SvTotal :=
  parts.foldl (fun t a =>
    let p := a.part
    let f := plusOpt (t.fl ||| p.2) t.fsum p.1
    let join (max : Bool) (m n : Option (BitVec 64)) : Option (BitVec 64) := match n with | some v => d.extreme max m v.toNat | none => m
    { count := t.count + a.count, sum := t.sum + a.sum, fsum := f.1, fl := f.2, mn := join false t.mn a.mn,
      mx := join true t.mx a.mx, nan := t.nan + a.nan, gath := t.gath ++ a.gath })
    { count := 0, sum := 0, fsum := none, fl := 0, mn := none, mx := none, nan := 0, gath := [] }

/-! ### Records -/

/-- The lines of gathered values, each of `w` bytes (R380). -/
def gatherLines (w : Nat) (vs : List (BitVec 64)) : List Line :=
  let n := 64 / w
  (List.range ((vs.length + n - 1) / n)).map fun j => lineOf (((vs.drop (j * n)).take n).mapIdx fun i v => (i * w, w, v.toNat))
/-- The width of a gathered value. -/
def Desc.gatherWidth (d : Desc) : Nat := if d.asks 5 then 8 else d.width

/-- An aggregate record (R381): RSTAT, the totals, the first gather line. -/
def Desc.record (d : Desc) (rstat : Nat) (t : SvTotal) (gline : Nat) : Line :=
  let ask (i v : Nat) : Nat := if d.asks i then v else 0
  let mm := (d.asks 2 || d.asks 3) && t.mn.isSome
  let sum : Nat := if d.float then (t.fsum.getD 0).toNat else (BitVec.ofInt 128 t.sum).toNat
  lineOf [(0, 4, d.id), (4, 1, rstat), (5, 1, t.fl.toNat), (6, 1, mm.toNat), (8, 8, ask 0 t.count), (16, 16, ask 1 sum),
    (32, 8, ask 2 (t.mn.getD 0).toNat), (40, 8, ask 3 (t.mx.getD 0).toNat), (48, 8, ask 4 t.gath.length), (56, 4, ask 4 gline),
    (60, 4, min t.nan (2 ^ 32 - 1))]

/-- A completion record (R113). -/
def completionLine (seq status done failIdx lines detail fstart fend : Nat) : Line :=
  lineOf [(0, 2, seq), (2, 1, status), (4, 2, done), (6, 2, failIdx), (8, 4, lines), (12, 4, detail), (16, 8, fstart), (24, 8, fend)]

end Sys2Proof.Machine
end

