-- ==== Sys2Proof/Machine/Sieve.lean ====
section
/-! DEFINITION. Submissions, chains and the Sieve units (03, R110 to R113; 11, R353 to R355, R363, R371 to R386). -/

namespace Sys2Proof.Machine

/-! ### Submissions -/

/-- Submission `n`. -/
def Blk.sub (s : Blk) (n : Nat) : Option SvSub := pget s.svSubs n
/-- Submission `n` takes a content. -/
def Blk.setSub (s : Blk) (n : Nat) (x : SvSub) : Blk := { s with svSubs := pset s.svSubs n x }
/-- SV_STAT.RUN (R384). -/
def Blk.svRun (s : Blk) : Nat := (s.svSubs.filter fun x => x.2.st != .queued).length
/-- The register shows it. -/
def Blk.showRun (s : Blk) : Blk := s.setFld F.SV_STAT_RUN s.svRun

/-- A number for a submission, a chain's place in the order of readiness, or a read. -/
def Blk.svTake (s : Blk) : Blk × Nat := ({ s with svNo := s.svNo + 1 }, s.svNo)

/-- Chains of a submission become ready once the earlier chains on their units are done (R371). -/
def Blk.svReady (s : Blk) (n : Nat) : Blk :=
  match s.sub n with
  | none => s
  | some x =>
    (List.range x.chains.length).foldl (fun s i =>
      match s.sub n with
      | none => s
      | some x =>
        match x.chains[i]? with
        | none => s
        | some c =>
          let clear := (x.chains.take i).all fun e => e.st == .done || !(e.units.any c.units.contains)
          if c.st == .waiting && c.ready.isNone && clear then
            let (s, k) := s.svTake
            s.setSub n { x with chains := x.chains.set i { c with ready := some k } }
          else s) s

/-- A key for result line `i` of a submission. -/
def resultKey (n i : Nat) : Nat := n * 2 ^ 32 + i
/-- Line `i` of a result area. -/
def resultAddr (x : SvSub) (i : Nat) : PAddr := lineAddr x.result + BitVec.ofNat 48 (64 * i)

/-- A line of a result area is written, in the class of its segment (R374). -/
def Blk.resultWrite (s : Blk) (n : Nat) (x : SvSub) (i : Nat) (d : Line) : Blk :=
  let a := resultAddr x i
  s.moverJob (.result (resultKey n i)) .wr a (segOwner (s.segWord (segOf a) 0)) d (BitVec.allOnes 64) false

/-- The failure that the completion record names (R375): descriptor slot, DETAIL, STATUS. -/
def SvSub.firstFail (x : SvSub) : Option (Nat × Nat × Nat) :=
  x.fails.foldl (fun m f => match m with | some g => if f.1 < g.1 then some f else m | none => some f) none

/-- The records and gathered values of a submission that has run (R375, R379 to R381), and the descriptors with RSTAT 1.  Gathers are
placed in slot order; one that would pass the result area fails its descriptor. -/
def SvSub.layout (x : SvSub) : List (Nat × Line) × Nat × List (Nat × Nat × Nat) :=
  let ds := x.descs.map descOf
  let n := ds.length
  let rows := ds.mapIdx fun i d =>
    let parts := (x.parts.filter fun p => p.1 == i).map fun p => (p.2.1, p.2.2)
    let sorted := (List.range 32).filterMap fun u => (parts.find? fun p => p.1 == u).map (·.2)
    (i, d, d.total sorted)
  let done (i : Nat) : Bool := (x.chains.find? fun c => decide (c.lo ≤ i) && decide (i < c.lo + c.n)).any (·.st == .done)
  let placed := rows.foldl (fun (acc : List (Nat × Desc × SvTotal × Nat × List Line) × Nat) r =>
    let g := if r.2.1.asks 4 then gatherLines r.2.1.gatherWidth r.2.2.gath else []
    (acc.1 ++ [(r.1, r.2.1, r.2.2, acc.2, g)], acc.2 + g.length)) ([], 1 + n)
  let tooBig := placed.1.filter fun r => done r.1 && !r.2.2.2.2.isEmpty && decide (x.reslim < r.2.2.2.1 + r.2.2.2.2.length)
  let lost (i : Nat) : Bool := tooBig.any fun r =>
    (x.chains.find? fun c => decide (c.lo ≤ i) && decide (i < c.lo + c.n)).any fun c => decide (c.lo ≤ r.1) && decide (r.1 < c.lo + c.n)
  let stat (i : Nat) : Nat := if done i && !lost i then 1 else if x.broken.contains i || lost i then 2 else 0
  let recs := placed.1.map fun r => (1 + r.1, r.2.1.record (stat r.1) r.2.2.1 r.2.2.2.1)
  let gath := (placed.1.map fun r => (r.2.2.2.2.mapIdx fun j l => (r.2.2.2.1 + j, l)).filter fun l => decide (l.1 < x.reslim)).flatten
  (recs ++ gath, ((List.range n).filter fun i => stat i == 1).length, tooBig.map fun r => (x.first + r.1, 0x20, 4))

/-- The result lines of a submission are written when no unit runs it any more (R113, R375); every descriptor has its record, one that was not run
too, where the area has room for the records (R379; log 168). -/
def Blk.svResults (s : Blk) (n : Nat) : Blk :=
  match s.sub n with
  | none => s
  | some x =>
    let allOver := x.chains.all (fun c => c.st == .done || c.st == .failed) || !x.fails.isEmpty
    if x.st == .running && allOver && !(s.svUnits.any fun u => u.2.sub == n) then
      if x.reslim < 1 + x.descs.length then s.setSub n { x with st := .results }
      else
        let l := x.layout
        let s := s.setSub n { x with st := .results, lines := l.1.length, fails := x.fails ++ l.2.2, done := l.2.1 }
        l.1.foldl (fun s r => s.resultWrite n x r.1 r.2) s
    else s

/-- A submission starts: DSUM, the size of its result area, its descriptors (R113, R371, R379). -/
def Blk.svBegin (s : Blk) (n : Nat) : Blk :=
  match s.sub n with
  | none => s
  | some x =>
    let x := { x with st := .running, fstart := s.tb.frame }
    let fail (f : Nat × Nat × Nat) : Blk := (s.setSub n { x with fails := [f] }).svResults n
    if !x.fails.isEmpty then (s.setSub n x).svResults n
    else if x.reslim < 1 + x.descs.length then fail (0, 0x20, 4)
    else
      match s.submissionFault x.port x.descs with
      | some (i, k) => fail (x.first + i, k, 3)
      | none =>
        let ds := x.descs.map descOf
        let chains := (chainsOf 0 ds).map fun c =>
          let cs := s.chSet (((ds.drop c.1).head?.map (·.col)).getD 0)
          let us := (List.range (2 ^ cs.1)).map (cs.2 + ·)
          ({ lo := c.1, n := c.2, units := us, left := us, st := .waiting, ready := none } : SvChain)
        (s.setSub n { x with chains := chains }).svReady n

/-- A submission that waits begins when fewer than 64 run (R378). -/
def Blk.svAdmit (s : Blk) : Blk :=
  match s.svSubs.find? fun x => x.2.st == .queued with
  | some (n, _) => if s.svRun < 64 then s.svBegin n else s
  | none => s

/-- The check of a doorbell (R112): `none` where it is ignored, an ERR_CODE where it is refused. -/
def Blk.bellFault (s : Blk) (d : Doorbell) : Option (Option Nat) :=
  let q := (pget s.cmdQ (64 * d.seg + d.q)).getD ⟨0xFFFF, false⟩
  let seq := BitVec.ofNat 16 (lineFld d.line 0 2)
  let first := lineFld d.line 2 2
  let count := lineFld d.line 4 2
  let res := lineFld d.line 8 6
  if seq = q.lastSeq then some none
  else if seq ≠ q.lastSeq + 1 then some (some 0x30)
  else if q.running then some (some 0x31)
  else if first = 0 ∨ 16383 < first ∨ count = 0 ∨ 1024 < count ∨ 16383 < first + count - 1 then some (some 0x32)
  else if !s.scanSeg d.port (res / 2 ^ 36) || !inSegment (res / 64 * 64) (64 * lineFld d.line 16 4) then some (some 0x33)
  else none

/-- The engine takes the oldest doorbell posted to its bay (R110, R112, R113). -/
def Blk.takeBell (s : Blk) (b : Nat) (lines : List (Option Line)) : Blk :=
  match s.bells.find? fun d => d.bay == b with
  | none => s
  | some d =>
    if s.rbit F.EV_BAYSTOP_off b then s
    else
      let s := ({ s with bells := s.bells.erase d }).stir b
      match s.bellFault d with
      | some none => s
      | some (some code) => s.hpEvt d.port false code d.idx d.seg
      | none =>
        let seq := BitVec.ofNat 16 (lineFld d.line 0 2)
        let count := lineFld d.line 4 2
        let got := (List.range count).map fun i => (lines.getD i none)
        let descs := got.map fun l => l.getD 0
        let dsum := crc32c (descs.map (bytesLE 64)).flatten
        let fails :=
          if got.any Option.isNone then [(0, 0, 5)] else if dsum.toNat ≠ lineFld d.line 20 4 then [(0, 0, 2)] else []
        let s := { s with cmdQ := pset s.cmdQ (64 * d.seg + d.q) ⟨seq, true⟩ }
        let (s, n) := s.svTake
        let x : SvSub :=
          { bay := b, port := d.port, seg := d.seg, q := d.q, seq := seq, first := lineFld d.line 2 2,
            result := BitVec.ofNat 48 (lineFld d.line 8 6), reslim := lineFld d.line 16 4, descs := descs, chains := [], parts := [],
            broken := [], fails := fails, fstart := 0, st := .queued, lines := 0, done := 0 }
        (s.setSub n x).svAdmit.showRun

/-! ### Units -/

/-- The descriptors of a unit's chain. -/
def Blk.unitDescs (s : Blk) (u : SvUnit) : List Desc :=
  match s.sub u.sub with
  | some x =>
    (match x.chains[u.chain]? with
     | some c => ((x.descs.drop c.lo).take c.n).map descOf
     | none => [])
  | none => []
/-- The first descriptor slot of a unit's chain. -/
def Blk.unitSlot (s : Blk) (u : SvUnit) : Nat :=
  match s.sub u.sub with
  | some x => x.first + ((x.chains[u.chain]?).map (·.lo)).getD 0
  | none => 0

/-- The address of a read. -/
def svAddr (ds : List Desc) (u : SvUnit) : SvRead → Nat
  | .set i j => ((ds[i]?).map (·.set)).getD 0 + 64 * j
  | .nulls j => ((ds[u.d]?).map (·.nulls)).getD 0 + 64 * j
  | .col => ((ds[u.d]?).map (·.col)).getD 0 + 64 * u.line

/-- The channel of a line (R116, R353). -/
def Blk.lineOn (s : Blk) (a : Nat) : Nat := (linePlace (s.segWord (a / 2 ^ 36) 1) (s.segWord (a / 2 ^ 36) 2) (BitVec.ofNat 48 a)).1

/-- A unit issues a read, in class Q and outside R96 (R355, R373, R374). -/
def Blk.svIssue (s : Blk) (b : Nat) (u : SvUnit) (w : SvRead) : Blk :=
  let a := BitVec.ofNat 48 (svAddr (s.unitDescs u) u w)
  let (s, k) := s.svTake
  let s := { s with svUnits := pset s.svUnits b { u with want := some w, no := k } }
  let s := s.setFld (F.SV_UNIT_STAT_SLOT b) (s.unitSlot u + u.d)
  let s := s.request (.sieve b k 0) .rd a (some 3) id
  match s.job s.lastJob with
  | some j => s.go s.lastJob j
  | none => s

/-- A unit is free again. -/
def Blk.unitFree (s : Blk) (b : Nat) : Blk :=
  ({ s with svUnits := pdel s.svUnits b }.setFld (F.SV_UNIT_STAT_BUSY b) 0).stir b

/-- The partial results of a unit go to its submission; the flags of the additions that form part[u] are the unit's too (R368, R369). -/
def Blk.unitParts (s : Blk) (b : Nat) (u : SvUnit) : Blk :=
  let fl := u.accs.foldl (fun (f : BitVec 5) a => f ||| a.2.part.2) 0
  let s := s.hw (F.SV_UNIT_FLAGS_FLAGS b) fun n => (BitVec.ofNat 5 n ||| fl).toNat
  match s.sub u.sub with
  | some x =>
    let lo := ((x.chains[u.chain]?).map (·.lo)).getD 0
    s.setSub u.sub { x with parts := x.parts ++ u.accs.map fun a => (lo + a.1, b, a.2) }
  | none => s

/-- A unit has finished its chain; with the last one the chain is done (R371). -/
def Blk.unitDone (s : Blk) (b : Nat) (u : SvUnit) : Blk :=
  let s := (s.unitParts b u).unitFree b
  match s.sub u.sub with
  | none => s
  | some x =>
    match x.chains[u.chain]? with
    | none => s
    | some c =>
      let left := c.left.filter (· != b)
      let c := { c with left := left, st := if left.isEmpty then .done else c.st }
      ((s.setSub u.sub { x with chains := x.chains.set u.chain c }).svReady u.sub).svResults u.sub

/-- A chain stops in every unit, and its descriptors with work done are failed ones (R375). -/
def Blk.chainStop (s : Blk) (n i : Nat) : Blk :=
  let s := s.svUnits.foldl (fun s x => if x.2.sub = n ∧ x.2.chain = i then (s.unitParts x.1 x.2).unitFree x.1 else s) s
  match s.sub n with
  | none => s
  | some x =>
    match x.chains[i]? with
    | none => s
    | some c =>
      let worked := (x.parts.filter fun p => decide (c.lo ≤ p.1) && decide (p.1 < c.lo + c.n) && decide (0 < p.2.2.lines)).map (·.1)
      s.setSub n { x with broken := x.broken ++ worked, chains := x.chains.set i { c with st := .failed, left := [] } }

/-- A descriptor fails while it runs (R375, R376): place in its chain, DETAIL, STATUS. -/
def Blk.descFails (s : Blk) (u : SvUnit) (d detail status : Nat) : Blk :=
  match s.sub u.sub with
  | none => s
  | some x =>
    let lo := ((x.chains[u.chain]?).map (·.lo)).getD 0
    let s := s.setSub u.sub { x with fails := x.fails ++ [(x.first + lo + d, detail, status)], broken := x.broken ++ [lo + d] }
    (s.chainStop u.sub u.chain).svResults u.sub

/-- The next line of a unit from its position on: descriptor and line, in tile order (R353, R363). -/
def Blk.svNext (s : Blk) (b : Nat) (ds : List Desc) : Nat → SvUnit → Option SvUnit
  | 0, _ => none
  | k + 1, u =>
    match ds[u.d]? with
    | none =>
      let rows := ((ds.head?).map (·.rows)).getD 0
      if (u.tile + 1) * 65536 < rows then
        let n := ((ds.head?).map (·.perLine)).getD 1
        s.svNext b ds k { u with tile := u.tile + 1, d := 0, line := (u.tile + 1) * 65536 / n, nulls := none }
      else none
    | some d =>
      let last := (min d.rows ((u.tile + 1) * 65536) - 1) / d.perLine
      match (List.range 64).find? fun j => decide (u.line + j ≤ last) && s.lineOn (d.col + 64 * (u.line + j)) == b with
      | some j => some { u with line := u.line + j }
      | none =>
        let n := ((ds[u.d + 1]?).map (·.perLine)).getD 1
        s.svNext b ds k { u with d := u.d + 1, line := u.tile * 65536 / n, nulls := none }

/-- The unit goes on from its position: null bitmap, column, or the end of its chain. -/
def Blk.svGo (s : Blk) (b : Nat) (u : SvUnit) : Blk :=
  let ds := s.unitDescs u
  match s.svNext b ds (2 * ds.length + 4) u with
  | none => s.unitDone b u
  | some v =>
    match ds[v.d]? with
    | none => s.unitDone b u
    | some d =>
      let j := v.line * d.perLine / 512
      if d.nulls ≠ 0 ∧ (v.nulls.map fun x => (x.1, x.2.1)) ≠ some (v.d, j) then s.svIssue b v (.nulls j) else s.svIssue b v .col

/-- The IN sets are loaded first, then the columns are read (R373). -/
def Blk.svSets (s : Blk) (b : Nat) (u : SvUnit) (i : Nat) : Blk :=
  let ds := s.unitDescs u
  match ((List.range ds.length).drop i).find? fun k => (ds[k]?).any (·.pkind == 3) with
  | some k => s.svIssue b u (.set k 0)
  | none => s.svGo b u

/-- A chain starts in its units (R371, R378). -/
def Blk.chainStart (s : Blk) (n i : Nat) : Blk :=
  match s.sub n with
  | none => s
  | some x =>
    match x.chains[i]? with
    | none => s
    | some c =>
      match c.st, c.ready with
      | .waiting, some k =>
        let first := s.svSubs.all fun y => y.2.chains.all fun e =>
          !(e.st == .waiting && e.ready.any (· < k) && y.2.fails.isEmpty && e.units.any c.units.contains)
        let free := c.units.all fun u => (pget s.svUnits u).isNone && !s.rbit F.TD_HSTATB_off u && s.bmReady u
        let s := c.units.foldl (fun s u => s.edge u) s
        let awake := c.units.all fun u => !s.rbit F.EV_BAYSTOP_off u
        if s.bit F.SV_CTRL_EN && x.st == .running && x.fails.isEmpty && first && free && awake then
          let s := s.setSub n { x with chains := x.chains.set i { c with st := .running } }
          c.units.foldl (fun s u =>
            let accs := (List.range c.n).map fun d => (d, SvAcc.zero)
            let x : SvUnit := { sub := n, chain := i, tile := 0, d := 0, line := 0, sets := [], nulls := none, want := none, no := 0, accs := accs }
            (((s.setFld (F.SV_UNIT_STAT_BUSY u) 1).stir u).svSets u x 0)) s
        else s
      | _, _ => s

/-! ### Lines in a unit -/

/-- The word of a unit's work area that holds the selection bit of a row (R383). -/
def Blk.selWord (s : Blk) (b r : Nat) : Nat := s.fld (F.SV_UNIT_CTRL_WBASE b) * 0x2000 + r % 65536 / 16

/-- The first word of the IN set of descriptor `i` of a chain in a unit's work area, which has room for sixteen beside the selection (R383);
which words of the area hold what is the model's choice (log 169). -/
def Blk.setPlace (s : Blk) (b : Nat) (ds : List Desc) (i : Nat) : Option Nat :=
  let q := ((ds.take i).filter (·.pkind == 3)).length
  if q < 16 then some (s.selWord b 0 + 4096 + 256 * q) else none

/-- Line `j` of the IN set of descriptor `i` comes into the work area (R373, R383). -/
def State.setLine (s : State) (b : Nat) (ds : List Desc) (u : SvUnit) (i j : Nat) (d : Line) : State × SvUnit :=
  match s.blk.setPlace b ds i with
  | some p => (s.bmWrites b none ((lineWords d).mapIdx fun m v => (p + 32 * j + m, v)) 10, u)
  | none => (s, { u with sets := pset u.sets i ((pget u.sets i).getD 0 ||| (d.setWidth 4096 <<< (512 * j))) })

/-- The words of its IN set that the values of a line ask for, as a set; `none` where one is uncorrectable (R362, R377). -/
def State.setRead (s : State) (b : Nat) (ds : List Desc) (u : SvUnit) (d : Desc) (vs : List Nat) : State × Option (BitVec 4096) :=
  match d.pkind == 3, s.blk.setPlace b ds u.d with
  | true, some p =>
    let xs := (vs.map fun v => d.int v - d.int d.k1).filter fun x => decide (0 ≤ x) && decide (x ≤ 4095)
    let ws := (xs.map fun x => x.toNat / 16).eraseDups
    (match s.bmReads b 10 (ws.map (p + ·)) with
     | (t, some l) => (t, some ((ws.zip l).foldl (fun (m : BitVec 4096) x => m ||| (BitVec.setWidth 4096 x.2 <<< (16 * (x.1 : Nat)))) (0 : BitVec 4096)))
     | (t, none) => (t, none))
  | _, _ => (s, some ((pget u.sets u.d).getD 0))

/-- An uncorrectable error in a unit's work area fails the descriptor that it runs (R377). -/
def State.areaFails (s : State) (b : Nat) (u : SvUnit) : State :=
  let k := s.blk.raise 44 (some (0x40, b * 2 ^ 24 + s.blk.unitSlot u + u.d))
  { s with blk := k.descFails u u.d 0x40 6 }

/-- The selection of a new tile starts with every bit 0 (R363). -/
def State.selClear (s : State) (b : Nat) : State :=
  let lo := s.blk.selWord b 0
  let inSel (w : Nat) : Bool := decide (lo ≤ w) && decide (w < lo + 4096)
  let errs := s.blk.bmErr.filter fun e => !(e.1 / 2 ^ 19 == b && inSel (e.1 % 2 ^ 19))
  let ctxs := s.blk.ctxs.map fun c => if c.1 / 64 = b ∧ c.2.resv.any inSel then (c.1, { c.2 with resv := none }) else c
  { s with
    mem := s.mem.filter fun c => !(c.1 / 2 ^ 20 == b && inSel (c.1 % 2 ^ 20 / 2)),
    blk := { s.blk with bmErr := errs, ctxs := ctxs } }

/-- The rows of a line combine with the selection, one word of the work area after the other; `none` where a word is uncorrectable. -/
def State.selRows (s : State) (b comb : Nat) : List (Nat × Bool) → State × Option (List Bool)
  | [] => (s, some [])
  | (r, p) :: rest =>
    let w := s.blk.selWord b r
    match s.bmRead b w 10 with
    | (t, none) => (t, none)
    | (t, some v) =>
      let old := v.getLsbD (r % 16)
      let new := if comb = 0 then p else if comb = 1 then old && p else old || p
      let m : Half := 1#16 <<< (r % 16)
      let t := if new = old then t else t.bmWrite b w (if new then v ||| m else v &&& ~~~m) none 10
      match t.selRows b comb rest with
      | (t, some l) => (t, some (new :: l))
      | (t, none) => (t, none)

/-- A line enters the unit and is evaluated (R363, R382). -/
def State.svEval (s : State) (b : Nat) (u : SvUnit) (d : Desc) (data : Line) : State :=
  let n := d.perLine
  let rs := ((List.range n).map fun i => (u.line * n + i, lineFld data (i * d.width) d.width)).filter fun x => decide (x.1 < d.rows)
  let null (r : Nat) : Bool := d.nulls != 0 && (u.nulls.any fun x => x.2.2.getLsbD (r % 512))
  let t0 := u.tile * 65536 / n
  let first := u.d == 0 && decide (u.line < t0 + 64) && (List.range (u.line - t0)).all fun j => s.blk.lineOn (d.col + 64 * (t0 + j)) != b
  let s := if first then s.selClear b else s
  match s.setRead b (s.blk.unitDescs u) u d ((rs.filter fun x => !null x.1).map (·.2)) with
  | (s, none) => s.areaFails b u
  | (s, some set) =>
  match s.selRows b d.combine (rs.map fun x => (x.1, d.passes x.2 (null x.1) set)) with
  | (t, none) => t.areaFails b u
  | (t, some sel) =>
    let rows := List.zipWith (fun x (p : Bool) => (x.1, if p && !null x.1 then some x.2 else none)) rs sel
    let a := (pget u.accs u.d).getD SvAcc.zero
    let a' := d.aggLine { a with fl := 0 } rows
    let k := t.blk.bump (F.SV_UNIT_LINES_COUNT b)
    let k := k.hw (F.SV_UNIT_FLAGS_FLAGS b) fun n => (BitVec.ofNat 5 n ||| a'.fl).toNat
    let u := { u with accs := pset u.accs u.d { a' with fl := a.fl ||| a'.fl }, line := u.line + 1, want := none }
    let k := { k with svUnits := pset k.svUnits b u }
    let own := 1 + ((k.sub u.sub).map fun x => x.descs.length).getD 0 + (gatherLines d.gatherWidth a'.gath).length
    if d.asks 4 && (k.sub u.sub).any fun x => decide (x.reslim < own) then { t with blk := k.descFails u u.d 0x20 4 }
    else { t with blk := k.svGo b u }

/-- The line that a unit waits for has come (R354, R374). -/
def State.svLine (s : State) (b : Nat) : State :=
  match pget s.blk.svUnits b with
  | none => s
  | some u =>
    match u.want, s.blk.gotOf (.sieve b u.no 0) with
    | some w, some r =>
      if s.blk.rbit F.TD_HSTATB_off b || s.blk.rbit F.EV_BAYSTOP_off b || !s.blk.bmReady b || !s.blk.gateOpen (40 + b) then s
      else
        let ds := s.blk.unitDescs u
        let di := match w with | .set i _ => i | _ => u.d
        let k := (s.blk.dropGot (.sieve b u.no 0)).stir b
        let k := match w with | .set _ _ => k | _ => k.spend (40 + b)
        let seg := svAddr ds u w / 2 ^ 36
        match goodLine r with
        | none =>
          let code := match r with | .line _ _ => 0x10 | _ => if segMIRR (k.segWord seg 0) then 0x12 else 0x11
          let k := (k.bump (F.SV_UNIT_BAD_COUNT b)).raise 43 (some (code, b * 2 ^ 24 + k.unitSlot u + di))
          { s with blk := k.descFails u di code 5 }
        | some d =>
          match w with
          | .set i j =>
            let (t, u) := ({ s with blk := k } : State).setLine b ds u i j d
            { t with blk := if j < 7 then t.blk.svIssue b u (.set i (j + 1)) else t.blk.svSets b u (i + 1) }
          | .nulls j => { s with blk := k.svIssue b { u with nulls := some (u.d, j, d) } .col }
          | .col =>
            match ds[u.d]? with
            | some x => { s with blk := k }.svEval b u x d
            | none => s
    | _, _ => s

/-! ### The end of a submission -/

/-- The completion record is written once every result line is at the media, and the queue is free (R113). -/
def Blk.svComplete (s : Blk) (n : Nat) : Blk :=
  match s.sub n with
  | none => s
  | some x =>
    let keys := s.got.filterMap fun g => match g.1 with | .result k => (if k / 2 ^ 32 = n then some k else none) | _ => none
    if x.st == .results && decide (x.lines ≤ keys.length) then
      let s := { s with got := s.got.filter fun g => match g.1 with | .result k => k / 2 ^ 32 != n | _ => true }
      let s := { s with svSubs := pdel s.svSubs n, cmdQ := pset s.cmdQ (64 * x.seg + x.q) ⟨x.seq, false⟩ }
      let f := x.firstFail.getD (0, 0, 1)
      let s := s.resultWrite n x 0
        (completionLine x.seq.toNat f.2.2 x.done f.1 x.lines f.2.1 x.fstart.toNat s.tb.frame.toNat)
      let s := if f.2.2 = 1 then (s.bump F.SV_CNT_SUB_COUNT).raise 45
        else (s.bump F.SV_CNT_FAIL_COUNT).raise 42 (some (f.2.1, x.bay * 2 ^ 24 + f.1))
      s.svAdmit.showRun.stir x.bay
    else s

/-- Every running submission fails, one whose result lines are being written too (R377). -/
def Blk.svAbort (s : Blk) (detail : Nat) : Blk :=
  s.svSubs.foldl (fun s y =>
    match s.sub y.1 with
    | none => s
    | some x =>
      if x.st == .running then
        let open_ := (List.range x.chains.length).filter fun i => (x.chains[i]?).any fun c => c.st == .running || c.st == .waiting
        let lo := match open_ with | i :: _ => ((x.chains[i]?).map (·.lo)).getD 0 | [] => 0
        let s := s.setSub y.1 { x with fails := x.fails ++ [(x.first + lo, detail, 6)] }
        (open_.foldl (fun s i => if (x.chains[i]?).any (·.st == .running) then s.chainStop y.1 i else s) s).svResults y.1
      else if x.st == .results then s.setSub y.1 { x with fails := x.fails ++ [(x.first, detail, 6)] }
      else s) s

/-- A write of SV_CTRL (R377, R378). -/
def Blk.wrSvCtrl (s : Blk) (v : Word) : Blk :=
  let s := s.setFld F.SV_CTRL_EN (F.SV_CTRL_EN.get v)
  if F.SV_CTRL_ABORT.get v = 1 then s.svAbort 0x31 else s

/-- A write of SV_UNIT_CTRL (R385). -/
def Blk.wrUnitCtrl (s : Blk) (b : Nat) (v : Word) : Blk :=
  if s.bit (F.SV_UNIT_STAT_BUSY b) then s else s.setFld (F.SV_UNIT_CTRL_WBASE b) (min 55 ((F.SV_UNIT_CTRL_WBASE b).get v))

/-- A write of TW_CTRL: a LEAVE that is taken fails the running submissions (R188, R377). -/
def Blk.wrTwLeave (s : Blk) (v : Word) : Blk :=
  let was := s.bit F.TW_CTRL_LEAVE
  let s := s.wrTwCtrl v
  if s.bit F.TW_CTRL_LEAVE && !was then s.svAbort 0x30 else s

/-! ### Commands -/

/-- OPERATOR_CONTROL_WORK (R112). -/
def execOperatorControlWork (dt : Nat) (bay : Bay) (lines : List (Option Line)) (s : State) : Host.Outcome State Fault Refusal :=
  s.run dt fun b => (b.takeBell bay lines).settle
/-- CHAIN_START (R371). -/
def execChainStart (dt sub chain : Nat) (s : State) : Host.Outcome State Fault Refusal := s.run dt fun b => (b.chainStart sub chain).settle
/-- SIEVE_LINE (R382). -/
def execSieveLine (dt : Nat) (bay : Bay) (s : State) : Host.Outcome State Fault Refusal :=
  s.runM dt fun s => let t := s.svLine bay; { t with blk := t.blk.settle }
/-- SUBMISSION_COMPLETE (R113). -/
def execSubmissionComplete (dt sub : Nat) (s : State) : Host.Outcome State Fault Refusal := s.run dt fun b => (b.svComplete sub).settle
/-- SIEVE_ABORT (R377). -/
def execSieveAbort (req : Req) (v : Word) (s : State) : Host.Outcome State Fault Refusal :=
  s.reg fun b => b.gated req F.SV_CTRL_off fun b => (b.wrSvCtrl (force F.SV_CTRL_ABORT v 1)).settle
/-- SIEVE_ENABLE (R378). -/
def execSieveEnable (req : Req) (v : Word) (s : State) : Host.Outcome State Fault Refusal :=
  s.reg fun b => b.gated req F.SV_CTRL_off fun b => (b.wrSvCtrl v).settle
/-- TW_LEAVE (R188). -/
def execTwLeave (req : Req) (v : Word) (s : State) : Host.Outcome State Fault Refusal :=
  s.reg fun b => b.gated req F.TW_CTRL_off fun b => (b.wrTwLeave (force F.TW_CTRL_LEAVE v 1)).settle
/-- Whether a line of a result area is still being written. -/
def Blk.resultsWait (s : Blk) : Bool := s.jobs.any fun x => match x.2.owner with | .result _ => true | _ => false

/-- LEAVE_DRAINED (R188): the completion records are written first (R377). -/
def execLeaveDrained (dt : Nat) (s : State) : Host.Outcome State Fault Refusal :=
  s.run dt fun b => if b.svRun = 0 ∧ !b.resultsWait then b.leaveDrained.settle else b

end Sys2Proof.Machine
end

