-- ==== Sys2Proof/Machine/HostRows.lean ====
section
/-! DEFINITION. The commands of the host ports, of the Media Unit, of the Twin Port and of the fabric (03, 04, 05, 19). -/

namespace Sys2Proof.Machine

/-- A command that writes a register, after which the line accesses settle. -/
def State.wrLine (s : State) (req : Req) (off : Nat) (f : Blk → Blk) : Host.Outcome State Fault Refusal :=
  s.reg fun k => (k.gated req off f).settle

/-! ### Host ports -/

/-- MEMRD (R80). -/
def execMemRd (dt : Nat) (p : Port) (m : M2S) (s : State) : Host.Outcome State Fault Refusal :=
  s.line dt fun k => k.accept p .rd m false 0 0

/-- MEMWR (R80). -/
def execMemWr (dt : Nat) (p : Port) (m : M2S) (poison : Bool) (data : Line) (s : State) :
    Host.Outcome State Fault Refusal :=
  s.line dt fun k => k.accept p .wr m poison data (BitVec.allOnes 64)

/-- MEMWRPTL (R93). -/
def execMemWrPtl (dt : Nat) (p : Port) (m : M2S) (poison : Bool) (data : Line) (mask : BitVec 64) (s : State) :
    Host.Outcome State Fault Refusal :=
  s.line dt fun k => k.accept p .ptl m poison data mask

/-- HELD_RELEASE (R95). -/
def execHeldRelease (dt : Nat) (p : Port) (idx : Fin 8192) (s : State) : Host.Outcome State Fault Refusal :=
  s.line dt fun k => k.release p idx

/-- RESPONSE_HANDOVER (R95); a failed chip hands over no response (R179). -/
def execResponseHandover (dt : Nat) (p : Port) (idx : Fin 8192) (s : State) : Host.Outcome State Fault Refusal :=
  s.line dt fun k => if (k.ent p idx).st = .resp ∧ k.twState ≠ 7 then k.handover p idx else k

/-- TXN_LIMIT_EXPIRY (R104): at the end of the cycle, unless the entry has reached RESP in it (R440). -/
def execTxnLimitExpiry (dt : Nat) (p : Port) (idx : Fin 8192) (s : State) : Host.Outcome State Fault Refusal :=
  s.run dt fun k => k.atDusk (.txn p idx)

/-- TXN_FAIL (R105): at the end of the cycle, as an expiry (R440). -/
def execTxnFail (dt : Nat) (p : Port) (idx : Fin 8192) (s : State) : Host.Outcome State Fault Refusal :=
  s.run dt fun k => k.atDusk (.txnFail p idx)

/-- LEDGER_SCAN (R97): a corrected entry keeps its content; of those with an uncorrectable error, with the bits it flips, the scan reads the open
ones. -/
def execLedgerScan (dt : Nat) (p : Port) (ce : List (Fin 8192)) (ue : List (Fin 8192 × BitVec 128)) (s : State) :
    Host.Outcome State Fault Refusal :=
  s.line dt fun k => (ue.filter fun x => !ce.contains x.1).foldl (fun (k : Blk) (x : Fin 8192 × BitVec 128) => k.corrupt p x.1 x.2) k

/-- LEDGER_CAPTURE (R114). -/
def execLedgerCapture (req : Req) (p : Port) (v : Word) (s : State) : Host.Outcome State Fault Refusal :=
  s.wrLine req (F.HP_LED_IDX_off p) fun k => k.wrHp p 0x30 v

/-- TXN_LIMIT_WRITE (R104). -/
def execTxnLimitWrite (req : Req) (p : Port) (v : Word) (s : State) : Host.Outcome State Fault Refusal :=
  s.wrLine req (F.HP_TXN_LIMIT_off p) fun k => k.wrHp p 0x28 v

/-- SEGMENT_TABLE_WRITE (R90). -/
def execSegmentTableWrite (req : Req) (seg : BitVec 12) (word : Fin 4) (v : Word) (s : State) :
    Host.Outcome State Fault Refusal :=
  s.wrLine req (segOff seg.toNat word) fun k => k.wrSeg seg.toNat word v

/-- SEGSUM_COMPUTE_DONE (R566). -/
def execSegsumComputeDone (dt : Nat) (s : State) : Host.Outcome State Fault Refusal := s.line dt fun k => k.sumDone

/-! ### Media Unit -/

/-- ISSUE_WINDOW (R66); the walks of the channel go on in its class M windows (R175, R189). -/
def execIssueWindow (dt : Nat) (ch : Chan) (accept : Nat) (parity : Bool) (s : State) : Host.Outcome State Fault Refusal :=
  s.line dt fun k =>
    let (k, owner) := k.window ch accept parity
    if owner = 4 then k.walkStep ch else k

/-- CHANNEL_READ_COMPLETE (R126): the eight interface beats of a line (R121). -/
def execChannelReadComplete (dt : Nat) (ch : Chan) (tag : BitVec 6) (beats : LineBeats) (s : State) :
    Host.Outcome State Fault Refusal :=
  s.line dt fun k => k.readDone ch tag.toNat (ofBeats beats)

/-- FIRST_FAILURE_LOCATION (R129). -/
def execFirstFailureLocation (dt : Nat) (ch : Chan) (s : State) : Host.Outcome State Fault Refusal :=
  s.line dt fun k => k.located ch

/-- CHANNEL_WRITE_ACK (R102). -/
def execChannelWriteAck (dt : Nat) (ch : Chan) (tag : BitVec 6) (s : State) : Host.Outcome State Fault Refusal :=
  s.line dt fun k => k.writeDone ch tag.toNat

/-- CHANNEL_CONTROLLER_ERROR (R134). -/
def execChannelControllerError (dt : Nat) (ch : Chan) (tag : BitVec 6) (s : State) : Host.Outcome State Fault Refusal :=
  s.line dt fun k => k.ctrlError ch tag.toNat

/-- MU_GEOM_WRITE (R119). -/
def execMuGeomWrite (req : Req) (ch : Chan) (v : Word) (s : State) : Host.Outcome State Fault Refusal :=
  s.wrLine req (F.MU_GEOM_off ch) fun k => k.wrMuGeom ch v

/-- DFM_WRITE (R133). -/
def execDfmWrite (req : Req) (ch : Chan) (n : Fin 16) (v : Word) (s : State) : Host.Outcome State Fault Refusal :=
  s.wrLine req (F.MU_DFM_off ch n) fun k => k.wrDfm ch n v

/-- POISON_LIST_CAPTURE (R153). -/
def execPoisonListCapture (req : Req) (ch : Chan) (v : Word) (s : State) : Host.Outcome State Fault Refusal :=
  s.wrLine req (F.MU_PL_IDX_off ch) fun k => k.wrPlIdx ch v

/-- POISON_LIST_REMOVE (R153). -/
def execPoisonListRemove (req : Req) (ch : Chan) (v : Word) (s : State) : Host.Outcome State Fault Refusal :=
  s.wrLine req (F.MU_PL_HI_off ch) fun k => k.wrPlHi ch v

/-- FENCE_SET (R136). -/
def execFenceSet (req : Req) (ch : Chan) (v : Word) (s : State) : Host.Outcome State Fault Refusal :=
  s.wrLine req (F.MU_CTRL_off ch) fun k => k.wrMuCtrl ch (force (F.MU_CTRL_FENCE ch) v 1)

/-- FENCE_CLEAR (R136). -/
def execFenceClear (req : Req) (ch : Chan) (v : Word) (s : State) : Host.Outcome State Fault Refusal :=
  s.wrLine req (F.MU_CTRL_off ch) fun k => k.wrMuCtrl ch (force (F.MU_CTRL_FENCE ch) v 0)

/-- MNT_GO (R137). -/
def execMntGo (req : Req) (ch : Chan) (v : Word) (s : State) : Host.Outcome State Fault Refusal :=
  s.wrLine req (F.MU_MNT_CTRL_off ch) fun k => k.wrMntCtrl ch (force (F.MU_MNT_CTRL_GO ch) v 1)

/-- MNT_ABORT (R137). -/
def execMntAbort (req : Req) (ch : Chan) (v : Word) (s : State) : Host.Outcome State Fault Refusal :=
  s.wrLine req (F.MU_MNT_CTRL_off ch) fun k => k.wrMntCtrl ch (force (F.MU_MNT_CTRL_ABORT ch) v 1)

/-- CHANNEL_RETIRE (R568). -/
def execChannelRetire (req : Req) (ch : Chan) (v : Word) (s : State) : Host.Outcome State Fault Refusal :=
  s.wrLine req (F.MU_RET_CTRL_off ch) fun k =>
    k.wrRetCtrl ch (force (F.MU_RET_CTRL_ARM ch) (force (F.MU_RET_CTRL_MODE ch) v 1) 1)

/-- CHANNEL_RETURN (R568). -/
def execChannelReturn (req : Req) (ch : Chan) (v : Word) (s : State) : Host.Outcome State Fault Refusal :=
  s.wrLine req (F.MU_RET_CTRL_off ch) fun k =>
    k.wrRetCtrl ch (force (F.MU_RET_CTRL_ARM ch) (force (F.MU_RET_CTRL_MODE ch) v 0) 1)

/-- CRYPTO_RESULT (R405). -/
def execCryptoResult (dt : Nat) (id : Nat) (status : BitVec 4) (data : Line) (s : State) :
    Host.Outcome State Fault Refusal :=
  s.line dt fun k => k.cryptDone id status data

/-- FABRIC_MESSAGE (R21): a line whose check value does not match is rejected, and no more: the spec gives a link error of a fabric port no
answer, counter or event (log 146). -/
def execFabricMessage (dt : Nat) (fport : BitVec 4) (m : FabMsg) (s : State) : Host.Outcome State Fault Refusal :=
  s.line dt fun k =>
    match m with
    | .req r => if k.remReqOk r then k.remReq (some fport) r else k
    | .rsp r => if k.rspOk r then k.remGot r else k

/-! ### Twin Port -/

/-- HELLO (R181). -/
def execHello (dt : Nat) (h : TwHdr) (m : HelloMsg) (s : State) : Host.Outcome State Fault Refusal :=
  s.line dt fun k => k.rxHello h m

/-- BCN (R182). -/
def execBcn (dt : Nat) (h : TwHdr) (frame : FrameIx) (ver : Word) (state : BitVec 3) (s : State) :
    Host.Outcome State Fault Refusal :=
  s.line dt fun k => k.onMsg h (fun _ => true) fun k => k.rxBcn frame ver state

/-- KEEP (R177). -/
def execKeep (dt : Nat) (h : TwHdr) (s : State) : Host.Outcome State Fault Refusal :=
  s.line dt fun k => k.onMsg h (fun _ => true) id

/-- LCPY (R160). -/
def execLcpy (dt : Nat) (h : TwHdr) (c : LedCopy) (s : State) : Host.Outcome State Fault Refusal :=
  s.line dt fun k => k.onMsg h (fun k => k.lcpyOk c) (fun k => k.rxLcpy c) (segOf c.addr)

/-- LACK (R160). -/
def execLack (dt : Nat) (h : TwHdr) (p : Port) (idx : Fin 8192) (s : State) : Host.Outcome State Fault Refusal :=
  s.line dt fun k => k.onMsg h (fun _ => true) fun k =>
    if (k.ent p idx).copied then k.setEnt p idx { k.ent p idx with mled := true } else k

/-- LFREE (R160). -/
def execLfree (dt : Nat) (h : TwHdr) (p : Port) (idx : Fin 8192) (s : State) : Host.Outcome State Fault Refusal :=
  s.line dt fun k => k.onMsg h (fun _ => true) fun k =>
    { k with tw := { k.tw with shadow := pdel k.tw.shadow (ledKey p idx) } }

/-- WRQ (R165): rejected when the line that it commits is not held or does not match its check value (R21). -/
def execWrq (dt : Nat) (h : TwHdr) (addr : PAddr) (ref : OriginRef) (stamp : FrameIx) (mta : Word) (merged : Option Line)
    (s : State) : Host.Outcome State Fault Refusal :=
  s.line dt fun k =>
    k.onMsg h (fun k => match k.wrqData ref merged with
      | some d => k.lineOk addr d (mCheck mta)
      | none => false)
    (fun k => k.rxWrq addr ref stamp mta ((k.wrqData ref merged).getD 0)) (segOf addr)

/-- ACK (R167). -/
def execAck (dt : Nat) (h : TwHdr) (ref : OriginRef) (stamp : FrameIx) (s : State) : Host.Outcome State Fault Refusal :=
  s.line dt fun k => k.onMsg h (fun _ => true) fun k => k.rxAck ref stamp

/-- NAK_LATE (R166). -/
def execNakLate (dt : Nat) (h : TwHdr) (ref : OriginRef) (frame : FrameIx) (s : State) :
    Host.Outcome State Fault Refusal :=
  s.line dt fun k => k.onMsg h (fun _ => true) fun k => k.rxNakLate ref frame

/-- NAK_LINK (R159). -/
def execNakLink (dt : Nat) (h : TwHdr) (msg : Nat) (s : State) : Host.Outcome State Fault Refusal :=
  s.line dt fun k => k.gotNakLink h msg

/-- MRD (R174). -/
def execMrd (dt : Nat) (h : TwHdr) (addr : PAddr) (copy : Bool) (s : State) : Host.Outcome State Fault Refusal :=
  s.line dt fun k => k.onMsg h (fun _ => true) fun k => k.rxMrd addr copy

/-- MRS (R174). -/
def execMrs (dt : Nat) (h : TwHdr) (addr : PAddr) (copy : Option (Line × Word)) (s : State) :
    Host.Outcome State Fault Refusal :=
  s.line dt fun k =>
    k.onMsg h (fun k => match copy with
      | some (d, m) => k.lineOk addr d (mCheck m)
      | none => true)
    (fun k => k.rxMrs addr copy) (segOf addr)

/-- RCP (R172). -/
def execRcp (dt : Nat) (h : TwHdr) (addr : PAddr) (data : Line) (mta : Word) (s : State) :
    Host.Outcome State Fault Refusal :=
  s.line dt fun k =>
    let bad := k.twLive && (h.err || !k.lineOk addr data (mCheck mta))
    let k := if bad then k.rsyGot (lineAddr addr) false else k
    k.onMsg h (fun k => k.lineOk addr data (mCheck mta)) (fun k => k.rxRcp addr data mta) (segOf addr)

/-- VRQ (R175). -/
def execVrq (dt : Nat) (h : TwHdr) (addr : PAddr) (mta crc : Word) (s : State) : Host.Outcome State Fault Refusal :=
  s.line dt fun k => k.onMsg h (fun _ => true) fun k => k.rxVrq addr mta crc

/-- FWD (R158). -/
def execFwd (dt : Nat) (h : TwHdr) (r : RemReq) (s : State) : Host.Outcome State Fault Refusal :=
  s.line dt fun k => k.onMsg h (fun k => k.remReqOk r) (fun k => k.remReq none r) (segOf r.addr)

/-- FWR (R158). -/
def execFwr (dt : Nat) (h : TwHdr) (r : RemRsp) (s : State) : Host.Outcome State Fault Refusal :=
  s.line dt fun k => k.onMsg h (fun k => k.rspOk r) (fun k => k.remGot r) (k.rspSeg r)

/-- BYE (R188): the partner that leaves asserts TW_FAIL_N next (R179). -/
def execBye (dt : Nat) (h : TwHdr) (s : State) : Host.Outcome State Fault Refusal :=
  s.line dt fun k => k.onMsg h (fun _ => true) id

/-- MIRROR_GEN_READ_COMPLETE (R164). -/
def execMirrorGenReadComplete (dt : Nat) (id : Nat) (s : State) : Host.Outcome State Fault Refusal :=
  s.line dt fun k =>
    match k.job id with
    | some j => if j.phase = .genDone then k.commit id j else k
    | none => k

/-- TW_HB_PULSE (R176). -/
def execTwHbPulse (dt : Nat) (s : State) : Host.Outcome State Fault Refusal := s.line dt fun k => k.hbPulse

/-- TWIN_SILENCE (R177): at the end of the cycle, unless a pulse or a message has come in it (R440). -/
def execTwinSilence (dt : Nat) (s : State) : Host.Outcome State Fault Refusal :=
  s.run dt fun k => k.atDusk .silence

/-- HEARTBEAT_LINE_FAULT (R178). -/
def execHeartbeatLineFault (dt : Nat) (s : State) : Host.Outcome State Fault Refusal := s.line dt fun k => k.hbLineFault

/-- MESSAGE_SILENCE (R178): at the end of the cycle, unless a message has come in it (R440). -/
def execMessageSilence (dt : Nat) (s : State) : Host.Outcome State Fault Refusal :=
  s.run dt fun k => k.atDusk .msgSilence

/-- TW_FAIL_N_ASSERT (R177). -/
def execTwFailNAssert (dt : Nat) (s : State) : Host.Outcome State Fault Refusal :=
  s.line dt fun k => k.twPins { k.tw.pin with fail := true }

/-- TW_PRES_N_DEASSERT (R177). -/
def execTwPresNDeassert (dt : Nat) (s : State) : Host.Outcome State Fault Refusal :=
  s.line dt fun k => k.twPins { k.tw.pin with pres := false }

/-- TWIN_LINK_DOWN (R178). -/
def execTwinLinkDown (dt : Nat) (s : State) : Host.Outcome State Fault Refusal := s.line dt fun k => k.linkLoss

/-- TW_PAIR (R180), with the levels at the Twin Port's pins as they then are: no other command brings a release of TW_FAIL_N, of TW_PRES_N or of
TW_SYNC (log 160). -/
def execTwPair (req : Req) (v : Word) (pin : TwPins) (s : State) : Host.Outcome State Fault Refusal :=
  s.reg fun k => ((k.twPins pin).gated req F.TW_CTRL_off fun k => k.wrTwLeave v).settle

/-- TW_FAIL (R179). -/
def execTwFail (req : Req) (v : Word) (s : State) : Host.Outcome State Fault Refusal :=
  s.wrLine req F.TW_CTRL_off fun k => k.wrTwLeave (force F.TW_CTRL_FAIL v 1)

/-- VERIFY_WALK_START (R175). -/
def execVerifyWalkStart (req : Req) (v : Word) (s : State) : Host.Outcome State Fault Refusal :=
  s.wrLine req F.TW_CTRL_off fun k => k.wrTwLeave (force F.TW_CTRL_VFYGO v 1)

/-- RESYNC_DONE (R189). -/
def execResyncDone (dt : Nat) (s : State) : Host.Outcome State Fault Refusal := s.line dt fun k => k.resynced

end Sys2Proof.Machine
end

