-- ==== Sys2Proof/Machine/Window.lean ====
section
/-! DEFINITION. The control window (17): what each register reads as, what a read and a write of it do, and the window's own
commands. -/

namespace Sys2Proof.Machine

/-! ### Captures (R519) -/

/-- The registers that capture a pair (R519). -/
inductive CapPair where
  | pos | frame | cyc
  deriving DecidableEq, Repr

/-- The low register of a pair at a normal-view offset. -/
def capLow (off : Nat) : Option CapPair :=
  if off = F.SC_TB_POS_LO_off then some .pos
  else if off = F.SC_FRAME_LO_off then some .frame
  else if off = F.BLK_CYC_LO_off then some .cyc
  else none

/-- The high register of a pair at a normal-view offset. -/
def capHigh (off : Nat) : Option CapPair :=
  if off = F.SC_TB_POS_HI_off then some .pos
  else if off = F.SC_FRAME_HI_off then some .frame
  else if off = F.BLK_CYC_HI_off then some .cyc
  else none

/-- The place of a requester's normal or alias capture of a pair. -/
def capKey (req : Req) (ali : Bool) (p : CapPair) : Nat :=
  let r := match req with | .mailbox => 0 | .i3c => 1 | .monitor => 2 | .engine b => 3 + b.val
  let k := match p with | .pos => 0 | .frame => 1 | .cyc => 2
  6 * r + 3 * ali.toNat + k

/-- The value of a pair now: the position, {slot, frame} and the cycle count (R59, R532). -/
def Blk.pairNow (s : Blk) : CapPair → Nat
  | .pos => s.tb.pos.toNat
  | .frame => s.tb.slot.toNat * 2 ^ 36 + s.tb.frame.toNat
  | .cyc => s.cycles

/-- The high register of a pair from a capture (R59, R529). -/
def pairHigh (p : CapPair) (v : Nat) : Word :=
  match p with
  | .frame => BitVec.ofNat 32 (v / 2 ^ 36 * 2 ^ 16 + v / 2 ^ 32 % 16)
  | _ => BitVec.ofNat 32 (v / 2 ^ 32)

/-! ### What registers read as -/

/-- A set of contexts of an engine as a mask. -/
def Blk.ctxMask (s : Blk) (e : Nat) (p : Ctx → Bool) : Nat :=
  (List.range 8).foldl (fun m n => if p (s.ctx (8 * e + n)) then m + 2 ^ n else m) 0

/-- EA_ENG_STAT of the engine on a slot (R224). -/
def Blk.engStat (s : Blk) (e : Nat) : Nat :=
  let run := match s.running e with | some k => 8 + k % 8 | none => 0
  s.ctxMask e (·.st == .wait) * 2 ^ 24 + s.ctxMask e (·.st == .ready) * 2 ^ 16 + (s.locked e).isSome.toNat * 16 + run

/-- EA_CTX_STAT of a context (R224). -/
def ctxStat (c : Ctx) : Nat :=
  (if c.st = .stopped then c.cause.toNat else 0) * 2 ^ 24 + c.attempt.toNat * 2 ^ 10 + c.lock.toNat * 2 ^ 9 +
    (c.sw.getLsbD 12).toNat * 2 ^ 8 + c.priv * 16 + c.st.code

/-- EA_CTX_XCPT of a context (R351). -/
def ctxXcpt (c : Ctx) : Nat :=
  c.ceil.toNat * 2 ^ 30 + c.isOpen.toNat * 2 ^ 29 + c.wclass.toNat * 2 ^ 26 + c.df.toNat * 2 ^ 25 + c.tripled.toNat * 2 ^ 24 +
    c.fdepth.toNat * 2 ^ 16 + c.scause.toNat * 2 ^ 8 + c.lcause.toNat

/-- A register of an engine page, by its page offset (R224, R351, R451); a slot that no engine is mapped to shows no
context. -/
def Blk.viewEng (s : Blk) (b x o : Nat) (v : Word) : Word :=
  if o = 0xC4 then BitVec.ofNat 32 ((s.engWdOf b x).leftAt s.now / 256)
  else if o < 0x24 ∨ o = 0xC0 then v
  else
    match s.onSlot b x with
    | none => 0
    | some e =>
      let c := s.ctx (8 * e + o / 4 % 8)
      if o = 0x24 then BitVec.ofNat 32 (s.engStat e)
      else if 0x40 ≤ o ∧ o < 0x60 then BitVec.ofNat 32 (ctxStat c)
      else if 0x60 ≤ o ∧ o < 0x80 then BitVec.ofNat 32 (c.place.1.toNat * 2 ^ 16 + c.place.2.toNat)
      else if 0x80 ≤ o ∧ o < 0xA0 then BitVec.ofNat 32 (c.en.toNat * 2 ^ 16 + c.pend.toNat)
      else if 0xA0 ≤ o ∧ o < 0xC0 then BitVec.ofNat 32 (ctxXcpt c)
      else BitVec.ofNat 32 (c.wd.leftAt s.now / 256)

/-- A register of the pin-engine page, by its page offset (R471 to R473). -/
def Blk.viewPins (s : Blk) (o : Nat) (v : Word) : Word :=
  if o = 0x24 ∨ o = 0x28 then (s.peFlags.roll (s.now / 4)).base.setWidth 32
  else if 0x100 ≤ o ∧ o < 0x500 then
    let n := (o - 0x100) / 0x20
    let p := s.pe n
    match o % 0x20 with
    | 0x10 => v ||| BitVec.ofNat 32 (p.pc.toNat * 2 ^ 27 + p.bc % 64 * 2 ^ 21 + p.tx.length * 2 ^ 11 + p.rx.length * 2 ^ 7 +
        p.stall.toNat * 64 + (s.bit (F.SB_PE_CTRL_EN n)).toNat)
    | 0x18 => s.peRx n
    | 0x1C => p.cb ++ p.ca
    | _ => v
  else if 0x600 ≤ o ∧ o < 0x800 then
    if s.pins.padIn.getLsbD ((o - 0x600) / 4) then v ||| 0x8000 else v
  else v

/-- A register of the Event Controller's page, by its page offset (R448, R449). -/
def Blk.viewEv (s : Blk) (o : Nat) (v : Word) : Word :=
  if o = 0x88 then (if s.bit F.EV_BLK_WD_ARMED then BitVec.ofNat 32 (s.blkWd.leftAt s.now / 4096) else 0)
  else if 0x100 ≤ o ∧ o < 0x320 then
    let t := (o - 0x100) / 16
    match o % 16 with
    | 0 => s.claimView t
    | 12 => s.tstat t
    | _ => v
  else v

/-- The logical engines of a word of TD_HSTAT that lie in a halted domain (R513). -/
def Blk.hstatWord (s : Blk) (w : Nat) : Word :=
  (List.range 32).foldl (fun m i => if s.halted (32 * w + i) then m ||| (1 <<< i) else m) 0

/-- What the register at a normal-view offset of a page reads as, the high registers of R519 apart; BLK_STAT.PLLLOCK holds its Reset column
in the cycle of the release and follows the PLL from the next (R13, R546; log 4). -/
def Blk.view (s : Blk) (p : Page) (off : Nat) : Word :=
  let v := s.rd off
  let o := off - p.base
  if o < 0x20 ∧ p.kind ≠ .segTable ∧ p.kind ≠ .slotTable ∧ p.kind ≠ .patchWin then v
  else
    match p.kind with
    | .blk =>
      if o = 0x2C then (F.BLK_STAT_PLLLOCK).put v (s.pll && s.now != s.relAt).toNat
      else if o = 0x30 then F.BLK_ATTN_EVT.put v (pget s.ev.released 32).isSome.toNat
      else if o = 0x34 then s.rd F.BLK_ATTN_off &&& 4
      else if o = 0x50 then BitVec.ofNat 32 s.cycles
      else v
    | .td => if 0xA0 ≤ o ∧ o < 0xC0 then s.hstatWord ((o - 0xA0) / 4) else v
    | .ev => s.viewEv o v
    | .sbPower =>
      if o = 0x54 then s.gateWord 0 7 else if o = 0x58 then s.gateWord 8 32 else if o = 0x5C then s.gateWord 40 32 else v
    | .sbPins => s.viewPins o v
    | .cs => if o = 0x20 then s.csVersion else v
    | .scTb =>
      if o = 0x30 then s.tb.pos.setWidth 32
      else if o = 0x50 then s.tb.frame.setWidth 32
      else if 0x100 ≤ o ∧ o < 0x200 then
        (match o % 0x20 with
         | 0 => (s.cmpOf ((o - 0x100) / 0x20)).setWidth 32
         | 4 => ((s.cmpOf ((o - 0x100) / 0x20)) >>> 32).setWidth 32
         | _ => v)
      else v
    | .hp => if o = 0x24 then (F.HP_STAT_LEDUSE p.inst).put v (s.ledUse p.inst) else v
    | .bay =>
      if o = 0x40 then
        (F.CS_BAY_STAT_BADCNT p.inst).put v (s.patchBad.filter fun x => x.1 / 1024 == p.inst).length
      else if o = 0x84 then BitVec.ofNat 32 ((s.bayWdOf p.inst).leftAt s.now / 4096)
      else v
    | .eng => s.viewEng p.inst p.sub o v
    | .patchWin => 0
    | _ => v

/-! ### Reads -/

/-- The RC bits of the register at an offset (R8). -/
def rcMask (off : Nat) : Word := match regRow off with | some r => BitVec.ofNat 32 r.rc | none => 0

/-- What a read returns of a register that shows `v`: its RC fields as they were before this cycle's updates (R11). -/
def Blk.rcBefore (s : Blk) (off : Nat) (v : Word) : Word :=
  match pget s.freshNow.hw off with
  | some x => (v &&& ~~~rcMask off) ||| (x.1 &&& rcMask off)
  | none => v

/-- A normal-view read clears the RC fields of a register, and the updates of this cycle act on the cleared fields (R8, R11). -/
def Blk.rcClear (s : Blk) (off : Nat) : Blk :=
  if rcMask off = 0 then s
  else (s.wr off ((s.rd off &&& ~~~rcMask off) ||| (s.hwBits off &&& rcMask off))).hwSeen off

/-- A normal-view read of ERR_CODE: one that returns a code sets INFOHOLD, and ERR_INFO stays that of the code returned (R524, R525). -/
def Blk.readErrCode (s : Blk) (page : Nat) : Blk :=
  let s :=
    if (F.ERR_CODE_CODE page).get (s.freshOf (F.ERR_CODE_CODE page).off).1 = 0 then s
    else (s.wr (F.ERR_INFO_INFO page).off (s.freshOf (F.ERR_INFO_INFO page).off).1).set1 (F.PAGE_STAT_INFOHOLD page)
  (s.rcClear (F.ERR_CODE_CODE page).off).hwSeen (F.ERR_INFO_INFO page).off

/-- A normal-view read clears the RC fields of a register (R8), claims (R432), removes a received word (R467) and keeps
INFOHOLD (R524). -/
def Blk.readEffect (s : Blk) (p : Page) (off : Nat) : Blk :=
  let o := off - p.base
  let table := p.kind == .segTable || p.kind == .slotTable || p.kind == .patchWin
  if !table && o == 0x14 then s.readErrCode p.base
  else if !table && o == 0x18 then s.clr1 (F.PAGE_STAT_INFOHOLD p.base)
  else if p.kind = .ev ∧ 0x100 ≤ o ∧ o < 0x320 ∧ o % 16 = 0 then (s.claim ((o - 0x100) / 16)).1
  else if p.kind = .sbPins ∧ 0x100 ≤ o ∧ o < 0x500 ∧ o % 0x20 = 0x18 then s.popRx ((o - 0x100) / 0x20)
  else s.rcClear off

/-- A stopped bay whose page is accessed runs before the access (R439). -/
def Blk.wakeFor (s : Blk) (p : Page) : Blk :=
  match p.kind with
  | .bay | .sieve | .eng => s.wakeBay p.inst
  | _ => s

/-- A read of the window at a byte offset, in the normal or the alias view (R9, R12, R516, R517, R519). -/
def Blk.winRead (s : Blk) (req : Req) (off width : Nat) : Blk × Word :=
  let ali := decide (0x200000 ≤ off)
  let o := off % 0x200000
  if width ≠ 32 ∨ off % 4 ≠ 0 then (s.accErr req false 0 off, 0)
  else
    match pageOf o with
    | none => (s.accErr req false 1 off, 0)
    | some p =>
      let s := s.wakeFor p
      let v := match capHigh o with
        | some c => pairHigh c (tget (fun _ => 0) s.caps (capKey req ali c))
        | none => s.rcBefore o (s.view p o)
      let s := match capLow o with
        | some c => { s with caps := tset (fun _ => 0) s.caps (capKey req ali c) (s.pairNow c) }
        | none => s
      let s := if ali then s else s.readEffect p o
      ({ s with winRsp := some ⟨req, v, false⟩ }, v)

/-! ### Writes -/

/-- A write of PAGE_CTRL, with the test raise (R526). -/
def Blk.wrPageCtrl (s : Blk) (p : Page) (v : Word) : Blk :=
  let f : Fld := ⟨p.base + 4, 15, 1⟩
  let s := (s.plainWrite (p.base + 4) v).clr1 f
  let i := (F.PAGE_CTRL_TIDX p.base).get v
  if f.get v = 1 ∧ p.kind.srcMask.testBit i then s.raise (p.firstSrc + i) (some (0xFF, 0)) else s

/-- A write of PAGE_LOCK that the lock itself does not refuse: a claim, a release, or the monitor's word (R527, R528). -/
def Blk.wrPageLock (s : Blk) (req : Req) (p : Page) (v : Word) : Blk :=
  let kind := (F.PAGE_LOCK_KIND p.base).get v
  let id := (F.PAGE_LOCK_ID p.base).get v
  let put (s : Blk) : Blk :=
    (s.setFld (F.PAGE_LOCK_KIND p.base) kind).setFld (F.PAGE_LOCK_ID p.base) (if kind = 1 then id else 0)
  match lockName req with
  | none => put s
  | some me =>
    if kind = 0 then put s
    else if s.fld (F.PAGE_LOCK_KIND p.base) = 0 ∧ me = (kind, id) then put s
    else s.hwSet (F.PAGE_STAT_LOCKREF p.base)

/-- A write of the common registers of a page (R521). -/
def Blk.wrHeader (s : Blk) (req : Req) (p : Page) (o : Nat) (v : Word) : Blk :=
  match o with
  | 0x4 => s.wrPageCtrl p v
  | 0x1C => s.wrPageLock req p v
  | _ => s.plainWrite (p.base + o) v

/-- A write of BLK_CTRL: neither management path clears its own enable (R531). -/
def Blk.wrBlkCtrl (s : Blk) (req : Req) (v : Word) : Blk :=
  let v := match req with
    | .mailbox => force F.BLK_CTRL_MBXWR v 1
    | .i3c => force F.BLK_CTRL_I3CWR v 1
    | _ => v
  s.plainWrite F.BLK_CTRL_off v

/-- A write of BLK_ATTN_SET (R529, R530). -/
def Blk.wrAttnSet (s : Blk) (v : Word) : Blk := if F.BLK_ATTN_SET_SW.get v = 1 then s.hwSet F.BLK_ATTN_SW else s

/-- A write of the Trust and Debug page (R513). -/
def Blk.wrTd (s : Blk) (o : Nat) (v : Word) : Blk :=
  if o = 0x30 then s.wrDbgCtrl v
  else if o = 0x80 then s.wrMonDoor v
  else if o = 0x90 then s.wrCertCtrl v
  else if 0x100 ≤ o ∧ o < 0x200 then s.wrToken ((o - 0x100) / 4) v
  else if 0x800 ≤ o then s.wrCert ((o - 0x800) / 4) v
  else s.plainWrite (0x1000 + o) v

/-- A write of the Event Controller's page (R448 to R450). -/
def Blk.wrEv (s : Blk) (o : Nat) (v : Word) : Blk :=
  if o = 0x20 then
    let s := s.plainWrite F.EV_GCTL_off v
    s.setFld F.EV_GCTL_URG (max 2 (F.EV_GCTL_URG.get v))
  else if o = 0x28 then s.wrEvFrz v
  else if 0x40 ≤ o ∧ o < 0x60 then s.wrPendMask false ((o - 0x40) / 4) v
  else if 0x60 ≤ o ∧ o < 0x80 then s.wrPendMask true ((o - 0x60) / 4) v
  else if o = 0x80 then s.wrBlkWd v
  else if o = 0x84 then s.wrBlkKick v
  else if o = 0x90 then s.wrWdCfg v
  else if o = 0x94 then s.wrWdBay v
  else if o = 0xA0 then s.wrBayclk v
  else if 0x100 ≤ o ∧ o < 0x320 ∧ o % 16 = 4 then s.complete ((o - 0x100) / 16) (v.toNat % 256)
  else if 0x400 ≤ o ∧ o < 0xBD0 then (s.evRewrite ((o - 0x400) / 8) 2).plainWrite (0x2000 + o) v
  else s.plainWrite (0x2000 + o) v

/-- A write of the power page (R483, R484). -/
def Blk.wrPower (s : Blk) (o : Nat) (v : Word) : Blk :=
  if o = 0x20 then s.wrPwrCtrl v
  else if o = 0x30 ∨ o = 0x44 ∨ (0x80 ≤ o ∧ o < 0xC0) then s.wrEnergy (0x3000 + o) v
  else if o = 0x48 then s.wrSlotReq v
  else if o = 0x4C then s.wrSlotOff v
  else if 0x100 ≤ o ∧ o % 8 = 4 then s.wrTokCost ((o - 0x100) / 8) v
  else s.plainWrite (0x3000 + o) v

/-- A write of the pin-engine page (R471 to R473). -/
def Blk.wrPins (s : Blk) (o : Nat) (v : Word) : Blk :=
  if o = 0x20 then s.wrPeGstart v
  else if o = 0x24 then s.flagOps (v.setWidth 16) 0 0
  else if o = 0x28 then s.flagOps 0 (v.setWidth 16) 0
  else if 0x100 ≤ o ∧ o < 0x500 then
    let n := (o - 0x100) / 0x20
    match o % 0x20 with
    | 0x0 => s.wrPeCtrl n v
    | 0xC => s.wrPePins n v
    | 0x14 => s.wrPeTx n v
    | _ => s.plainWrite (0x4000 + o) v
  else if 0x600 ≤ o ∧ o < 0x800 then s.wrPadOwn ((o - 0x600) / 4) v
  else if 0x800 ≤ o then s.wrPeProg ((o - 0x800) / 0x40) (o / 4 % 16) v
  else s.plainWrite (0x4000 + o) v

/-- A write of the schedule's control page (R68, R75, R78). -/
def Blk.wrSc (s : Blk) (o : Nat) (v : Word) : Blk :=
  if o = 0x20 then s.wrTblCtrl v
  else if 0x400 ≤ o ∧ o < 0x800 then s.wrSlotArea (0x6000 + o) v
  else s.plainWrite (0x6000 + o) v

/-- A write of the timebase page (R56 to R60). -/
def Blk.wrScTb (s : Blk) (o : Nat) (v : Word) : Blk :=
  if o = 0x20 then s.wrTbCtrl v
  else if o = 0x28 then s.wrTbTiming v
  else if 0x100 ≤ o ∧ o < 0x200 then
    let n := (o - 0x100) / 0x20
    match o % 0x20 with
    | 0 => s.wrCmpLo n v
    | 4 => s.wrCmpHi n v
    | 8 => s.wrCmpSpc n v
    | 0xC => s.wrCmpOwn n v
    | _ => s.plainWrite (0x7000 + o) v
  else s.plainWrite (0x7000 + o) v

/-- A write of EA_GATE_CFG: a COUNT above 1024 stores 1024 (R350). -/
def Blk.wrGateCfg (s : Blk) (b : Nat) (v : Word) : Blk :=
  (s.plainWrite (F.EA_GATE_CFG_off b) v).setFld (F.EA_GATE_CFG_COUNT b) (min 1024 ((F.EA_GATE_CFG_COUNT b).get v))

/-- A write of EA_XVEC: a CB above 0x06 stores 0x06 (R350). -/
def Blk.wrXvec (s : Blk) (b i : Nat) (v : Word) : Blk :=
  (s.plainWrite (F.EA_XVEC_off b i) v).setFld (F.EA_XVEC_CB b i) (min 6 ((F.EA_XVEC_CB b i).get v))

/-- A write of a bay page other than BM_CTRL (R223, R265, R350, R423, R451). -/
def Blk.wrBay (s : Blk) (b o : Nat) (v : Word) : Blk :=
  if o = 0x20 then s.wrBayCtrl b v
  else if o = 0x2C then s.wrSwap b v
  else if o = 0x50 then s.wrGateCfg b v
  else if 0x60 ≤ o ∧ o < 0x70 then s.wrXvec b ((o - 0x60) / 4) v
  else if o = 0x80 then s.wrBwdKick b v
  else if 0x200 ≤ o ∧ o < 0x300 then s.wrXbufOwn b ((o - 0x200) / 4) v
  else if 0x400 ≤ o ∧ o < 0x600 then s.wrMatch b ((o - 0x400) / 8) (o % 8 == 4) v
  else s.plainWrite (0x40000 + 0x4000 * b + o) v

/-- A write of an engine page (R224, R451). -/
def Blk.wrEng (s : Blk) (b x o : Nat) (v : Word) : Blk :=
  if o = 0x20 then s.wrEngCtrl b x v
  else if 0x80 ≤ o ∧ o < 0xA0 then s.wrLirq b x ((o - 0x80) / 4) v
  else s.plainWrite (0x42000 + 0x4000 * b + 0x200 * x + o) v

/-- A performed normal-view write of a page's register, by its page offset. -/
def Blk.store (s : Blk) (req : Req) (p : Page) (o : Nat) (v : Word) : Blk :=
  match p.kind with
  | .segTable => s.wrSeg (o / 16) (o / 4 % 4) v
  | .slotTable => s.wrSlotArea (p.base + o) v
  | .patchWin => s.wrPatchWin (p.base + o) v
  | k =>
    if o < 0x20 then s.wrHeader req p o v
    else
      match k with
      | .blk =>
        if o = 0x28 then s.wrBlkCtrl req v else if o = 0x34 then s.wrAttnSet v else s.plainWrite o v
      | .td => s.wrTd o v
      | .ev => s.wrEv o v
      | .sbPower => s.wrPower o v
      | .sbPins => s.wrPins o v
      | .cs => if o = 0x24 then s.wrPatchCtrl v else s.plainWrite (0x5000 + o) v
      | .sc => s.wrSc o v
      | .scTb => s.wrScTb o v
      | .hp => s.wrHp p.inst o v
      | .tw => if o = 0x20 then s.wrTwLeave v else s.wrTw o v
      | .sv => if o = 0x20 then s.wrSvCtrl v else s.plainWrite (0xD000 + o) v
      | .mu => s.wrMu p.inst o v
      | .bay => s.wrBay p.inst o v
      | .sieve => if o = 0x20 then s.wrUnitCtrl p.inst v else s.plainWrite (p.base + o) v
      | .eng => s.wrEng p.inst p.sub o v
      | _ => s

/-- The same; BM_CTRL reaches bay memory.  An offset at which no register is defined changes nothing (R517). -/
def State.winStore (s : State) (req : Req) (off : Nat) (v : Word) : State :=
  match pageOf off with
  | none => s
  | some p =>
    let o := off - p.base
    if (regRow off).isNone then s
    else if p.kind = .bay ∧ o = 0x100 then s.wrBmCtrl p.inst v
    else { s with blk := (s.blk.store req p o v).settle }

/-- A write of the window at a byte offset, in the normal or the alias view (R9, R12, R516, R517, R531). -/
def State.winWrite (s : State) (req : Req) (off width : Nat) (v : Word) : State :=
  let o := off % 0x200000
  if width ≠ 32 ∨ off % 4 ≠ 0 then { s with blk := s.blk.accErr req true 0 off }
  else if (pageOf o).isNone then { s with blk := s.blk.accErr req true 1 off }
  else if 0x200000 ≤ off then { s with blk := { s.blk with winRsp := some ⟨req, 0, false⟩ } }
  else s.gatedM req o fun s => s.winStore req o v

/-! ### Commands -/

/-- REGISTER_WRITE (R8). -/
def execRegisterWrite (req : Req) (off : BitVec 22) (width : Nat) (v : Word) (s : State) : Host.Outcome State Fault Refusal :=
  s.regM fun s => s.winWrite req off.toNat width v

/-- CAPTURE_READ (R519): any read of the window. -/
def execCaptureRead (req : Req) (off : BitVec 22) (width : Nat) (s : State) : Host.Outcome State Fault Refusal :=
  s.reg fun b => (b.winRead req off.toNat width).1

/-- The offset of a common register (R521) of the page that holds a normal-view offset; none in a table, which has no
page layout. -/
def headerOff (off o : Nat) : Option Nat :=
  match pageOf off with
  | some p =>
    (match p.kind with
     | .segTable | .slotTable | .patchWin => none
     | _ => some (p.base + o))
  | none => some (off / 0x1000 * 0x1000 + o)

/-- A write of a common register. -/
def State.headerWrite (s : State) (req : Req) (page o : Nat) (v : Word) : State :=
  match headerOff page o with
  | some x => s.winWrite req x 32 v
  | none => s

/-- A read of a common register. -/
def Blk.headerRead (s : Blk) (req : Req) (page o : Nat) : Blk :=
  match headerOff page o with
  | some x => (s.winRead req x 32).1
  | none => s

/-- TEST_RAISE (R526). -/
def execTestRaise (req : Req) (page : BitVec 22) (v : Word) (s : State) : Host.Outcome State Fault Refusal :=
  s.regM fun s => s.headerWrite req page.toNat 4 (v ||| 0x8000)

/-- PAGE_LOCK_WRITE (R527, R528). -/
def execPageLockWrite (req : Req) (page : BitVec 22) (v : Word) (s : State) : Host.Outcome State Fault Refusal :=
  s.regM fun s => s.headerWrite req page.toNat 0x1C v

/-- ERR_CODE_READ (R524). -/
def execErrCodeRead (req : Req) (page : BitVec 22) (s : State) : Host.Outcome State Fault Refusal :=
  s.reg fun b => b.headerRead req page.toNat 0x14

/-- ERR_INFO_READ (R524). -/
def execErrInfoRead (req : Req) (page : BitVec 22) (s : State) : Host.Outcome State Fault Refusal :=
  s.reg fun b => b.headerRead req page.toNat 0x18

/-- ATTN_SET (R530). -/
def execAttnSet (req : Req) (v : Word) (s : State) : Host.Outcome State Fault Refusal :=
  s.reg fun b => b.gated req F.BLK_ATTN_SET_off fun b => b.wrAttnSet (force F.BLK_ATTN_SET_SW v 1)

/-- The attention signal to the mailbox (R530). -/
def Blk.attention (s : Blk) : Bool :=
  s.bit F.BLK_CTRL_ATTNEN && (s.bit F.BLK_ATTN_SW || s.bit F.BLK_ATTN_MON || (pget s.ev.released 32).isSome)

end Sys2Proof.Machine
end

