-- ==== Sys2Proof/Machine/ZaellCtl.lean ====
section
/-! DEFINITION. Zaell control flow and system instructions: branches, jumps, calls and returns (R286, R289, R300, R307), context control
(R301), system registers (R273, R274, R312), traps and returns from exceptions (R331, R341) and gates (R342 to R347). -/

namespace Sys2Proof.Machine

/-- An instruction whose legal encoding is decided beforehand, with its effect on the state. -/
def State.instr (s : State) (c : CtxRef) (f : ZFmt) (legal : Bool) (regs : ZRegs) (body : State → Ctx → State × ZEnd) :
    Host.Outcome State Fault Refusal :=
  .next (s.zaell c (fmtLen f) legal false false regs fun s => body s (s.ctxOf c))

/-- ILLEGAL and another fault, as the end of an instruction. -/
def ZEnd.bad (cause : Nat) : ZEnd := .fault (zfault cause)

/-! ### Branches, jumps, calls -/

/-- BCC (R272, R300). -/
def execZBcc (c : CtxRef) (f : ZFmt) (s : State) : Host.Outcome State Fault Refusal :=
  match f with
  | .sb cond disp =>
    s.instr c f (cond != 15) ⟨[], []⟩ fun s x =>
      (s, if condHolds cond.toNat x.flags = some true then .jump x.cb (x.pc + disp.signExtend 16) 2 else .next 1)
  | _ => s.illegal c f

/-- The condition of an L-J instruction, none where its class is illegal (R307). -/
def ljCond (x : Ctx) (cls m : Nat) : Option Bool :=
  match cls with
  | 0 => condHolds m x.flags
  | 1 => if m < 7 then some (pget x.tags m).isNone else none
  | 2 => if m < 7 then some (pget x.tags m).isSome else none
  | 3 => if m = 0 then some (x.gr 26 == 0) else none
  | _ => none

/-- Kind, condition class and code, target bank and offset of an L-J instruction: far or near; none where a near form names a bank. -/
def ljOf (f : ZFmt) (call : Bool) : Option (Bool × Nat × Nat × Nat × Half) :=
  match f with
  | .lj minor cls tb off =>
    let far := minor.getLsbD 4
    if minor.getLsbD 5 = call ∧ (far = true ∨ tb = 0) then some (far, cls.toNat, minor.toNat % 16, tb.toNat, off) else none
  | _ => none

/-- A far target in a bank above 0x06 raises FETCH when it is fetched (R286, R307). -/
def State.farTo (s : State) (c : CtxRef) (far : Bool) (tb : Nat) : State :=
  if far && decide (6 < tb) then s.setCtx c { s.ctxOf c with farBad := true } else s

/-- JMP (R307). -/
def execZJmp (c : CtxRef) (f : ZFmt) (s : State) : Host.Outcome State Fault Refusal :=
  match ljOf f false with
  | none => s.illegal c f
  | some (far, cls, m, tb, off) =>
    s.instr c f (ljCond (s.ctxOf c) cls m).isSome ⟨if cls = 3 then [(26, 1)] else [], []⟩ fun s x =>
      if ljCond x cls m = some true then (s.farTo c far tb, .jump (if far then BitVec.ofNat 8 tb else x.cb) off 2) else (s, .next 1)

/-- Two words are pushed on the stack of the current level (R289). -/
def State.pushPair (s : State) (c : CtxRef) (x : Ctx) (lo hi : Half) : State :=
  let l := x.priv
  let sp := x.sr (stkReg l 1) - 2
  let s := s.bmWrites (ctxKey c / 64) (some (ctxKey c))
    [(x.stackWord l sp.toNat, lo), (x.stackWord l (sp.toNat + 1), hi)]
  { s with blk := s.blk.onCtx (ctxKey c) fun y => y.setSr (stkReg l 1) sp }

/-- CALL (R289, R307, R323). -/
def execZCall (c : CtxRef) (f : ZFmt) (s : State) : Host.Outcome State Fault Refusal :=
  match ljOf f true with
  | none => s.illegal c f
  | some (far, cls, m, tb, off) =>
    s.instr c f ((ljCond (s.ctxOf c) cls m).isSome && !(s.ctxOf c).lock) ⟨if cls = 3 then [(26, 1)] else [], []⟩ fun s x =>
      if ljCond x cls m = some true then
        if x.stackValid x.priv && x.pushRoom x.priv 2 then
          let odd := (x.sr (stkReg x.priv 1)).getLsbD 0
          ((s.pushPair c x (x.pc + 2) (x.cb.setWidth 16)).farTo c far tb, .jump (if far then BitVec.ofNat 8 tb else x.cb) off (if odd then 4 else 3))
        else (s, .bad 0x0A)
      else (s, .next 1)

/-- An S-N form with both fields fixed, not allowed inside a locked sequence unless `inLock` (R301, R323). -/
def State.snForm (s : State) (c : CtxRef) (f : ZFmt) (n : Nat) (inLock : Bool) (body : State → Ctx → State × ZEnd) :
    Host.Outcome State Fault Refusal :=
  s.instr c f (snOf f 0 == some (n, 0) && (inLock || !(s.ctxOf c).lock)) ⟨[], []⟩ body

/-- RET (R289). -/
def execZRet (c : CtxRef) (f : ZFmt) (s : State) : Host.Outcome State Fault Refusal :=
  s.snForm c f 2 false fun s x =>
    let l := x.priv
    let sp := (x.sr (stkReg l 1)).toNat
    if x.stackValid l && x.popRoom l 2 then
      match s.bmReads (ctxKey c / 64) (s.blk.engReq (ctxKey c)) [x.stackWord l sp, x.stackWord l (sp + 1)] with
      | (s, some [pc, cb]) =>
        if 0x06 < cb.toNat then (s, .bad 0x03)
        else
          let s := { s with blk := s.blk.onCtx (ctxKey c) fun y => y.setSr (stkReg l 1) (BitVec.ofNat 16 (sp + 2)) }
          (s, .jump (cb.setWidth 8) pc (if sp % 2 = 1 then 4 else 3))
      | (s, _) => (s, .ue)
    else (s, .bad 0x0A)

/-- YIELD (R301). -/
def execZYield (c : CtxRef) (f : ZFmt) (s : State) : Host.Outcome State Fault Refusal := s.snForm c f 1 false fun s _ => (s, .yield)
/-- END (R301). -/
def execZEnd (c : CtxRef) (f : ZFmt) (s : State) : Host.Outcome State Fault Refusal := s.snForm c f 3 false fun s _ => (s, .finish)
/-- UNLK (R301, R325): ILLEGAL when LOCK is not held. -/
def execZUnlk (c : CtxRef) (f : ZFmt) (s : State) : Host.Outcome State Fault Refusal :=
  s.snForm c f 4 true fun s x => if x.lock then (s.setCtx c x.unlock, .next 1) else (s, .bad 0x01)

/-! ### System registers -/

/-- The value of a system register (R273). -/
def Blk.sysRead (s : Blk) (k n : Nat) : Half :=
  let x := s.ctx k
  if n = 0x00 then x.sw
  else if n = 0x01 then x.cb ++ x.bk
  else if n = 0x02 then x.ceil.setWidth 16
  else if n = 0x03 then BitVec.ofNat 16 k
  else if n = 0x1A then BitVec.ofNat 16 (15 + 16 * s.straps.toNat)
  else if (0x08 ≤ n ∧ n ≤ 0x13) ∨ n = 0x18 ∨ n = 0x19 ∨ (0x20 ≤ n ∧ n ≤ 0x3F) then x.sr n
  else 0

/-- A write of a system register in cycle `now` at the context's level: the new context, or the fault (R273 to R275); the flags of a result
written in that cycle stay in CPF, and the reserved bits of a window descriptor zero (R280). -/
def Ctx.sysWrite (x : Ctx) (n : Nat) (v : Half) (now : Nat) : Except ZFault Ctx :=
  let p := x.priv
  if n = 0x00 then
    if p = 0 ∧ v.getLsbD 15 ≠ x.sw.getLsbD 15 then .error (zfault 0x02)
    else .ok { x with sw := (x.sw &&& 0x7000) ||| (v &&& 0x8C0F) }
  else if n = 0x01 then .ok { x with bk := v.setWidth 8 }
  else if n = 0x02 ∨ n = 0x03 ∨ n = 0x19 ∨ n = 0x1A then .ok x
  else if n = 0x09 ∧ p = 0 then
    if (x.sr 0x0A).toNat ≤ v.toNat ∧ v.toNat ≤ (x.sr 0x0B).toNat then .ok (x.setSr n v) else .error (zfault 0x0A)
  else if (0x08 ≤ n ∧ n ≤ 0x0B) ∨ (0x20 ≤ n ∧ n ≤ 0x3F) then
    (if p = 0 then .error (zfault 0x02) else .ok (x.setSr n (if 0x20 ≤ n ∧ n % 4 = 3 then v &&& 0xF800 else v)))
  else if 0x0C ≤ n ∧ n ≤ 0x13 then (if p = 2 then .ok (x.setSr n v) else .error (zfault 0x02))
  else if n = 0x18 then
    let fl : Half := if x.cpfHw.1 = now then x.cpfHw.2.setWidth 16 <<< 11 else 0
    .ok (x.setSr n ((v &&& 0xF800) ||| fl ||| (x.sr 0x18 &&& 0x001F)))
  else .error (zfault 0x01)

/-- MFS (R312). -/
def execZMfs (c : CtxRef) (f : ZFmt) (s : State) : Host.Outcome State Fault Refusal :=
  match triRi f 0x00 with
  | none => s.illegal c f
  | some (ra, imm) =>
    s.instr c f (decide (imm.toNat < 256)) ⟨[], [(ra, 1)]⟩ fun s x =>
      (s.setCtx c (x.gw ra (s.blk.sysRead (ctxKey c) imm.toNat)), .next 1)

/-- MTS (R273, R274, R312, R323). -/
def execZMts (c : CtxRef) (f : ZFmt) (s : State) : Host.Outcome State Fault Refusal :=
  match triRi f 0x01 with
  | none => s.illegal c f
  | some (ra, imm) =>
    let n := imm.toNat
    let stack := decide (8 ≤ n) && decide (n ≤ 0x13)
    s.instr c f (decide (n < 256) && !(stack && (s.ctxOf c).lock)) ⟨[(ra, 1)], []⟩ fun s x =>
      match x.sysWrite n (x.gr ra) s.blk.now with
      | .ok y => (s.setCtx c y, .next 1)
      | .error e => (s, .fault e)

/-- SETBK (R312). -/
def execZSetbk (c : CtxRef) (f : ZFmt) (s : State) : Host.Outcome State Fault Refusal :=
  match triRi f 0x02 with
  | none => s.illegal c f
  | some (ra, imm) => s.instr c f (ra == 0 && decide (imm.toNat < 256)) ⟨[], []⟩ fun s x => (s.setCtx c { x with bk := imm.setWidth 8 }, .next 1)

/-- SRM (R312). -/
def execZSrm (c : CtxRef) (f : ZFmt) (s : State) : Host.Outcome State Fault Refusal :=
  match triRi f 0x03 with
  | none => s.illegal c f
  | some (ra, imm) =>
    s.instr c f (ra == 0 && decide (imm.toNat < 4)) ⟨[], []⟩ fun s x =>
      (s.setCtx c { x with sw := (x.sw &&& 0xF3FF) ||| (imm <<< 10) }, .next 1)

/-- EI or DI: PRIV at P (R312). -/
def State.setIe (s : State) (c : CtxRef) (f : ZFmt) (minor : BitVec 6) (on : Bool) : Host.Outcome State Fault Refusal :=
  s.instr c f (triRi f minor == some (0, 0)) ⟨[], []⟩ fun s x =>
    if x.priv = 0 then (s, .bad 0x02)
    else (s.setCtx c { x with sw := (x.sw &&& 0x7FFF) ||| (if on then 0x8000 else 0) }, .next 1)

/-- EI (R312). -/
def execZEi (c : CtxRef) (f : ZFmt) (s : State) : Host.Outcome State Fault Refusal := s.setIe c f 0x04 true
/-- DI (R312). -/
def execZDi (c : CtxRef) (f : ZFmt) (s : State) : Host.Outcome State Fault Refusal := s.setIe c f 0x05 false

/-! ### Traps and returns -/

/-- TRAP: an entry with the software cause; it saves the offset after the instruction, which has completed unless the push fails (R331, R336, R337). -/
def execZTrap (c : CtxRef) (f : ZFmt) (s : State) : Host.Outcome State Fault Refusal :=
  match triRi f 0x06 with
  | none => s.illegal c f
  | some (ra, imm) =>
    s.instr c f (ra == 0 && decide (imm.toNat < 256) && !(s.ctxOf c).lock) ⟨[], []⟩ fun s x =>
      let k := ctxKey c
      let b := if x.pushes (max 1 x.priv) then s.blk.retire k 0 false x.cb x.pc else s.blk
      (State.trapEntry { s with blk := b.onCtx k fun y => { y with pc := x.pc + 2 } } k 0x70 imm.toNat x.checkpoint, .over)

/-- The context that a frame of eight words restores, or the fault of RTE (R341). -/
def Ctx.rte (x : Ctx) (w : List Half) : Except ZFault Ctx :=
  let g (i : Nat) : Half := w.getD i 0
  let kind := (g 3).toNat / 2 ^ 14
  let sw := g 2
  let rsv := sw &&& 0x03F0 != 0 ||
    (if kind = 2 then (g 3).toNat / 2 ^ 10 % 16 != 0
     else (g 3).toNat / 2 ^ 8 % 64 != 0 || g 6 != 0 || (g 7).toNat / 2 ^ 9 != 0)
  if rsv then .error (zfault 0x01)
  else if x.ceil.toNat < sw.toNat / 2 ^ 13 % 4 then .error (zfault 0x16)
  else if 0x06 < (g 1).toNat / 256 then .error (zfault 0x03)
  else
    let l := x.priv
    let y := { x with pc := g 0, cb := (g 1).extractLsb' 8 8, bk := (g 1).setWidth 8, sw := sw }
    let y := y.setSr (stkReg l 1) (x.sr (stkReg l 1) + 8)
    .ok (if kind = 2 then
      (((y.setSr (stkReg l 0) (g 4)).setSr (stkReg l 1) (g 5)).setSr (stkReg l 2) (g 6)).setSr (stkReg l 3) (g 7)
    else { y with df := (g 7).getLsbD 8, fdepth := (g 7).setWidth 8 })

/-- RTE (R341). -/
def execZRte (c : CtxRef) (f : ZFmt) (s : State) : Host.Outcome State Fault Refusal :=
  s.instr c f (triRi f 0x08 == some (0, 0) && !(s.ctxOf c).lock) ⟨[], []⟩ fun s x =>
    let l := x.priv
    let sp := (x.sr (stkReg l 1)).toNat
    if l = 0 then (s, .bad 0x02)
    else if !(x.stackValid l && x.popRoom l 8) then (s, .bad 0x0A)
    else
      match s.bmReads (ctxKey c / 64) (s.blk.engReq (ctxKey c)) ((List.range 8).map fun i => x.stackWord l (sp + i)) with
      | (s, some w) =>
        (match x.rte w with
         | .ok y => (s.setCtx c y, .back (if sp % 2 = 1 then 14 else 10))
         | .error e => (s, .fault e))
      | (s, none) => (s, .ue)

/-! ### Gates -/

/-- A gate entry (R343). -/
structure GateEntry where
  v      : Bool
  kind   : Nat
  level  : Nat
  minp   : Nat
  wclass : Nat
  bayPtr : Bool
  nargs  : Nat
  pw     : Bool
  pr     : Bool
  pmask  : Nat
  epc    : Half
  ebk    : Byte
  ecb    : Byte
  sbank  : Nat
  sbase  : Nat
  stride : Nat
  ceil   : Nat
  rsv    : Bool
  deriving DecidableEq, Repr

/-- The reading of the eight words of an entry; `rsv` when a reserved bit is set (R343). -/
def gateEntry (w : List Half) : GateEntry :=
  let g (i : Nat) : Nat := (w.getD i 0).toNat
  { v := g 0 / 2 ^ 15 == 1, kind := g 0 / 2 ^ 13 % 4, level := g 0 / 2 ^ 11 % 4, minp := g 0 / 2 ^ 9 % 4, wclass := g 0 / 2 ^ 6 % 8,
    bayPtr := g 0 / 2 ^ 5 % 2 == 1, nargs := g 0 % 16, pw := g 1 / 2 ^ 15 == 1, pr := g 1 / 2 ^ 14 % 2 == 1, pmask := g 1 % 2 ^ 12,
    epc := w.getD 2 0, ebk := (w.getD 3 0).extractLsb' 8 8, ecb := (w.getD 3 0).setWidth 8, sbank := g 4 % 256, sbase := g 5,
    stride := g 6, ceil := g 7 % 4,
    rsv := g 0 / 2 ^ 4 % 2 != 0 || g 1 / 2 ^ 12 % 4 != 0 || g 4 / 256 != 0 || g 7 / 4 != 0 }

/-- The arguments that begin a pointer (R343). -/
def GateEntry.ptrs (e : GateEntry) : List Nat := (List.range 12).filter fun i => e.pmask / 2 ^ i % 2 == 1

/-- Every slice of the entry's area is a valid stack (R342, R343). -/
def GateEntry.areaOk (e : GateEntry) : Bool :=
  let top := e.sbase + 64 * e.stride
  decide (16 ≤ e.stride) && ((decide (e.sbank ≤ 6) && decide (top ≤ 0xFFFF)) || (e.sbank == 7 && decide (top < 0x8000)))

/-- A well-formed entry (R343). -/
def GateEntry.ok (e : GateEntry) : Bool :=
  e.v && e.kind != 3 && e.level != 3 && e.minp != 3 && !e.rsv && decide (e.nargs ≤ 12) &&
  e.ptrs.all (fun i => decide (i + 3 ≤ e.nargs)) &&
  (match e.kind with
   | 0 => e.level != 0 && e.wclass == 0 && e.ceil == 0 && decide (e.ecb.toNat ≤ 6) && e.areaOk
   | 1 => e.ceil != 3 && decide (e.level ≤ e.ceil) && decide (e.ecb.toNat ≤ 6) && e.areaOk
   | _ => e.level == 0 && e.wclass == 0 && e.epc == 0 && e.ebk == 0 && e.ecb == 0 && e.sbank == 0 && e.sbase == 0 &&
     e.stride == 0 && e.ceil == 0)

/-- A pointer argument passes (R344, check 5). -/
def Ctx.ptrOk (x : Ctx) (e : GateEntry) (ra i : Nat) : Bool :=
  let g (j : Nat) : Nat := (x.gr (ra + 1 + i + j)).toNat
  let bank := g 0
  let off := g 1
  let len := g 2
  let may (wr : Bool) : Bool := match x.pool bank off wr with | .ok _ => true | .error _ => false
  len != 0 && decide (off + len - 1 ≤ 0xFFFF) &&
  (if bank ≤ 7 then e.bayPtr
   else if 0x10 ≤ bank ∧ bank ≤ 0x7F then (!e.pr || may false) && (!e.pw || may true)
   else false)

/-- The target that CREATE and CLEAR name: its context number, none where the name has other bits (R346, R347). -/
def Ctx.gateTarget (x : Ctx) (k ra : Nat) : Option Nat :=
  let t := (x.gr (ra + 1)).toNat
  if t < 128 ∧ t / 8 % 2 = 0 then some (8 * (8 * (k / 64) + t / 16 % 8) + t % 8) else none

/-- Cycles of a gate (R345, R346). -/
def GateEntry.cycles (e : GateEntry) : Nat := if e.kind = 2 then 20 else 20 + 3 * e.ptrs.length

/-- Checks 3 to 6 of R344 in order. -/
def Blk.gateCheck (s : Blk) (k : Nat) (x : Ctx) (e : GateEntry) (ra : Nat) : Option ZFault :=
  if x.priv < e.minp ∨ (e.kind = 0 ∧ e.level < x.priv) then some (zfault 0x12)
  else if (x.gr ra).toNat ≠ e.nargs then some (zfault 0x13 ((x.gr ra).toNat % 256))
  else
    match e.ptrs.find? fun i => !x.ptrOk e ra i with
    | some i => some (zfault 0x14 i)
    | none =>
      if e.kind = 0 then none
      else
        match x.gateTarget k ra with
        | some t =>
          let want : CtxSt := if e.kind = 1 then .idle else .stopped
          if (s.ctx t).st = want ∧ t % 8 ≠ 0 ∧ t ≠ k then none else some (zfault 0x15)
        | none => some (zfault 0x15)

/-- The CALL gate's last cycle (R345), or STACK_LIMIT; each unaligned pair that it pushes takes a cycle more (R312). -/
def State.gateCall (s : State) (c : CtxRef) (x : Ctx) (e : GateEntry) (n : Nat) : State × ZEnd :=
  let k := ctxKey c
  let l := e.level
  let y := x.loadSlice l e.sbank e.sbase e.stride (k % 64)
  let same := x.sr (stkReg l 0) == y.sr (stkReg l 0) && x.sr (stkReg l 2) == y.sr (stkReg l 2) && x.sr (stkReg l 3) == y.sr (stkReg l 3)
  let y := if same then x else y
  if y.stackValid l && y.pushRoom l 8 then
    let fr := [x.pc + 2, x.cb ++ x.bk, x.sw, BitVec.ofNat 16 (2 * 2 ^ 14 + n), x.sr (stkReg l 0), x.sr (stkReg l 1),
               x.sr (stkReg l 2), x.sr (stkReg l 3)]
    let odd := (y.sr (stkReg l 1)).getLsbD 0
    let (s, y) := s.pushFrame k l y fr
    let y := { y with sw := (y.sw &&& 0x9FFF) ||| (BitVec.ofNat 16 l <<< 13), cb := e.ecb, pc := e.epc, bk := e.ebk }
    (s.setCtx c y, .own (e.cycles + if odd then 4 else 0))
  else (s, .bad 0x0A)

/-- The context that a CREATE gate sets up (R346). -/
def Blk.created (s : Blk) (x : Ctx) (e : GateEntry) (t ra : Nat) : Ctx :=
  let y := s.ctx t
  let y := { y with
    st := .ready, waitFor := none, pc := e.epc, cb := e.ecb, bk := e.ebk, sw := 0x8000 ||| (BitVec.ofNat 16 e.level <<< 13),
    ceil := BitVec.ofNat 2 e.ceil, wclass := BitVec.ofNat 3 e.wclass, fdepth := 0, df := false, tripled := false, attempt := 0,
    lock := false, lockLen := 0, resv := none, lockOut := false, ckpt := none, farBad := false, kept := [], defer := false, u := Micro.reset,
    sys := x.sys.foldl (fun m p => if 0x20 ≤ p.1 then tset (fun _ => 0) m p.1 p.2 else m) (y.sys.filter fun p => decide (p.1 < 0x20)),
    wd := y.wd.reload s.now s.ctxReload }
  let y := (List.range (e.nargs - 1)).foldl (fun (y : Ctx) i => y.gset i (x.gr (ra + 2 + i))) y
  let y := (List.range 4).foldl (fun (y : Ctx) i => y.setSr (stkReg 0 i) 0) y
  (s.xStacks t y).loadSlice e.level e.sbank e.sbase e.stride (t % 64)

/-- The context that a CLEAR gate leaves (R347). -/
def Ctx.cleared (y : Ctx) : Ctx :=
  { y with st := .idle, g := [], gErr := [], parErr := [], sys := y.sys.filter fun p => p.1 == 0x18 || p.1 == 0x19, cause := 0, kept := [], farBad := false,
           fdepth := 0, df := false, tripled := false, lock := false, lockLen := 0, resv := none, lockOut := false, waitFor := none }

/-- GATE through an entry of the named kind (R344 to R347): an instruction whose entry is of another kind is not this command. -/
def State.gate (s : State) (c : CtxRef) (f : ZFmt) (kind : Nat) (act : State → Ctx → GateEntry → (ra n : Nat) → State × ZEnd) :
    Host.Outcome State Fault Refusal :=
  match triRi f 0x07 with
  | none => s.illegal c f
  | some (ra, imm) =>
    let n := imm.toNat
    let k := ctxKey c
    let b := k / 64
    let at_ := s.blk.fld (F.EA_GATE_CFG_BASE b) * 8 + n * 8
    let there := decide (n < s.blk.fld (F.EA_GATE_CFG_COUNT b)) && decide (at_ + 8 ≤ 0x70000)
    let e0 := gateEntry ((List.range 8).map fun i => s.peek b (at_ + i))
    if there && e0.ok && e0.kind != kind then .next s
    else
      s.instr c f (decide (n < 1024) && !(s.ctxOf c).lock) ⟨[(ra, 1)], []⟩ fun s x =>
        if !there then (s, .bad 0x10)
        else
          match s.bmReads b (s.blk.engReq k) ((List.range 8).map fun i => at_ + i) with
          | (s, none) => (s, .ue)
          | (s, some w) =>
            let e := gateEntry w
            if !e.ok then (s, .bad 0x11)
            else
              match (x.places (ra + 1) e.nargs).find? fun i => s.blk.pendingReg k i with
              | some i => (s, .wait (.reg i))
              | none =>
                match s.blk.gateCheck k x e ra with
                | some z => (s, .fault z)
                | none => act s x e ra n

/-- CALL_GATE (R345). -/
def execZCallGate (c : CtxRef) (f : ZFmt) (s : State) : Host.Outcome State Fault Refusal :=
  s.gate c f 0 fun s x e _ n => s.gateCall c x e n

/-- CREATE_GATE (R346). -/
def execZCreateGate (c : CtxRef) (f : ZFmt) (s : State) : Host.Outcome State Fault Refusal :=
  s.gate c f 1 fun s x e ra _ =>
    match x.gateTarget (ctxKey c) ra with
    | some t => ({ s with blk := (s.blk.setCtx t (s.blk.created x e t ra)).select (t / 8) }, .next e.cycles)
    | none => (s, .bad 0x15)

/-- CLEAR_GATE (R347). -/
def execZClearGate (c : CtxRef) (f : ZFmt) (s : State) : Host.Outcome State Fault Refusal :=
  s.gate c f 2 fun s x e ra _ =>
    match x.gateTarget (ctxKey c) ra with
    | some t => ({ s with blk := s.blk.onCtx t Ctx.cleared }, .next e.cycles)
    | none => (s, .bad 0x15)

end Sys2Proof.Machine
end

