-- ==== Sys2Proof/Machine/ZaellMem.lean ====
section
/-! DEFINITION. The memory instructions of Zaell: loads, stores and locked sequences (09, R300, R305, R306, R322 to R328). -/

namespace Sys2Proof.Machine

/-- The bay of a context. -/
def bayOf (c : CtxRef) : Bay := ⟨c.eng.val / 8, by have := c.eng.isLt; omega⟩

/-- Register, base and displacement of LD or ST in S-M (R300). -/
def memSm (f : ZFmt) : Option (Nat × Nat × Half) :=
  match f with
  | .sm ra rb disp => some (ra.toNat, rb.toNat, disp.setWidth 16)
  | _ => none

/-- Whether an access to a bank is illegal inside a locked sequence (R323). -/
def outside (bank : Nat) : Bool := (decide (0x10 ≤ bank) && decide (bank ≤ 0x7F)) || (decide (0xC0 ≤ bank) && decide (bank ≤ 0xDF))

/-- A load of `n` words to register `ra` from {BK, base + displacement} (R204, R268, R278, R283, R305). -/
def State.loadTo (s : State) (c : CtxRef) (x : Ctx) (n ra rb : Nat) (disp : Half) (len : Nat) : State × ZEnd :=
  let k := ctxKey c
  let bank := x.bk.toNat
  let off := (x.gr rb + disp).toNat
  if x.lock && outside bank then (s, .bad 0x01)
  else
    match x.access bank off n false with
    | .error f => (s, .fault f)
    | .ok r =>
      let cyc := 1 + accessCost (k / 64) bank off n r
      match r with
      | .bay =>
        (match s.load k bank off n with
         | (s, some v) => (s.setCtx c ((s.ctxOf c).put ra n v.toNat), .next cyc)
         | (s, none) => (s, .ue))
      | .ctrl o =>
        let (b, v) := s.blk.winRead (.engine (bayOf c)) o 32
        let s := { s with blk := b }
        (s.setCtx c ((s.ctxOf c).put ra 2 v.toNat), .next cyc)
      | .pool a cls => ({ s with blk := s.blk.poolStart k true (x.places ra n) 0 n bank off a cls len }, .issued cyc)

/-- A store of `n` words of register `ra` to {BK, base + displacement} (R204, R205, R268, R278, R283, R305). -/
def State.storeFrom (s : State) (c : CtxRef) (x : Ctx) (n ra rb : Nat) (disp : Half) (len : Nat) : State × ZEnd :=
  let k := ctxKey c
  let bank := x.bk.toNat
  let off := (x.gr rb + disp).toNat
  let v := BitVec.ofNat 64 (x.val ra n)
  if x.lock && outside bank then (s, .bad 0x01)
  else
    match x.access bank off n true with
    | .error f => (s, .fault f)
    | .ok r =>
      let cyc := 1 + accessCost (k / 64) bank off n r
      match r with
      | .bay => (s.store k bank off n v, .next cyc)
      | .ctrl o => (s.winWrite (.engine (bayOf c)) o 32 (v.setWidth 32), .next cyc)
      | .pool a cls => ({ s with blk := s.blk.poolStart k false [] v n bank off a cls len }, .issued cyc)

/-- A load with its operands, illegal where there are none. -/
def State.loadInstr (s : State) (c : CtxRef) (f : ZFmt) (n : Nat) (o : Option (Nat × Nat × Half)) : Host.Outcome State Fault Refusal :=
  match o with
  | none => s.illegal c f
  | some (ra, rb, disp) =>
    s.instr c f (n != 4 || ra % 4 == 0) ⟨[(rb, 1)], [(ra, n)]⟩ fun s x => s.loadTo c x n ra rb disp (fmtLen f)

/-- A store with its operands, illegal where there are none. -/
def State.storeInstr (s : State) (c : CtxRef) (f : ZFmt) (n : Nat) (o : Option (Nat × Nat × Half)) : Host.Outcome State Fault Refusal :=
  match o with
  | none => s.illegal c f
  | some (ra, rb, disp) =>
    s.instr c f (n != 4 || ra % 4 == 0) ⟨[(rb, 1), (ra, n)], []⟩ fun s x => s.storeFrom c x n ra rb disp (fmtLen f)

/-- The fault of a locked access outside bay memory (R306). -/
def lockFault (bank off : Nat) : Option ZFault :=
  if bank = 0xFF then some (afault 0x06 bank off) else if 7 < bank then some (afault 0x05 bank off) else none

/-! ### Instructions -/

/-- LD (R300). -/
def execZLd (c : CtxRef) (f : ZFmt) (s : State) : Host.Outcome State Fault Refusal := s.loadInstr c f 1 (memSm f)
/-- ST (R300). -/
def execZSt (c : CtxRef) (f : ZFmt) (s : State) : Host.Outcome State Fault Refusal := s.storeInstr c f 1 (memSm f)
/-- LDW (R305). -/
def execZLdw (c : CtxRef) (f : ZFmt) (s : State) : Host.Outcome State Fault Refusal := s.loadInstr c f 1 (memLm f 0x00)
/-- STW (R305). -/
def execZStw (c : CtxRef) (f : ZFmt) (s : State) : Host.Outcome State Fault Refusal := s.storeInstr c f 1 (memLm f 0x01)
/-- LDP (R305). -/
def execZLdp (c : CtxRef) (f : ZFmt) (s : State) : Host.Outcome State Fault Refusal := s.loadInstr c f 2 (memLm f 0x02)
/-- STP (R305). -/
def execZStp (c : CtxRef) (f : ZFmt) (s : State) : Host.Outcome State Fault Refusal := s.storeInstr c f 2 (memLm f 0x03)
/-- LDQ (R305). -/
def execZLdq (c : CtxRef) (f : ZFmt) (s : State) : Host.Outcome State Fault Refusal := s.loadInstr c f 4 (memLm f 0x04)
/-- STQ (R305). -/
def execZStq (c : CtxRef) (f : ZFmt) (s : State) : Host.Outcome State Fault Refusal := s.storeInstr c f 4 (memLm f 0x05)

/-- LDLK (R306, R322). -/
def execZLdlk (c : CtxRef) (f : ZFmt) (s : State) : Host.Outcome State Fault Refusal :=
  match memLm f 0x06 with
  | none => s.illegal c f
  | some (ra, rb, disp) =>
    s.instr c f (!(s.ctxOf c).lock) ⟨[(rb, 1)], [(ra, 1)]⟩ fun s x =>
      let bank := x.bk.toNat
      let off := (x.gr rb + disp).toNat
      match lockFault bank off with
      | some z => (s, .fault z)
      | none =>
        (match s.load (ctxKey c) bank off 1 with
         | (s, some v) =>
           let y := (s.ctxOf c).put ra 1 v.toNat
           (s.setCtx c { y with lock := true, resv := some (bayWord bank off), lockPc := x.pc, lockLen := 0 },
            .next (1 + wordCost bank off))
         | (s, none) => (s, .ue))

/-- STUL (R306, R325). -/
def execZStul (c : CtxRef) (f : ZFmt) (s : State) : Host.Outcome State Fault Refusal :=
  match memLm f 0x07 with
  | none => s.illegal c f
  | some (ra, rb, disp) =>
    s.instr c f true ⟨[(rb, 1), (ra, 1)], []⟩ fun s x =>
      let bank := x.bk.toNat
      let off := (x.gr rb + disp).toNat
      match lockFault bank off with
      | some z => (s, .fault z)
      | none =>
        let held := x.lock && x.resv.isSome
        let s := if held then s.store (ctxKey c) bank off 1 ((x.gr ra).setWidth 64) else s
        let y := s.ctxOf c
        (s.setCtx c (y.setFlags { y.flags with z := held }).unlock, .next (1 + wordCost bank off))

end Sys2Proof.Machine
end

