-- ==== Sys2Proof/Machine/ZaellAlu.lean ====
section
/-! DEFINITION. Zaell arithmetic, logic, moves, shifts, field and bit instructions (R299 to R304, R308, R309, R314). -/

namespace Sys2Proof.Machine

/-- What an operation computes: a result of `w` bits from two operands and the flags. -/
abbrev AluFn := (w : Nat) → (a b : Nat) → Nzcv → Nat × Nzcv

/-- Result and unchanged flags; result with the flags of code L (R296). -/
def plain (f : Nat → Nat → Nat → Nat) : AluFn := fun w a b fl => (f w a b, fl)
@[inherit_doc plain] def logic (f : Nat → Nat → Nat → Nat) : AluFn := fun w a b fl => let r := f w a b; (r, logicFlags w r fl)

/-- An S-RR or L-RRR operation (R299, R302): RA := a op b unless the operation has no destination; a quad leaves the flags. -/
def State.tri (s : State) (c : CtxRef) (f : ZFmt) (t : TriSpec) (op : AluFn) : Host.Outcome State Fault Refusal :=
  match triOf f t with
  | none => s.illegal c f
  | some x =>
    let srcs := if t.unary then [(x.a, x.n)] else [(x.a, x.n), (x.b, x.n)]
    s.pure c f true true ⟨srcs, if t.noDst then [] else [(x.dst, x.n)]⟩ (if x.n = 4 then 2 else 1) fun k =>
      let (r, fl) := op (16 * x.n) (k.val x.a x.n) (k.val x.b x.n) k.flags
      let k := if t.noDst then k else k.put x.dst x.n r
      if x.n = 4 then k else k.setFlags fl

/-- An S-RI operation on RA and the immediate, extended by sign (R300). -/
def State.sri (s : State) (c : CtxRef) (f : ZFmt) (reads dst : Bool) (op : AluFn) : Host.Outcome State Fault Refusal :=
  match f with
  | .sri ra imm =>
    s.pure c f true true ⟨if reads then [(ra.toNat, 1)] else [], if dst then [(ra.toNat, 1)] else []⟩ 1 fun k =>
      let (r, fl) := op 16 (k.val ra.toNat 1) (sextTo 8 16 imm.toNat) k.flags
      (if dst then k.put ra.toNat 1 r else k).setFlags fl
  | _ => s.illegal c f

/-- An L-RI operation on `n` words from RA and the immediate (R304). -/
def State.lri (s : State) (c : CtxRef) (f : ZFmt) (minor : BitVec 6) (n : Nat) (reads dst : Bool) (ext : Nat → Nat) (op : AluFn) :
    Host.Outcome State Fault Refusal :=
  match triRi f minor with
  | none => s.illegal c f
  | some (ra, imm) =>
    s.pure c f true true ⟨if reads then [(ra, n)] else [], if dst then [(ra, n)] else []⟩ 1 fun k =>
      let (r, fl) := op (16 * n) (k.val ra n) (ext imm.toNat) k.flags
      (if dst then k.put ra n r else k).setFlags fl

/-- An S-N operation on RA alone with w0[11:8] = 0 and w0[7:4] fixed (R301). -/
def State.snOne (s : State) (c : CtxRef) (f : ZFmt) (n : Nat) (reads : Bool) (op : AluFn) : Host.Outcome State Fault Refusal :=
  match snOf f 0 with
  | none => s.illegal c f
  | some (m, ra) =>
    if m = n then
      s.pure c f true true ⟨if reads then [(ra, 1)] else [], [(ra, 1)]⟩ 1 fun k =>
        let (r, fl) := op 16 (k.val ra 1) 1 k.flags
        (k.put ra 1 r).setFlags fl
    else s.illegal c f

/-- A shift of RA by w0[7:4] + 1, of group `g` (R301). -/
def State.snShift (s : State) (c : CtxRef) (f : ZFmt) (g : BitVec 4) (op : AluFn) : Host.Outcome State Fault Refusal :=
  match snOf f g with
  | none => s.illegal c f
  | some (n, ra) =>
    s.pure c f true true ⟨[(ra, 1)], [(ra, 1)]⟩ 1 fun k =>
      let (r, fl) := op 16 (k.val ra 1) (n + 1) k.flags
      (k.put ra 1 r).setFlags fl

/-! ### Operations -/

/-- Sum and difference, with and without the carry (R271). -/
def aluAdd : AluFn := fun w a b _ => addFlags w a b false
@[inherit_doc aluAdd] def aluAdc : AluFn := fun w a b fl => addFlags w a b fl.c
@[inherit_doc aluAdd] def aluSub : AluFn := fun w a b _ => subFlags w a b true
@[inherit_doc aluAdd] def aluSbb : AluFn := fun w a b fl => subFlags w a b fl.c
/-- 0 − a (R299). -/
def aluNeg : AluFn := fun w a _ _ => subFlags w 0 a true
/-- Signed and unsigned minimum and maximum (R302). -/
def aluMin : AluFn := logic fun w a b => if signed w a ≤ signed w b then a else b
@[inherit_doc aluMin] def aluMax : AluFn := logic fun w a b => if signed w a ≤ signed w b then b else a
@[inherit_doc aluMin] def aluMinu : AluFn := logic fun _ a b => min a b
@[inherit_doc aluMin] def aluMaxu : AluFn := logic fun _ a b => max a b
/-- Magnitude; the most negative value stays and sets V; C unchanged (R302). -/
def aluAbs : AluFn := fun w a _ fl =>
  let r := if signBit w a then (2 ^ w - a) % 2 ^ w else a
  (r, { n := signBit w r, z := r == 0, c := fl.c, v := a == 2 ^ (w - 1) })

/-- A left shift by `d`, the last bit shifted out as C (R301, R309). -/
def shlBy (w a d : Nat) (fl : Nzcv) : Nat × Nzcv :=
  let r := a * 2 ^ d % 2 ^ w
  (r, shiftFlags w r (if d = 0 then fl.c else decide (d ≤ w) && a / 2 ^ (w - d) % 2 == 1))
/-- A logical right shift by `d` (R301, R309). -/
def shrBy (w a d : Nat) (fl : Nzcv) : Nat × Nzcv :=
  let r := a / 2 ^ d
  (r, shiftFlags w r (if d = 0 then fl.c else a / 2 ^ (d - 1) % 2 == 1))
/-- An arithmetic right shift by `d` (R301, R309). -/
def sarBy (w a d : Nat) (fl : Nzcv) : Nat × Nzcv :=
  let e := sextTo w (w + 32) a
  let r := e / 2 ^ d % 2 ^ w
  (r, shiftFlags w r (if d = 0 then fl.c else e / 2 ^ (d - 1) % 2 == 1))
/-- A rotation right by `d` modulo the width: C is the result's top bit; with d = 0 it is unchanged (R309). -/
def rorBy (w a d : Nat) (fl : Nzcv) : Nat × Nzcv :=
  let r := (a / 2 ^ (d % w) + a * 2 ^ (w - d % w)) % 2 ^ w
  (r, shiftFlags w r (if d = 0 then fl.c else signBit w r))
/-- A rotation left: C is the result's lowest bit (R309). -/
def rolBy (w a d : Nat) (fl : Nzcv) : Nat × Nzcv :=
  let r := (a * 2 ^ (d % w) + a / 2 ^ (w - d % w)) % 2 ^ w
  (r, shiftFlags w r (if d = 0 then fl.c else r % 2 == 1))

/-- Bits reversed (R308). -/
def revBits (w a : Nat) : Nat := (List.range w).foldl (fun r i => 2 * r + a / 2 ^ i % 2) 0
/-- 1 when an odd number of bits is set (R308). -/
def parity (w a : Nat) : Nat := (List.range w).foldl (fun r i => (r + a / 2 ^ i) % 2) 0
/-- Leading zeros (R308). -/
def leadZeros (w a : Nat) : Nat := if a = 0 then w else w - 1 - a.log2

/-! ### Register operations (R299, R302) -/

/-- MOV (R299, R302). -/
def execZMov (c : CtxRef) (f : ZFmt) (s : State) : Host.Outcome State Fault Refusal :=
  s.tri c f ⟨0x00, true, false, true, true⟩ (plain fun _ a _ => a)

/-- ADD (R299, R302). -/
def execZAdd (c : CtxRef) (f : ZFmt) (s : State) : Host.Outcome State Fault Refusal :=
  s.tri c f ⟨0x01, false, false, false, true⟩ aluAdd

/-- ADC (R299, R302). -/
def execZAdc (c : CtxRef) (f : ZFmt) (s : State) : Host.Outcome State Fault Refusal :=
  s.tri c f ⟨0x02, false, false, false, true⟩ aluAdc

/-- SUB (R299, R302). -/
def execZSub (c : CtxRef) (f : ZFmt) (s : State) : Host.Outcome State Fault Refusal :=
  s.tri c f ⟨0x03, false, false, false, true⟩ aluSub

/-- SBB (R299, R302). -/
def execZSbb (c : CtxRef) (f : ZFmt) (s : State) : Host.Outcome State Fault Refusal :=
  s.tri c f ⟨0x04, false, false, false, true⟩ aluSbb

/-- CMP (R299, R302). -/
def execZCmp (c : CtxRef) (f : ZFmt) (s : State) : Host.Outcome State Fault Refusal :=
  s.tri c f ⟨0x05, false, true, false, true⟩ aluSub

/-- AND (R299, R302). -/
def execZAnd (c : CtxRef) (f : ZFmt) (s : State) : Host.Outcome State Fault Refusal :=
  s.tri c f ⟨0x06, false, false, true, true⟩ (logic fun _ a b => a &&& b)

/-- OR (R299, R302). -/
def execZOr (c : CtxRef) (f : ZFmt) (s : State) : Host.Outcome State Fault Refusal :=
  s.tri c f ⟨0x07, false, false, true, true⟩ (logic fun _ a b => a ||| b)

/-- XOR (R299, R302). -/
def execZXor (c : CtxRef) (f : ZFmt) (s : State) : Host.Outcome State Fault Refusal :=
  s.tri c f ⟨0x08, false, false, true, true⟩ (logic fun _ a b => a ^^^ b)

/-- ANDN (R299, R302). -/
def execZAndn (c : CtxRef) (f : ZFmt) (s : State) : Host.Outcome State Fault Refusal :=
  s.tri c f ⟨0x09, false, false, true, true⟩ (logic fun w a b => a &&& (2 ^ w - 1 - b))

/-- TST (R299, R302). -/
def execZTst (c : CtxRef) (f : ZFmt) (s : State) : Host.Outcome State Fault Refusal :=
  s.tri c f ⟨0x0A, false, true, false, true⟩ (logic fun _ a b => a &&& b)

/-- NEG (R299, R302). -/
def execZNeg (c : CtxRef) (f : ZFmt) (s : State) : Host.Outcome State Fault Refusal :=
  s.tri c f ⟨0x0B, true, false, false, true⟩ aluNeg

/-- NOT (R299, R302). -/
def execZNot (c : CtxRef) (f : ZFmt) (s : State) : Host.Outcome State Fault Refusal :=
  s.tri c f ⟨0x0C, true, false, true, true⟩ (logic fun w a _ => 2 ^ w - 1 - a)

/-- SEXB (R299). -/
def execZSexb (c : CtxRef) (f : ZFmt) (s : State) : Host.Outcome State Fault Refusal :=
  match f with
  | .srr ra rb =>
    s.pure c f true true ⟨[(rb.toNat, 1)], [(ra.toNat, 1)]⟩ 1 fun k =>
      let (r, fl) := (logic fun _ _ b => sextTo 8 16 (b % 256)) 16 0 (k.val rb.toNat 1) k.flags
      (k.put ra.toNat 1 r).setFlags fl
  | _ => s.illegal c f

/-- ZEXB (R299). -/
def execZZexb (c : CtxRef) (f : ZFmt) (s : State) : Host.Outcome State Fault Refusal :=
  match f with
  | .srr ra rb =>
    s.pure c f true true ⟨[(rb.toNat, 1)], [(ra.toNat, 1)]⟩ 1 fun k =>
      let (r, fl) := (logic fun _ _ b => b % 256) 16 0 (k.val rb.toNat 1) k.flags
      (k.put ra.toNat 1 r).setFlags fl
  | _ => s.illegal c f

/-- SWAB (R299). -/
def execZSwab (c : CtxRef) (f : ZFmt) (s : State) : Host.Outcome State Fault Refusal :=
  match f with
  | .srr ra rb =>
    s.pure c f true true ⟨[(rb.toNat, 1)], [(ra.toNat, 1)]⟩ 1 fun k =>
      let (r, fl) := (logic fun _ _ b => b % 256 * 256 + b / 256) 16 0 (k.val rb.toNat 1) k.flags
      (k.put ra.toNat 1 r).setFlags fl
  | _ => s.illegal c f

/-- MIN (R302). -/
def execZMin (c : CtxRef) (f : ZFmt) (s : State) : Host.Outcome State Fault Refusal :=
  s.tri c f ⟨0x0D, false, false, false, false⟩ aluMin

/-- MAX (R302). -/
def execZMax (c : CtxRef) (f : ZFmt) (s : State) : Host.Outcome State Fault Refusal :=
  s.tri c f ⟨0x0E, false, false, false, false⟩ aluMax

/-- MINU (R302). -/
def execZMinu (c : CtxRef) (f : ZFmt) (s : State) : Host.Outcome State Fault Refusal :=
  s.tri c f ⟨0x0F, false, false, false, false⟩ aluMinu

/-- MAXU (R302). -/
def execZMaxu (c : CtxRef) (f : ZFmt) (s : State) : Host.Outcome State Fault Refusal :=
  s.tri c f ⟨0x10, false, false, false, false⟩ aluMaxu

/-- ABS (R302). -/
def execZAbs (c : CtxRef) (f : ZFmt) (s : State) : Host.Outcome State Fault Refusal :=
  s.tri c f ⟨0x11, true, false, false, false⟩ aluAbs

/-! ### Immediates (R300, R304) -/

/-- MOVI (R300). -/
def execZMovi (c : CtxRef) (f : ZFmt) (s : State) : Host.Outcome State Fault Refusal :=
  s.sri c f false true (plain fun _ _ b => b)

/-- ADDI (R300). -/
def execZAddi (c : CtxRef) (f : ZFmt) (s : State) : Host.Outcome State Fault Refusal :=
  s.sri c f true true aluAdd

/-- CMPI (R300). -/
def execZCmpi (c : CtxRef) (f : ZFmt) (s : State) : Host.Outcome State Fault Refusal :=
  s.sri c f true false aluSub

/-- MOVW (R304). -/
def execZMovw (c : CtxRef) (f : ZFmt) (s : State) : Host.Outcome State Fault Refusal :=
  s.lri c f 0x00 1 false true id (plain fun _ _ b => b)

/-- ADDW (R304). -/
def execZAddw (c : CtxRef) (f : ZFmt) (s : State) : Host.Outcome State Fault Refusal :=
  s.lri c f 0x01 1 true true id aluAdd

/-- CMPW (R304). -/
def execZCmpw (c : CtxRef) (f : ZFmt) (s : State) : Host.Outcome State Fault Refusal :=
  s.lri c f 0x02 1 true false id aluSub

/-- ANDW (R304). -/
def execZAndw (c : CtxRef) (f : ZFmt) (s : State) : Host.Outcome State Fault Refusal :=
  s.lri c f 0x03 1 true true id (logic fun _ a b => a &&& b)

/-- ORW (R304). -/
def execZOrw (c : CtxRef) (f : ZFmt) (s : State) : Host.Outcome State Fault Refusal :=
  s.lri c f 0x04 1 true true id (logic fun _ a b => a ||| b)

/-- XORW (R304). -/
def execZXorw (c : CtxRef) (f : ZFmt) (s : State) : Host.Outcome State Fault Refusal :=
  s.lri c f 0x05 1 true true id (logic fun _ a b => a ^^^ b)

/-- TSTW (R304). -/
def execZTstw (c : CtxRef) (f : ZFmt) (s : State) : Host.Outcome State Fault Refusal :=
  s.lri c f 0x06 1 true false id (logic fun _ a b => a &&& b)

/-- ADDP (R304). -/
def execZAddp (c : CtxRef) (f : ZFmt) (s : State) : Host.Outcome State Fault Refusal :=
  s.lri c f 0x07 2 true true (sextTo 16 32) aluAdd

/-- CMPP (R304). -/
def execZCmpp (c : CtxRef) (f : ZFmt) (s : State) : Host.Outcome State Fault Refusal :=
  s.lri c f 0x08 2 true false (sextTo 16 32) aluSub

/-- MOVP (R304). -/
def execZMovp (c : CtxRef) (f : ZFmt) (s : State) : Host.Outcome State Fault Refusal :=
  s.lri c f 0x09 2 false true (sextTo 16 32) (plain fun _ _ b => b)

/-- MOVH (R304). -/
def execZMovh (c : CtxRef) (f : ZFmt) (s : State) : Host.Outcome State Fault Refusal :=
  s.lri c f 0x0A 2 false true (fun i => i * 2 ^ 16) (plain fun _ _ b => b)

/-! ### Operand-free forms and shifts by an immediate (R301) -/

/-- INC (R301). -/
def execZInc (c : CtxRef) (f : ZFmt) (s : State) : Host.Outcome State Fault Refusal :=
  s.snOne c f 5 true aluAdd

/-- DEC (R301). -/
def execZDec (c : CtxRef) (f : ZFmt) (s : State) : Host.Outcome State Fault Refusal :=
  s.snOne c f 6 true aluSub

/-- CLR (R301). -/
def execZClr (c : CtxRef) (f : ZFmt) (s : State) : Host.Outcome State Fault Refusal :=
  s.snOne c f 7 false (plain fun _ _ _ => 0)

/-- LSLI (R301). -/
def execZLsli (c : CtxRef) (f : ZFmt) (s : State) : Host.Outcome State Fault Refusal :=
  s.snShift c f 1 shlBy

/-- LSRI (R301). -/
def execZLsri (c : CtxRef) (f : ZFmt) (s : State) : Host.Outcome State Fault Refusal :=
  s.snShift c f 2 shrBy

/-- ASRI (R301). -/
def execZAsri (c : CtxRef) (f : ZFmt) (s : State) : Host.Outcome State Fault Refusal :=
  s.snShift c f 3 sarBy

/-- RORI (R301). -/
def execZRori (c : CtxRef) (f : ZFmt) (s : State) : Host.Outcome State Fault Refusal :=
  s.snShift c f 4 rorBy

/-- NOP (R301). -/
def execZNop (c : CtxRef) (f : ZFmt) (s : State) : Host.Outcome State Fault Refusal :=
  match snOf f 0 with
  | some (0, 0) => .next (s.zaell c 1 true false true ⟨[], []⟩ fun s => (s, .next 1))
  | _ => s.illegal c f

/-- LEA (R305). -/
def execZLea (c : CtxRef) (f : ZFmt) (s : State) : Host.Outcome State Fault Refusal :=
  match memLm f 0x08 with
  | none => s.illegal c f
  | some (ra, rb, d) =>
    s.pure c f true true ⟨[(rb, 1)], [(ra, 1)]⟩ 1 fun k => k.put ra 1 ((k.val rb 1 + d.toNat) % 2 ^ 16)

/-! ### Fields and bits (R308, R309) -/

/-- A field instruction on `n` words: P from the RC field, W from the function (R308). -/
def State.field (s : State) (c : CtxRef) (f : ZFmt) (minor : BitVec 6) (n : Nat) (ins : Bool) (op : (w p wd old b : Nat) → Nat) :
    Host.Outcome State Fault Refusal :=
  match rrrOf f minor with
  | none => s.illegal c f
  | some (ra, rb, p, fn) =>
    let wd := fn % 32 + 1
    if 32 ≤ fn ∨ 16 * n < p + wd then s.illegal c f
    else
      s.pure c f true true ⟨(rb, n) :: (if ins then [(ra, n)] else []), [(ra, n)]⟩ 1 fun k =>
        let r := op (16 * n) p wd (k.val ra n) (k.val rb n)
        (k.put ra n r).setFlags (logicFlags (16 * n) r k.flags)

/-- Extraction by zero and by sign, and insertion (R308). -/
def fldExt (_ p wd _ b : Nat) : Nat := b / 2 ^ p % 2 ^ wd
@[inherit_doc fldExt] def fldExts (w p wd _ b : Nat) : Nat := sextTo wd w (b / 2 ^ p % 2 ^ wd)
@[inherit_doc fldExt] def fldIns (_ p wd old b : Nat) : Nat := old - (old / 2 ^ p % 2 ^ wd) * 2 ^ p + b % 2 ^ wd * 2 ^ p

/-- A bit instruction on RB, or on pair RB when function[0] is 1; the result has the given words (R308). -/
def State.bitOp (s : State) (c : CtxRef) (f : ZFmt) (minor : BitVec 6) (wide : Bool) (cyc : Nat → Nat) (op : (w b : Nat) → Nat) :
    Host.Outcome State Fault Refusal :=
  match rrrOf f minor with
  | none => s.illegal c f
  | some (ra, rb, rc, fn) =>
    if rc ≠ 0 ∨ 2 ≤ fn then s.illegal c f
    else
      let n := fn + 1
      let m := if wide then n else 1
      s.pure c f true true ⟨[(rb, n)], [(ra, m)]⟩ (cyc n) fun k =>
        let r := op (16 * n) (k.val rb n)
        (k.put ra m r).setFlags (logicFlags (16 * m) r k.flags)


/-- EXT (R308). -/
def execZExt (c : CtxRef) (f : ZFmt) (s : State) : Host.Outcome State Fault Refusal :=
  s.field c f 0x00 1 false fldExt

/-- EXTS (R308). -/
def execZExts (c : CtxRef) (f : ZFmt) (s : State) : Host.Outcome State Fault Refusal :=
  s.field c f 0x01 1 false fldExts

/-- INS (R308). -/
def execZIns (c : CtxRef) (f : ZFmt) (s : State) : Host.Outcome State Fault Refusal :=
  s.field c f 0x02 1 true fldIns

/-- EXTP (R308). -/
def execZExtp (c : CtxRef) (f : ZFmt) (s : State) : Host.Outcome State Fault Refusal :=
  s.field c f 0x03 2 false fldExt

/-- EXTSP (R308). -/
def execZExtsp (c : CtxRef) (f : ZFmt) (s : State) : Host.Outcome State Fault Refusal :=
  s.field c f 0x04 2 false fldExts

/-- INSP (R308). -/
def execZInsp (c : CtxRef) (f : ZFmt) (s : State) : Host.Outcome State Fault Refusal :=
  s.field c f 0x05 2 true fldIns

/-- PARW (R308). -/
def execZParw (c : CtxRef) (f : ZFmt) (s : State) : Host.Outcome State Fault Refusal :=
  s.bitOp c f 0x09 false id parity

/-- BREV (R308). -/
def execZBrev (c : CtxRef) (f : ZFmt) (s : State) : Host.Outcome State Fault Refusal :=
  s.bitOp c f 0x0A true (fun _ => 1) revBits

/-- CLZ (R308). -/
def execZClz (c : CtxRef) (f : ZFmt) (s : State) : Host.Outcome State Fault Refusal :=
  s.bitOp c f 0x0C false (fun n => 3 - n) leadZeros

/-- SHR (R309). -/
def execZShr (c : CtxRef) (f : ZFmt) (s : State) : Host.Outcome State Fault Refusal :=
  match rrrOf f 0x0B with
  | none => s.illegal c f
  | some (ra, rb, rc, fn) =>
    if 16 ≤ fn ∨ 5 ≤ fn % 8 then s.illegal c f
    else
      let n := fn / 8 + 1
      s.pure c f true true ⟨[(rb, n), (rc, 1)], [(ra, n)]⟩ 1 fun k =>
        let d := k.val rc 1 % 32
        let a := k.val rb n
        let w := 16 * n
        let (r, fl) := match fn % 8 with
          | 0 => shlBy w a d k.flags
          | 1 => shrBy w a d k.flags
          | 2 => sarBy w a d k.flags
          | 3 => rolBy w a d k.flags
          | _ => rorBy w a d k.flags
        (k.put ra n r).setFlags fl

/-- A CRC state and the bytes of a word folded into it (R314): the low byte alone when `one`. -/
def crcFold (p : Nat) (st : Nat) (x : Half) (one : Bool) : Nat :=
  let P := crcPoly p
  let s0 : Word := BitVec.ofNat 32 st &&& crcMask P.w
  (crcBytes P s0 (if one then [x.setWidth 8] else [x.setWidth 8, x.extractLsb' 8 8])).toNat

/-- CRCW (R308, R314). -/
def execZCrcw (c : CtxRef) (f : ZFmt) (s : State) : Host.Outcome State Fault Refusal :=
  match rrrOf f 0x08 with
  | none => s.illegal c f
  | some (ra, rb, rc, fn) =>
    if rc ≠ 0 ∨ 16 ≤ fn then s.illegal c f
    else
      s.pure c f true true ⟨[(rb, 1), (ra, 2)], [(ra, 2)]⟩ 1 fun k =>
        k.put ra 2 (crcFold (fn % 8) (k.val ra 2) (k.gr rb) (8 ≤ fn))

end Sys2Proof.Machine
end

