-- ==== Sys2Proof/Machine/ZaellStr.lean ====
section
/-! DEFINITION. Zaell string instructions (R290, R315 to R321) and the data-mover instructions (R292, R310). -/

namespace Sys2Proof.Machine

/-- Which string instruction. -/
inductive StrKind where
  | movs | fills | cmps | scns | crcs
  deriving DecidableEq, Repr

/-- A string instruction: its register and its options (R316). -/
structure StrOp where
  kind  : StrKind
  ra    : Nat
  poly  : Nat
  ne    : Bool
  mask  : Bool
  swap  : Bool
  holdd : Bool
  holds : Bool
  deriving DecidableEq, Repr

/-- Whether the instruction uses a source, a destination (R317). -/
def StrKind.src : StrKind → Bool
  | .fills => false
  | _ => true
@[inherit_doc StrKind.src] def StrKind.dst : StrKind → Bool
  | .movs | .fills | .cmps => true
  | _ => false

/-- The option bits that an instruction uses (R316). -/
def StrKind.opts : StrKind → Nat
  | .movs => 0b00000111
  | .fills => 0b00000110
  | .cmps => 0b00001111
  | .scns => 0b00011101
  | .crcs => 0b11100101

/-- Long minor, and w0[7:4] of the short form where one exists (R301, R310). -/
def StrKind.minor : StrKind → BitVec 6
  | .movs => 0x08 | .fills => 0x09 | .cmps => 0x0A | .scns => 0x0B | .crcs => 0x0C
@[inherit_doc StrKind.minor] def StrKind.short : StrKind → Nat
  | .movs => 0 | .fills => 1 | .cmps => 2 | .scns => 3 | .crcs => 8

/-- The string instruction of an encoding, none where it is illegal (R295, R301, R310, R316). -/
def strOf (kind : StrKind) (f : ZFmt) : Option StrOp :=
  match f with
  | .sn g n ra =>
    let noRa := kind == .movs || kind == .cmps
    if (noRa && ra != 0) || g != (if kind = .crcs then 6 else 5) then none
    else if kind = .crcs then (if n.toNat < 8 then some ⟨kind, ra.toNat, n.toNat, false, false, false, false, false⟩ else none)
    else if n.toNat = kind.short then some ⟨kind, ra.toNat, 0, false, false, false, false, false⟩
    else none
  | .lri minor ra z imm =>
    let o := imm.toNat
    let usesRa := match kind with | .movs => false | .cmps => imm.getLsbD 3 | _ => true
    if z = false ∧ minor = kind.minor ∧ o < 256 ∧ o &&& (255 - kind.opts) = 0 ∧ (usesRa = true ∨ ra = 0) then
      some ⟨kind, ra.toNat, o / 32, imm.getLsbD 4, imm.getLsbD 3, imm.getLsbD 2, imm.getLsbD 1, imm.getLsbD 0⟩
    else none
  | _ => none

/-- The fault of an element's access (R319). -/
def strFault (bank off : Nat) : Option ZFault :=
  if bank = 0xFF then some (afault 0x06 bank off) else if 7 < bank then some (afault 0x05 bank off) else none

/-- The source and destination of the next element (R269). -/
def Ctx.strSrc (x : Ctx) : Nat × Nat := ((x.gr 27).toNat % 256, (x.gr 28).toNat)
@[inherit_doc Ctx.strSrc] def Ctx.strDst (x : Ctx) : Nat × Nat := ((x.gr 29).toNat % 256, (x.gr 30).toNat)

/-- Bytes of a word exchanged when SWAP is set (R316). -/
def swapIf (b : Bool) (x : Half) : Half := if b then x.setWidth 8 ++ x.extractLsb' 8 8 else x

/-- Advance past an element (R290, R315). -/
def Ctx.strStep (x : Ctx) (o : StrOp) : Ctx :=
  let x := x.gw 26 (x.gr 26 - 1)
  let x := if o.kind.src && !o.holds then x.gw 28 (x.gr 28 + 1) else x
  if o.kind.dst && !o.holdd then x.gw 30 (x.gr 30 + 1) else x

/-- Cycles of an element (R318). -/
def Ctx.strCost (x : Ctx) (o : StrOp) : Nat :=
  (if o.kind.src then wordCost x.strSrc.1 x.strSrc.2 else 0) + (if o.kind.dst then wordCost x.strDst.1 x.strDst.2 else 0)

/-- What an element does: it ends the instruction by a match, or not (R317). -/
inductive StrElem where
  | go
  | matched
  deriving DecidableEq, Repr

/-- The element's effect with source word `x` and destination word `y`, before the advance (R317). -/
def State.strElem (s : State) (c : CtxRef) (o : StrOp) (x y : Half) : State × StrElem :=
  let k := ctxKey c
  let r := s.ctxOf c
  let x := swapIf o.swap x
  match o.kind with
  | .movs => (s.store k r.strDst.1 r.strDst.2 1 (x.setWidth 64), .go)
  | .fills => (s.store k r.strDst.1 r.strDst.2 1 ((swapIf o.swap (r.gr o.ra)).setWidth 64), .go)
  | .cmps =>
    let m := if o.mask then r.gr o.ra else 0xFFFF
    if x &&& m ≠ y &&& m then
      (s.setCtx c (r.setFlags (subFlags 16 (x &&& m).toNat (y &&& m).toNat true).2), .matched)
    else (s, .go)
  | .scns =>
    let m := if o.mask then r.gr (o.ra + 1) else 0xFFFF
    if (x &&& m == r.gr o.ra &&& m) != o.ne then (s.setCtx c (r.setFlags { n := false, z := true, c := r.flags.c, v := false }), .matched)
    else (s, .go)
  | .crcs => (s.setCtx c (r.put o.ra 2 (crcFold o.poly (r.val o.ra 2) x false)), .go)

/-- The flags of an exhausted completion (R317). -/
def Ctx.strDone (x : Ctx) (o : StrOp) : Ctx :=
  match o.kind with
  | .cmps => x.setFlags { n := false, z := true, c := true, v := false }
  | .scns => x.setFlags { n := false, z := false, c := x.flags.c, v := false }
  | _ => x

/-- The elements of a string instruction, at most `n` before an interrupt entry stops it; `cyc` cycles so far (R315). -/
def State.strLoop (s : State) (c : CtxRef) (o : StrOp) (stop : Option Nat) : Nat → Nat → State × ZEnd
  | 0, cyc => (s, .paused cyc)
  | n + 1, cyc =>
    let k := ctxKey c
    let r := s.ctxOf c
    if r.gr 26 = 0 then (s.setCtx c (r.strDone o), .next cyc)
    else if stop = some 0 then (s, .paused cyc)
    else
      let bad := (if o.kind.src then strFault r.strSrc.1 r.strSrc.2 else none).orElse fun _ =>
        if o.kind.dst then strFault r.strDst.1 r.strDst.2 else none
      match bad with
      | some z => (s, .faultAt z cyc)
      | none =>
        let (s, x) := if o.kind.src then s.load k r.strSrc.1 r.strSrc.2 1 else (s, some 0)
        let (s, y) := if o.kind = .cmps then s.load k r.strDst.1 r.strDst.2 1 else (s, some 0)
        match x, y with
        | some x, some y =>
          let cyc := cyc + r.strCost o
          (match s.strElem c o (x.setWidth 16) (y.setWidth 16) with
           | (s, .matched) => (s, .next cyc)
           | (s, .go) =>
             let s := s.setCtx c ((s.ctxOf c).strStep o)
             s.strLoop c o (stop.map fun i => i - 1) n cyc)
        | _, _ => (s, .ue cyc)

/-- The elements that a string instruction may have: those that G26 counts, or, where CRCS folds into G26 itself, as many as it takes (R315). -/
def Ctx.strFuel (x : Ctx) (o : StrOp) : Nat :=
  if o.kind = .crcs ∧ (o.ra % 32 = 26 ∨ o.ra % 32 = 25) then 2 ^ 64 else (x.gr 26).toNat + 1

/-- A string instruction (R315), illegal inside a locked sequence (R323). -/
def State.strInstr (s : State) (c : CtxRef) (f : ZFmt) (stop : Option Nat) (kind : StrKind) : Host.Outcome State Fault Refusal :=
  match strOf kind f with
  | none => s.illegal c f
  | some o =>
    let more := match kind with | .movs => [] | .crcs => [(o.ra, 2)] | .scns => if o.mask then [(o.ra, 2)] else [(o.ra, 1)]
                                | .cmps => if o.mask then [(o.ra, 1)] else [] | .fills => [(o.ra, 1)]
    .next (s.zaell c (fmtLen f) (!(s.ctxOf c).lock) true false ⟨(26, 5) :: more, [(26, 5)]⟩ fun s =>
      let stop := if s.blk.stepping (ctxKey c) then some 1 else stop
      s.strLoop c o stop ((s.ctxOf c).strFuel o) 1)

/-- MOVS (R317). -/
def execZMovs (c : CtxRef) (f : ZFmt) (stop : Option Nat) (s : State) : Host.Outcome State Fault Refusal := s.strInstr c f stop .movs
/-- FILLS (R317). -/
def execZFills (c : CtxRef) (f : ZFmt) (stop : Option Nat) (s : State) : Host.Outcome State Fault Refusal := s.strInstr c f stop .fills
/-- CMPS (R317). -/
def execZCmps (c : CtxRef) (f : ZFmt) (stop : Option Nat) (s : State) : Host.Outcome State Fault Refusal := s.strInstr c f stop .cmps
/-- SCNS (R317). -/
def execZScns (c : CtxRef) (f : ZFmt) (stop : Option Nat) (s : State) : Host.Outcome State Fault Refusal := s.strInstr c f stop .scns
/-- CRCS (R314, R317). -/
def execZCrcs (c : CtxRef) (f : ZFmt) (stop : Option Nat) (s : State) : Host.Outcome State Fault Refusal := s.strInstr c f stop .crcs

/-! ### Data-mover instructions -/

/-- The issue of a command by an instruction: checks, waits, issue (R292, R310). -/
def State.dmInstr (s : State) (c : CtxRef) (cmd : BitVec 64) (cyc : Nat) : State × ZEnd :=
  let x := s.ctxOf c
  match x.dmCheck (dmCmd cmd) with
  | .error e => (s, .fault e)
  | .ok (lines, cls) =>
    match s.blk.dmWait (ctxKey c) (dmCmd cmd) with
    | some w => (s, .wait w)
    | none => (s.dmIssue (ctxKey c) cmd lines cls, .next cyc)

/-- DMV (R292, R310). -/
def execZDmv (c : CtxRef) (f : ZFmt) (s : State) : Host.Outcome State Fault Refusal :=
  match rrrOf f 0x00 with
  | none => s.illegal c f
  | some (ra, rb, rc, fn) =>
    let legal := rb == 0 && rc == 0 && fn == 0 && ra % 4 == 0 && !(s.ctxOf c).lock
    .next (s.zaell c 2 legal false false ⟨[(ra, 4)], []⟩ fun s => s.dmInstr c (BitVec.ofNat 64 ((s.ctxOf c).val ra 4)) 3)

/-- DMVM (R292, R310). -/
def execZDmvm (c : CtxRef) (f : ZFmt) (s : State) : Host.Outcome State Fault Refusal :=
  match rrrOf f 0x01 with
  | none => s.illegal c f
  | some (ra, rb, rc, fn) =>
    let legal := ra == 0 && rc == 0 && fn == 0 && !(s.ctxOf c).lock
    .next (s.zaell c 2 legal false false ⟨[(rb, 1)], []⟩ fun s =>
      let x := s.ctxOf c
      let bank := x.bk.toNat
      let off := (x.gr rb).toNat
      match strFault bank off with
      | some z => (s, .fault z)
      | none =>
        if off % 4 ≠ 0 then (s, .fault (afault 0x04 bank off))
        else
          match s.load (ctxKey c) bank off 4 with
          | (s, some v) => s.dmInstr c v (if wordCost bank off = 2 then 5 else 3)
          | (s, none) => (s, .ue))

end Sys2Proof.Machine
end

