-- ==== Sys2Proof/Machine/Micro.lean ====
section
/-! DEFINITION. Microwords (07): the fetch with its checks, matches and micro-traps (R226 to R231, R241, R242, R255), the fields and what makes a
word illegal (R232, R233), and the resources that they drive (R236 to R254). -/

namespace Sys2Proof.Machine

/-! ### Fields -/

/-- The fields of a microword (R232). -/
structure UWord where
  next : Nat
  seq  : Nat
  cond : Nat
  cpol : Bool
  asrc : Nat
  bsrc : Nat
  aop  : Nat
  shf  : Nat
  frac : Nat
  dst  : Nat
  flg  : Nat
  lit  : Half
  xsrc : Nat
  xdst : Nat
  xop  : Nat
  fxp  : Nat
  fxw  : Nat
  mop  : Nat
  mas  : Nat
  msz  : Nat
  dmv  : Nat
  cop  : Nat
  evt  : Nat
  ctx  : Nat
  cnt  : Nat
  tim  : Nat
  sch  : Nat
  imc  : Nat
  rsv  : Nat
  deriving DecidableEq, Repr

/-- The reading of a microword (R232). -/
def uword (w : BitVec 160) : UWord :=
  let f (hi lo : Nat) : Nat := (w >>> lo).toNat % 2 ^ (hi + 1 - lo)
  { next := f 151 138, seq := f 137 134, cond := f 133 127, cpol := f 126 126 == 1, asrc := f 125 120, bsrc := f 119 114, aop := f 113 109,
    shf := f 108 104, frac := f 103 100, dst := f 99 94, flg := f 93 90, lit := BitVec.ofNat 16 (f 89 74), xsrc := f 73 68, xdst := f 67 62,
    xop := f 61 58, fxp := f 57 53, fxw := f 52 48, mop := f 47 44, mas := f 43 40, msz := f 39 37, dmv := f 36 33, cop := f 32 29,
    evt := f 28 25, ctx := f 24 22, cnt := f 21 18, tim := f 17 14, sch := f 13 10, imc := f 9 8, rsv := f 7 0 }

/-- The number format (R246): 0 integer, 1 Q1.15, 2 Q1.31. -/
def UWord.fmt (w : UWord) : Nat := w.frac / 2 % 4
/-- SAT and RE (R246). -/
def UWord.sat (w : UWord) : Bool := w.frac / 8 % 2 == 1
@[inherit_doc UWord.sat] def UWord.re (w : UWord) : Bool := w.frac % 2 == 1
/-- A word whose DST takes loaded data, or the result of a dispatch (R235). -/
def UWord.loads (w : UWord) : Bool := w.mop == 1 || w.mop == 5
@[inherit_doc UWord.loads] def UWord.dispatches (w : UWord) : Bool := decide (8 ≤ w.cop)
/-- CMP and TST, which write no DST (R235). -/
def UWord.flagsOnly (w : UWord) : Bool := w.aop == 0x0F || w.aop == 0x10
/-- The ALU result goes to DST. -/
def UWord.aluDst (w : UWord) : Bool := !w.flagsOnly && !w.loads && !w.dispatches && w.evt != 4 && w.dst != 0x3F
/-- Words of a memory access (R250). -/
def UWord.words (w : UWord) : Nat := 2 ^ w.msz

/-! ### Registers -/

/-- RA, RB and RC of the instruction in IR; a field that its format lacks reads as zero (R284). -/
def irReg (ir : Word) (i : Nat) : Nat :=
  let w0 := (ir.setWidth 16).toNat
  let w1 := (ir.extractLsb' 16 16).toNat
  let major := w0 / 4096
  let minor := w0 / 64 % 64
  let rrr := major = 0x8 ∨ major = 0xC ∨ (major = 0xD ∧ minor < 0x08) ∨ major = 0xE
  match i with
  | 0 =>
    if major = 0 then w0 / 16 % 16
    else if major ≤ 5 then w0 / 256 % 16
    else if major = 6 then 0
    else if major = 7 then w0 % 16
    else if major = 0xB then 0
    else w0 / 2 % 32
  | 1 =>
    if major = 0 then w0 % 16
    else if major = 4 ∨ major = 5 then w0 / 16 % 16
    else if rrr ∨ major = 0xA then w1 / 2048
    else 0
  | _ => if rrr then w1 / 64 % 32 else 0

/-- The general registers of a source or destination code: the first and how many (R243). -/
def uregs (ir : Word) (code : Nat) : Option (Nat × Nat) :=
  if code < 0x20 then some (code, 1)
  else if code < 0x30 then some (2 * (code - 0x20), 2)
  else if code < 0x33 then some (irReg ir (code - 0x30), 1)
  else if code < 0x36 then some (irReg ir (code - 0x33), 2)
  else none

/-- The places of a code for `n` general registers, or of T, ACC and the flags. -/
def Ctx.uplaces (c : Ctx) (code n : Nat) : List Nat :=
  match uregs c.u.ir code with
  | some (r, m) => c.places r (max m n)
  | none =>
    if 0x36 ≤ code ∧ code ≤ 0x39 then [64 + 2 * (code - 0x36), 65 + 2 * (code - 0x36)]
    else if code = 0x3A then [72, 73]
    else []

/-- The places of a destination of `n` words. -/
def Ctx.udst (c : Ctx) (code n : Nat) : List Nat :=
  if code = 0x3B then [74]
  else match uregs c.u.ir code with
    | some (r, m) => c.places r (if m = 2 ∧ n = 4 then 4 else m)
    | none => c.uplaces code n

/-- The value of a source (R243, R246); `n` numbers the microword. -/
def Ctx.usrc (c : Ctx) (w : UWord) (n code : Nat) : BitVec 40 :=
  match uregs c.u.ir code with
  | some (r, 1) => if w.fmt = 1 then (c.gr (r % 32) ++ (0 : Half)).signExtend 40 else (c.gr (r % 32)).signExtend 40
  | some (r, _) => (BitVec.ofNat 32 (c.val r 2)).signExtend 40
  | none =>
    if code ≤ 0x39 then (c.tr (code - 0x36)).signExtend 40
    else match code with
      | 0x3A => c.u.acc
      | 0x3B => w.lit.setWidth 40
      | 0x3C => w.lit.signExtend 40
      | 0x3D => Config.microGuard n ++ w.lit ++ (0 : Half)
      | 0x3E => c.u.xr.setWidth 40
      | _ => 0

/-! ### Microdatapath -/

/-- The ALU result (R244). -/
def ualu (w : UWord) (a b acc : BitVec 40) (cin : Bool) : BitVec 40 :=
  let c : BitVec 40 := if cin then 1 else 0
  match w.aop with
  | 0x00 => a
  | 0x01 => b
  | 0x02 => a + b
  | 0x03 => a + b + c
  | 0x04 => a - b
  | 0x05 => a - b - (1 - c)
  | 0x06 => b - a
  | 0x07 => a &&& b
  | 0x08 => a ||| b
  | 0x09 => a ^^^ b
  | 0x0A => a &&& ~~~b
  | 0x0B => ~~~a
  | 0x0C => 0 - a
  | 0x0D => a + 1
  | 0x0E => a - 1
  | 0x0F => a - b
  | 0x10 => a &&& b
  | 0x11 => acc + a
  | 0x12 => acc - a
  | 0x13 => if a.msb then 0 - a else a
  | 0x14 => if a.slt b then a else b
  | 0x15 => if a.slt b then b else a
  | 0x16 => if a.toNat % 2 ^ 32 ≤ b.toNat % 2 ^ 32 then a else b
  | 0x17 => if a.toNat % 2 ^ 32 ≤ b.toNat % 2 ^ 32 then b else a
  | 0x18 => (a.setWidth 16).signExtend 40
  | _ => (a.setWidth 16).setWidth 40

/-- C and V of the ALU at a width, where R249 takes them from it: those of an operation that has no carry are free. -/
def ualuCv (w : UWord) (n v : Nat) (a b acc : BitVec 40) (cin : Bool) : Option (Bool × Bool) :=
  let A := a.toNat % 2 ^ v
  let B := b.toNat % 2 ^ v
  let K := acc.toNat % 2 ^ v
  let cv (r : Nat × Nzcv) : Option (Bool × Bool) := some (r.2.c, r.2.v)
  let free := Config.microCv n v
  match w.aop with
  | 0x02 => cv (addFlags v A B false)
  | 0x03 => cv (addFlags v A B cin)
  | 0x04 | 0x0F => cv (subFlags v A B true)
  | 0x05 => cv (subFlags v A B cin)
  | 0x06 => cv (subFlags v B A true)
  | 0x0C => cv (subFlags v 0 A true)
  | 0x0D => cv (addFlags v A 1 false)
  | 0x0E => cv (subFlags v A 1 true)
  | 0x11 => cv (addFlags v K A false)
  | 0x12 => cv (subFlags v K A true)
  | 0x13 => some (free.getLsbD 0, A == 2 ^ (v - 1))
  | 0x07 | 0x08 | 0x09 | 0x0A | 0x0B => some (free.getLsbD 0, free.getLsbD 1)
  | _ => none

/-- A value divided by 2^d with the bits discarded rounded by a mode (R247). -/
def roundOff (mode : Nat) (x : BitVec 40) (d : Nat) : BitVec 40 :=
  let q := x.toInt / 2 ^ d
  let r := x.toInt % 2 ^ d
  BitVec.ofInt 40 (match mode with
    | 0 => q
    | 1 => if 2 ^ d ≤ 2 * r ∧ r ≠ 0 then q + 1 else q
    | 2 => if 2 ^ d < 2 * r ∨ (2 ^ d = 2 * r ∧ r ≠ 0 ∧ q % 2 = 1) then q + 1 else q
    | _ => if r ≠ 0 ∧ q % 2 = 0 then q + 1 else q)

/-- The rounding mode in force (R247): truncation in integer format and with RE at 0. -/
def Ctx.umode (c : Ctx) (w : UWord) : Nat := if w.fmt ≠ 0 ∧ w.re then c.sw.toNat / 2 ^ 10 % 4 else 0

/-- A value with its lowest `n` bits replaced. -/
def lowBits (n : Nat) (x y : BitVec 40) : BitVec 40 :=
  let m := BitVec.ofNat 40 (2 ^ n - 1)
  (x &&& ~~~m) ||| (y &&& m)

/-- A value's lowest `n` bits rotated left by `d`. -/
def rotl (n d x : Nat) : Nat := let x := x % 2 ^ n; (x * 2 ^ (d % n) + x / 2 ^ (n - d % n)) % 2 ^ n

/-- SHF on the ALU result: the value and the last bit shifted out (R245, R249). -/
def ushift (w : UWord) (mode : Nat) (r a b : BitVec 40) : BitVec 40 × Bool :=
  let byB := 0x09 ≤ w.shf ∧ w.shf ≤ 0x0F
  let d := if byB then b.toNat % 32 else w.fxp
  let x := r.toNat
  let out (i : Nat) : Bool := d != 0 && x / 2 ^ i % 2 == 1
  let rot (n d : Nat) (left : Bool) : BitVec 40 × Bool :=
    let v := lowBits n r (BitVec.ofNat 40 (rotl n (if left then d % n else n - d % n) x))
    (v, d != 0 && v.getLsbD (if left then 0 else n - 1))
  let fld := r.toNat / 2 ^ w.fxp % 2 ^ (w.fxw + 1)
  match (if byB then w.shf - 8 else w.shf) with
  | 0x01 => (r <<< d, out (40 - d))
  | 0x02 => (BitVec.ofNat 40 (x % 2 ^ 32 / 2 ^ d), out (d - 1))
  | 0x03 => (roundOff mode r d, out (d - 1))
  | 0x04 => rot 32 d true
  | 0x05 => rot 32 d false
  | 0x06 => rot 16 d true
  | 0x07 => rot 16 d false
  | 0x10 => (BitVec.ofNat 40 fld, false)
  | 0x11 => (BitVec.ofNat 40 (sextTo (w.fxw + 1) 40 fld), false)
  | 0x12 =>
    let m := BitVec.ofNat 40 ((2 ^ (w.fxw + 1) - 1) * 2 ^ w.fxp)
    ((b &&& ~~~m) ||| ((a <<< w.fxp) &&& m), false)
  | 0x13 => (lowBits 16 r (BitVec.ofNat 40 (revBits 16 x)), false)
  | 0x14 => (lowBits 32 r (BitVec.ofNat 40 (revBits 32 x)), false)
  | 0x15 => (BitVec.ofNat 40 (crcFold (w.fxw % 8) (a.toNat % 2 ^ 32) (b.setWidth 16) false), false)
  | 0x16 => (BitVec.ofNat 40 (parity 16 b.toNat), false)
  | 0x17 => (BitVec.ofNat 40 (leadZeros 32 (x % 2 ^ 32)), false)
  | _ => (r, false)

/-- What a destination takes (R246 to R248): the value as written, extended by sign, and whether it was replaced by saturation; `n` is 1 for a
16-bit destination, 2 for 32 bits, 0 where all 40 bits are taken. -/
def unarrow (w : UWord) (mode n : Nat) (v : BitVec 40) : BitVec 40 × Bool :=
  if n = 0 then (v, false)
  else
    let q15 := n = 1 ∧ w.fmt = 1
    let v := if q15 then roundOff mode v 16 <<< 16 else v
    let top := v.extractLsb' 31 9
    let out : Bool := if n = 1 ∧ w.fmt = 0 then (v.setWidth 16).signExtend 40 != v else top != 0 && top != 0x1FF
    let cut : BitVec 40 := if q15 then (v.extractLsb' 16 16).signExtend 40 else if n = 1 then (v.setWidth 16).signExtend 40
      else (v.setWidth 32).signExtend 40
    if w.sat && out then
      ((if n = 1 then (if v.msb then (0x8000 : Half).signExtend 40 else 0x7FFF) else if v.msb then (0x80000000 : Word).signExtend 40 else 0x7FFFFFFF),
       true)
    else (cut, false)

/-- 16-bit, 32-bit or other destination of a code. -/
def udstWidth (ir : Word) (code : Nat) : Nat :=
  match uregs ir code with
  | some (_, n) => n
  | none => if 0x36 ≤ code ∧ code ≤ 0x39 then 2 else 0

/-- A destination takes a value (R243). -/
def Ctx.uput (c : Ctx) (code : Nat) (v : BitVec 40) : Ctx :=
  match uregs c.u.ir code with
  | some (r, n) => c.put r n (v.toNat % 2 ^ (16 * n))
  | none =>
    if 0x36 ≤ code ∧ code ≤ 0x39 then c.setT (code - 0x36) (v.setWidth 32)
    else if code = 0x3A then { c with u := { c.u with acc := v } }
    else if code = 0x3B then c.uset 74 (v.setWidth 16)
    else c

/-- The flags that FLG writes (R249), from the value as written, C and V at widths 16 and 32, and B. -/
def uflags (w : UWord) (f : Nzcv) (v b : BitVec 40) (c16 v16 c32 v32 : Bool) : Nzcv :=
  let x := v.toNat
  let n16 := signBit 16 x
  let z16 := x % 2 ^ 16 == 0
  let n32 := signBit 32 x
  let z32 := x % 2 ^ 32 == 0
  match w.flg with
  | 0x1 => { f with n := n16, z := z16 }
  | 0x2 => { f with n := n16, z := z16, c := c16 }
  | 0x3 => { n := n16, z := z16, c := c16, v := v16 }
  | 0x4 => { f with n := n32, z := z32 }
  | 0x5 => { f with n := n32, z := z32, c := c32 }
  | 0x6 => { n := n32, z := z32, c := c32, v := v32 }
  | 0x7 => { f with z := f.z && z16 }
  | 0x8 => { f with c := c16 }
  | 0x9 => { n := b.getLsbD 3, z := b.getLsbD 2, c := b.getLsbD 1, v := b.getLsbD 0 }
  | _ => f

/-- The ALU's part of a word: DST, FLG and the micro-flags (R238, R249); `a` and `b` are the operands of microword `n`. -/
def Ctx.ualuStep (c : Ctx) (w : UWord) (n : Nat) (a b : BitVec 40) : Ctx :=
  let cin := c.flags.c
  let r := ualu w a b c.u.acc cin
  let mode := c.umode w
  let (s, out) := ushift w mode r a b
  let (v, sat) := if w.aluDst then unarrow w mode (udstWidth c.u.ir w.dst) s else (s, false)
  let cv (x : Nat) : Bool × Bool := (ualuCv w n x a b c.u.acc cin).getD (out, sat)
  let (c16, v16) := cv 16
  let (c32, v32) := cv 32
  let fl := uflags w c.flags v b c16 v16 c32 v32
  let d := if w.aluDst then c.uput w.dst v else c
  let d := if w.flg = 0 then d else d.setFlags fl
  if w.aluDst || w.flagsOnly then
    let top := r.extractLsb' 31 9
    let bits := [r.getLsbD 31, r.toNat % 2 ^ 32 == 0, c32, v32, sat, v.toNat % 2 ^ 16 == 0, top != 0 && top != 0x1FF]
    { d with u := { d.u with fl := BitVec.ofNat 7 (bits.zipIdx.foldl (fun m x => m + x.1.toNat * 2 ^ x.2) 0) } }
  else d

/-! ### Address unit -/

/-- The value of an address source (R250). -/
def Ctx.uaddr (c : Ctx) (a r : BitVec 40) (code : Nat) : BitVec 24 :=
  let l := c.priv
  match code with
  | 0x00 => c.u.mar
  | 0x01 => c.pc.setWidth 24
  | 0x02 => c.cb ++ c.pc
  | 0x03 => c.bk.setWidth 24
  | 0x04 => (c.sr (stkReg l 0)).setWidth 8 ++ c.sr (stkReg l 1)
  | 0x05 => c.u.xt0
  | 0x06 => c.u.xt1
  | 0x07 => c.bk ++ a.setWidth 16
  | 0x08 => (c.gr 27).setWidth 8 ++ c.gr 28
  | 0x09 => (c.gr 29).setWidth 8 ++ c.gr 30
  | _ => r.setWidth 24

/-- The word offset of an address changes; its bank stays (R250). -/
def addrAdd (x : BitVec 24) (d : Half) : BitVec 24 := x.extractLsb' 16 8 ++ (x.setWidth 16 + d)

/-- An address destination takes a value (R250). -/
def Ctx.uaddrPut (c : Ctx) (code : Nat) (x : BitVec 24) : Ctx :=
  let off : Half := x.setWidth 16
  let bank : Byte := x.extractLsb' 16 8
  let str (i : Nat) : Ctx := (c.gw i ((c.gr i).extractLsb' 8 8 ++ bank)).gw (i + 1) off
  match code with
  | 0x00 => { c with u := { c.u with mar := x } }
  | 0x01 => { c with pc := off }
  | 0x02 => { c with cb := bank, pc := off }
  | 0x03 => { c with bk := x.setWidth 8 }
  | 0x04 => c.setSr (stkReg c.priv 1) off
  | 0x05 => { c with u := { c.u with xt0 := x } }
  | 0x06 => { c with u := { c.u with xt1 := x } }
  | 0x08 => str 27
  | 0x09 => str 29
  | _ => c

/-- XOP: the value written, none for no operation (R250). -/
def UWord.xval (w : UWord) (x : BitVec 24) (b : BitVec 40) : Option (BitVec 24) :=
  match w.xop with
  | 0 => none
  | 1 => some x
  | 2 => some (addrAdd x w.lit)
  | 3 => some (addrAdd x 1)
  | 4 => some (addrAdd x 2)
  | 5 => some (addrAdd x 4)
  | 6 => some (addrAdd x (-1))
  | 7 => some (addrAdd x (-2))
  | 8 => some (addrAdd x (-4))
  | _ => some (addrAdd x (b.setWidth 16))

/-- Bank and offset of a word's memory access (R250). -/
def Ctx.umem (c : Ctx) (w : UWord) (a : BitVec 40) : Nat × Nat :=
  let l := c.priv
  let sp := c.sr (stkReg l 1)
  let spb := (c.sr (stkReg l 0)).toNat
  let at_ (x : BitVec 24) : Nat × Nat := ((x.extractLsb' 16 8).toNat, (x.setWidth 16).toNat)
  if w.mop = 4 then (spb, (sp - BitVec.ofNat 16 w.words).toNat)
  else if w.mop = 5 then (spb, sp.toNat)
  else match w.mas with
    | 0 => at_ c.u.mar
    | 1 => at_ c.u.xt0
    | 2 => at_ c.u.xt1
    | 3 => (spb, sp.toNat)
    | 4 => ((c.gr 27).toNat % 256, (c.gr 28).toNat)
    | 5 => ((c.gr 29).toNat % 256, (c.gr 30).toNat)
    | 6 => (c.bk.toNat, a.toNat % 2 ^ 16)
    | _ => (c.cb.toNat, c.pc.toNat)

/-! ### Illegal words -/

/-- A field holds a code that chapter 07 marks reserved, or breaks a condition that the chapter states with "must" (R233, R235, R245, R253). -/
def UWord.reserved (w : UWord) : Bool :=
  decide (10 < w.seq) || (decide (0x1D ≤ w.cond) && decide (w.cond ≤ 0x1F)) || (decide (0x2F ≤ w.cond) && decide (w.cond ≤ 0x3F)) ||
  decide (0x19 < w.aop) || w.shf == 0x08 || decide (0x17 < w.shf) || w.fmt == 3 || decide (9 < w.flg) ||
  (decide (0x3C ≤ w.dst) && decide (w.dst ≤ 0x3E)) || decide (0x0A < w.xsrc) ||
  w.xdst == 0x07 || (decide (0x0A ≤ w.xdst) && w.xdst != 0x3F) || decide (9 < w.xop) || decide (5 < w.mop) || decide (7 < w.mas) ||
  decide (2 < w.msz) || decide (2 < w.dmv) || (w.cop != 0 && decide (w.cop < 8)) || decide (6 < w.evt) || decide (4 < w.cnt) ||
  decide (3 < w.tim) || decide (5 < w.sch) || w.rsv != 0 ||
  (w.seq == 10 && decide (w.lit.toNat % 256 < 0x40)) || (w.seq == 7 && w.cnt != 0) || (w.loads && w.dispatches) ||
  ((w.loads || w.dispatches) && w.flg != 0) || ([3, 4, 5, 6, 9, 10].contains w.seq && w.imc != 0) ||
  ([0x10, 0x11, 0x12].contains w.shf && decide (31 < w.fxp + w.fxw)) ||
  (w.loads && w.msz == 2 && decide (0x20 ≤ w.dst) && decide (w.dst < 0x30) && w.dst % 2 == 1)

/-- The registers that the fields of a word write, a place for each (R233). -/
def Ctx.uwrites (c : Ctx) (w : UWord) : List Nat :=
  let dst := if w.loads then c.udst w.dst w.words else if w.flagsOnly && w.evt != 4 && !w.dispatches then [] else c.udst w.dst 1
  let twice := if w.evt = 4 ∧ (w.loads ∨ w.dispatches) ∧ w.dst ≠ 0x3F then [90, 90] else []
  let x := if w.xop = 0 then [] else
    match w.xdst with
    | 0x02 => [81, 82]
    | 0x08 => c.places 27 2
    | 0x09 => c.places 29 2
    | 0x3F => []
    | d => [80 + d]
  dst ++ twice ++ (if w.flg = 0 then [] else [74]) ++ x ++ (if w.mop = 3 then [81, 87] else if w.mop = 4 ∨ w.mop = 5 then [84] else []) ++
    (if w.sch = 0 then [] else [70, 71])

/-- An illegal microword (R233); EVT 4 outside the bay supervisor (R251). -/
def Blk.uillegal (s : Blk) (k : Nat) (c : Ctx) (w : UWord) : Bool :=
  w.reserved || !decide ((c.uwrites w).Nodup) || (w.evt == 4 && k != s.supervisor (k / 64))

/-! ### Sequencer -/

/-- A condition of R238. -/
def Blk.ucond (s : Blk) (k : Nat) (c : Ctx) (n : Nat) : Bool :=
  let f := c.flags
  if n = 0 then true
  else if n ≤ 7 then c.u.fl.getLsbD (n - 1)
  else if n = 0x08 then f.n
  else if n = 0x09 then f.z
  else if n = 0x0A then f.c
  else if n = 0x0B then f.v
  else if n = 0x0C then f.n != f.v
  else if n = 0x0D then f.z || f.n != f.v
  else if n = 0x0E then !f.c
  else if n = 0x0F then !f.c || f.z
  else if n = 0x10 then c.u.loop == 0
  else if n = 0x11 then c.gr 26 == 0
  else if n = 0x12 then c.pend &&& c.en != 0
  else if n = 0x13 then c.lock
  else if n = 0x14 then s.bit (F.EA_ENG_CTRL_COMPAT (k / 64) (s.slotOf (k / 8)))
  else if n = 0x15 then c.priv != 0
  else if n = 0x16 then c.priv == 2
  else if n = 0x17 then c.attempt != 0
  else if n = 0x18 then decide (8 ≤ s.moverUse (k / 8))
  else if n = 0x19 then decide (4 ≤ s.portUse (k / 8))
  else if n = 0x1A then (List.range 75).any fun i => s.pendingReg k i
  else if n = 0x1B then c.sw.getLsbD 12
  else if n = 0x1C then c.timHit
  else if n = 0x20 then c.u.sqz
  else if n = 0x21 then c.u.sqown
  else if n ≤ 0x26 then c.cpl.getLsbD (0x26 - n)
  else if n = 0x27 then c.intV
  else if n ≤ 0x2E then (pget c.tags (n - 0x28)).isNone
  else if n < 0x60 then (c.tr 0).getLsbD (n - 0x40)
  else c.u.ir.getLsbD (n - 0x60)

/-- The handler vector of DIRQ (R240). -/
def Blk.dirq (s : Blk) (k n : Nat) : BitVec 14 :=
  match s.irqOf k with
  | some cause => if cause = 0x40 then 0x0010 else BitVec.ofNat 14 (0x14 + 4 * (cause - 0x41))
  | none => Config.microVector n

/-- What the sequencer decides (R236): the next microaddress and micro-stack, and a micro-trap. -/
structure USeq where
  pc    : BitVec 14
  stack : List (BitVec 14)
  loop  : Half
  trap  : Option Nat
  deriving DecidableEq, Repr

/-- SEQ on the state at the start of the word at microaddress `ua` (R234, R236, R237). -/
def Blk.useq (s : Blk) (k : Nat) (c : Ctx) (w : UWord) (n : Nat) (ua : BitVec 14) : USeq :=
  let u := c.u
  let nx : BitVec 14 := BitVec.ofNat 14 w.next
  let go (pc : BitVec 14) : USeq := ⟨pc, u.stack, u.loop, none⟩
  let trap (t : Nat) : USeq := ⟨4, u.stack, u.loop, some t⟩
  match w.seq with
  | 1 => go nx
  | 2 => go (if s.ucond k c w.cond != w.cpol then nx else ua + 1)
  | 3 => if u.stack.length < 8 then ⟨nx, (ua + 1) :: u.stack, u.loop, none⟩ else trap 2
  | 4 => match u.stack with
    | a :: r => ⟨a, r, u.loop, none⟩
    | [] => trap 3
  | 5 => ⟨(Config.dispatch (u.ir.extractLsb' 6 10)).setWidth 14, [], u.loop, none⟩
  | 6 => ⟨s.dirq k n, [], u.loop, none⟩
  | 7 => if u.loop = 0 then go (ua + 1) else ⟨nx, u.stack, u.loop - 1, none⟩
  | 10 => trap (w.lit.toNat % 256)
  | _ => go (ua + 1)

/-! ### Micro-traps -/

/-- The cause and secondary cause that the micro-trap handler requests (R242, R348); none for BREAK. -/
def utrapFault (code : Nat) : Option ZFault :=
  if 0x40 ≤ code then some (zfault 0x27 code)
  else match code with
    | 1 => some (zfault 0x20)
    | 2 => some (zfault 0x21)
    | 3 => some (zfault 0x22)
    | 4 => some (zfault 0x23)
    | 5 => some (zfault 0x24)
    | 7 => some (zfault 0x25)
    | 8 => some (zfault 0x26)
    | _ => none

/-- A micro-trap of a context (R241, R242); that of a breakpoint abandons the instruction, marks the microaddress and halts the engine (R255, R509). -/
def Blk.utrap (s : Blk) (k code ua : Nat) : Blk :=
  let evt (s : Blk) (n : Nat) : Blk := s.raise (61 + 4 * (k / 64)) (some (n, s.eaInfo k))
  let s := match code with | 4 => evt s 0x22 | 5 => evt s 0x20 | 6 => evt s 0x21 | _ => s
  if (s.ctx k).u.trap.isSome then s.stopCtx k 0x81
  else if code = 6 then (s.onCtx k fun c => let c := c.home; { c with u := { c.u with skip := some ua } }).breakPulse (k / 8)
  else (s.onCtx k fun c => { c with u := { c.u with trap := some (code, ua), pc := 4 } }).work (k / 8) 2

/-! ### Execution -/

/-- Words of the instruction at {CB, PC}, read for IFETCH: its words (R250, R284), or how the fetch fails. -/
def State.ufetchInstr (s : State) (k : Nat) (c : Ctx) : State × Except (Option ZFault) (List Half) :=
  let cb := c.cb.toNat
  let pc := c.pc.toNat
  let word (s : State) (i : Nat) : State × Except (Option ZFault) Half :=
    if c.farBad || !codeAt cb (pc + i) then (s, .error (some (afault 0x03 cb ((pc + i) % 0x10000))))
    else match s.bmReads (k / 64) (s.blk.engReq k) [bayWord cb (pc + i)] with
      | (s, some [w]) => (s, .ok w)
      | (s, _) => (s, .error none)
  match word s 0 with
  | (s, .error e) => (s, .error e)
  | (s, .ok w0) =>
    if !w0.getLsbD 15 then (s, .ok [w0])
    else match word s 1 with
      | (s, .ok w1) => (s, .ok [w0, w1])
      | (s, .error e) => (s, .error e)

/-- The end of a word's memory operation. -/
inductive UMem where
  /-- done: data loaded, instruction words fetched, cycles of stage E -/
  | done (data : BitVec 64) (ws : List Half) (cyc : Nat)
  /-- a pool-window access is to be issued -/
  | pool (a : PAddr) (cls cyc : Nat)
  | fault (f : ZFault)
  | trap
  | ue
  /-- bay memory does not serve (R421) -/
  | ungranted
  deriving DecidableEq, Repr

/-- MOP of a word whose sources are read from `r` (R204, R250, R253). -/
def State.umop (s : State) (k : Nat) (c r : Ctx) (w : UWord) (a b : BitVec 40) : State × UMem :=
  if w.mop = 0 then (s, .done 0 [] 1)
  else if w.mop = 3 then
    if !s.blk.bmReady (k / 64) then (s, .ungranted) else
    match s.ufetchInstr k c with
    | (s, .ok ws) => (s, .done 0 ws (accessCost (k / 64) c.cb.toNat c.pc.toNat ws.length .bay))
    | (s, .error (some f)) => (s, .fault f)
    | (s, .error none) => (s, .ue)
  else
    let (bank, off) := r.umem w a
    let n := w.words
    let wr := !w.loads
    let v : BitVec 64 := if w.msz = 2 then a.setWidth 32 ++ b.setWidth 32 else b.setWidth 64
    match c.access bank off n wr with
    | .error f => (s, .fault f)
    | .ok reg =>
      let cyc := accessCost (k / 64) bank off n reg
      if w.imc = 1 ∧ reg ≠ .bay then (s, .trap)
      else match reg with
        | .bay =>
          if !s.blk.bmReady (k / 64) then (s, .ungranted)
          else if wr then (s.store k bank off n v, .done 0 [] cyc)
          else (match s.load k bank off n with
            | (s, some x) => (s, .done x [] cyc)
            | (s, none) => (s, .ue))
        | .ctrl o =>
          let req : Req := .engine ⟨k / 64 % 32, Nat.mod_lt _ (by decide)⟩
          if wr then (s.winWrite req o 32 (v.setWidth 32), .done 0 [] cyc)
          else
            let (x, d) := s.blk.winRead req o 32
            ({ s with blk := x }, .done (d.setWidth 64) [] cyc)
        | .pool p cls => (s, .pool p cls cyc)

/-- Loaded words go to the lowest places of their destination; the upper places of a wider one are free (R250). -/
def Ctx.uload (c : Ctx) (w : UWord) (n : Nat) (v : BitVec 64) : Ctx :=
  let places := c.udst w.dst w.words
  let up := places.length - w.words
  let c := (places.take up).zipIdx.foldl (fun c x => c.gset x.1 (Config.microLoad n x.2)) c
  c.gsets (places.drop up) v

/-- What the schedule answers (R251, R252): the value, and whether the queried class owns the current slot. -/
def Blk.uquery (s : Blk) (w : UWord) (a : BitVec 40) : Word × Option Bool :=
  let s := s.atDawn
  let ch := a.toNat % 32
  let cls := w.lit.toNat % 8
  let byte := s.slotByte s.tb.slot.toNat ch
  match w.sch with
  | 1 => (s.tb.slot ++ s.tb.frame.setWidth 22, none)
  | 2 => (BitVec.ofNat 32 (if cls = 0 then 0 else s.fld (liveFld cls ch)), some ((slotOwner byte).owner == cls))
  | 3 => (BitVec.ofNat 32 byte, none)
  | 4 => (s.rd F.SC_TB_SPEED_off, none)
  | _ => (s.tb.pos.setWidth 32, none)

/-- The fields that act within the context: CTX 1 to 5, CNT, TIM, SCH, IMC (R251); `r` is the context whose registers the word reads. -/
def Blk.uside (s : Blk) (c : Ctx) (w : UWord) (a : BitVec 40) (loaded : Option Nat) (old r : Ctx) : Ctx :=
  let c := match w.ctx with
    | 1 => { c with sw := c.sw ||| 0x1000 }
    | 2 => { c with sw := c.sw &&& 0xEFFF }
    | 3 => { c with sw := (c.sw &&& 0xF3FF) ||| ((w.lit &&& 3) <<< 10) }
    | 4 => { c with lock := true, lockLen := 0, lockPc := (old.u.start.map (·.pc)).getD old.pc, resv := loaded }
    | 5 => c.unlock
    | _ => c
  let c := match w.cnt with
    | 1 => { c with u := { c.u with loop := w.lit } }
    | 2 => { c with u := { c.u with loop := a.setWidth 16 } }
    | 3 => { c with u := { c.u with loop := r.gr 26 } }
    | 4 => { c with u := { c.u with loop := if old.u.loop = 0 then 0 else old.u.loop - 1 } }
    | _ => c
  let c := match w.tim with
    | 1 => { c with tim := ⟨a.toNat % 2 ^ 32, s.now, true⟩, timHit := false }
    | 2 => { c with tim := c.tim.gate s.now false }
    | 3 => { c with timHit := false }
    | _ => c
  let c := if w.sch = 0 then c
    else
      let (v, own) := s.uquery w a
      let c := c.setT 3 v
      { c with u := { c.u with sqz := v == 0, sqown := own.getD c.u.sqown } }
  let c := match w.imc with
    | 2 => { c with sw := c.sw &&& 0x7FFF }
    | 3 => { c with sw := c.sw ||| 0x8000 }
    | _ => c
  c

/-- EVT but the claim (R251). -/
def Blk.uevent (s : Blk) (k : Nat) (w : UWord) (a : BitVec 40) : Blk :=
  let b := k / 64
  let code := w.lit.toNat % 256
  match w.evt with
  | 1 => s.xtPulse [w.lit.toNat % 8]
  | 2 => s.raise (61 + 4 * b) (some (code, s.eaInfo k))
  | 3 => s.raise (58 + 4 * b) (some (code, s.eaInfo k))
  | 5 => s.complete b (a.toNat % 256)
  | 6 =>
    let t := 8 * (a.toNat / 256 % 256) + a.toNat % 8
    let s := s.onCtx t fun c => { c with pend := c.pend ||| BitVec.ofNat 3 (2 ^ (w.lit.toNat % 8)) }
    if t / 64 = b then s else s.edge (t / 64)
  | _ => s

/-- The command of DMV (R251): the quad at MAR, or T0 to T3 with the first word in T0[15:0]. -/
def State.udmCmd (s : State) (k : Nat) (c : Ctx) (w : UWord) : State × Except (Option ZFault) (BitVec 64) :=
  if w.dmv = 2 then
    (s, .ok (BitVec.ofNat 64 ([0, 1, 2, 3].foldl (fun n j => n * 2 ^ 16 + (c.tr j).toNat % 2 ^ 16) 0)))
  else
    let bank := (c.u.mar.extractLsb' 16 8).toNat
    let off := (c.u.mar.setWidth 16).toNat
    match strFault bank off with
    | some z => (s, .error (some z))
    | none =>
      if off % 4 ≠ 0 then (s, .error (some (afault 0x04 bank off)))
      else match s.load k bank off 4 with
        | (s, some v) => (s, .ok v)
        | (s, none) => (s, .error none)

/-- A dispatch's operand of `n` words: registers from the one selected, or the value extended by sign (R251). -/
def Ctx.uoperand (c : Ctx) (code n : Nat) (v : BitVec 40) : Nat :=
  match uregs c.u.ir code with
  | some (r, _) => c.val r n
  | none => (v.signExtend 64).toNat % 2 ^ (16 * n)

/-- How a microword ends that does not retire its cycle in the ordinary way. -/
inductive UStop where
  | wait (w : WaitFor)
  | fault (f : ZFault)
  | ue
  | trap (code : Nat)
  | detected
  | hold
  deriving DecidableEq, Repr

/-- The places that the sources of a word read, from the bank that CTX 7 selects. -/
def Ctx.ureads (r : Ctx) (w : UWord) (na nb : Nat) : List Nat := r.uplaces w.asrc na ++ r.uplaces w.bsrc nb

/-- The places that the result of a dispatch goes to, `nd` words of it. -/
def Ctx.udispDst (c : Ctx) (w : UWord) (nd : Nat) : List Nat :=
  match uregs c.u.ir w.dst with
  | some (g, _) => c.places g nd
  | none => (c.udst w.dst nd).drop ((c.udst w.dst nd).length - nd)

/-- What keeps a word from executing, in order (R200, R212, R215, R233, R251, R254). -/
def State.ustop (s : State) (k : Nat) (c r : Ctx) (w : UWord) : Option UStop :=
  let b := s.blk
  let compat := b.bit (F.EA_ENG_CTRL_COMPAT (k / 64) (b.slotOf (k / 8)))
  let unit := w.cop % 8
  let op := w.lit.toNat % 256
  let shape : Option (Nat × Nat × Nat) := if unit < 4 then copShape unit op else some (socketShape op)
  let (nd, na, nb) := if w.dispatches then shape.getD (0, 0, 0) else (0, 0, 0)
  let rd := r.ureads w na nb
  if b.uillegal k c w then some (.trap 1)
  else if w.seq = 8 ∧ !compat then some (.trap 7)
  else if w.seq = 8 ∧ b.ucond k c w.cond = w.cpol then some .hold
  else
    match (rd ++ ((c.uwrites w).filter fun i => decide (i < 75)) ++ (if w.dispatches then c.udispDst w nd else [])).find? fun i => b.pendingReg k i with
    | some i => some (.wait (.reg i))
    | none =>
      if r.regErr rd then some .ue
      else if rd.any (fun i => (pget c.parErr i).isSome) then some .detected
      else if (w.aluDst || w.flagsOnly) && b.injects k then some .detected
      else if w.dispatches then
        match shape with
        | none => some (.fault (zfault 0x01))
        | some _ =>
          if !b.unitThere unit then some (.fault (zfault 0x0B))
          else if 4 ≤ b.portUse (k / 8) then some (.wait .port)
          else none
      else none

/-- A word that is stopped. -/
def State.ustopped (s : State) (k ua : Nat) (c r : Ctx) (w : UWord) (x : UStop) : State :=
  match x with
  | .wait f => { s with blk := s.blk.leave k .wait (some f) }
  | .fault f => s.fault k f
  | .ue => { s with blk := s.blk.regUe k }
  | .trap code => { s with blk := s.blk.utrap k code ua }
  | .detected =>
    let rd := r.ureads w 0 0
    let b := s.blk.onCtx k fun c => { c with parErr := rd.foldl (fun m i => pdel m i) c.parErr }
    let b := if rd.any fun i => (pget c.parErr i).isSome then b else b.clr1 (F.EA_ENG_CTRL_INJ (k / 64) (b.slotOf (k / 8)))
    { s with blk := b.detected k }
  | .hold => { s with blk := s.blk.work (k / 8) 1 }

/-- The data-mover part of a word: its command with its lines and class, or what stops the word (R251, R292). -/
def State.udmv (s : State) (k : Nat) (c : Ctx) (w : UWord) : State × Except UStop (Option (BitVec 64 × List PAddr × Nat)) :=
  if w.dmv = 0 then (s, .ok none)
  else if w.dmv = 1 && !s.blk.bmReady (k / 64) then (s, .error (.wait (.grant s.blk.now)))
  else
    match s.udmCmd k c w with
    | (s, .error (some f)) => (s, .error (.fault f))
    | (s, .error none) => (s, .error .ue)
    | (s, .ok cmd) =>
      match c.dmCheck (dmCmd cmd) with
      | .error f => (s, .error (.fault f))
      | .ok (lines, cls) =>
        match s.blk.dmWait k (dmCmd cmd) with
        | some x => (s, .error (.wait x))
        | none => (s, .ok (some (cmd, lines, cls)))

/-- The context after a word that executes: datapath, loaded data, which a pool-window access brings later (R283), address unit, stack pointer, IR,
side fields, sequencer. -/
def Blk.uctx (s : Blk) (c r : Ctx) (w : UWord) (n : Nat) (a b : BitVec 40) (data : BitVec 64) (ws : List Half) (pool : Bool)
    (claim : Option Word) (ua : BitVec 14) (q : USeq) : Ctx :=
  let res := ualu w a b c.u.acc c.flags.c
  let d := c.ualuStep w n a b
  let d := match claim with | some v => d.uput w.dst (v.setWidth 40) | none => d
  let d := match w.xval (r.uaddr a res w.xsrc) b with
    | some x => let d := d.uaddrPut w.xdst x; { d with u := { d.u with xr := x } }
    | none => d
  let sp := c.sr (stkReg c.priv 1)
  let d := match w.mop with
    | 4 => d.setSr (stkReg c.priv 1) (sp - BitVec.ofNat 16 w.words)
    | 5 => d.setSr (stkReg c.priv 1) (sp + BitVec.ofNat 16 w.words)
    | _ => d
  let d := match ws with
    | [] => d
    | w0 :: rest =>
      let hi := match rest with | w1 :: _ => w1 | [] => c.u.ir.extractLsb' 16 16
      { d with pc := c.pc + BitVec.ofNat 16 ws.length,
               u := { d.u with ir := hi ++ w0, start := some { cb := c.cb, pc := c.pc, ua := ua } } }
  let d := if w.loads && !pool then d.uload w n data else d
  let (bank, off) := r.umem w a
  let d := s.uside d w a (if w.loads ∧ bank ≤ 7 then some (bayWord bank off) else none) c r
  let d := if w.ctx = 7 then { d with u := { d.u with trap := none } } else d
  let d := { d with u := { d.u with pc := q.pc, stack := q.stack, loop := if w.seq = 7 then q.loop else d.u.loop } }
  d

/-- Whether a word ends the instruction before it: it fetches the next one or writes PC (R211). -/
def UWord.ends (w : UWord) : Bool := w.mop == 3 || (w.xop != 0 && (w.xdst == 1 || w.xdst == 2))

/-- A word that executes, after its memory operation (R232). -/
def State.ucommit (s : State) (k : Nat) (c r : Ctx) (w : UWord) (n more : Nat) (ua : BitVec 14) (q : USeq) (a b : BitVec 40)
    (data : BitVec 64) (ws : List Half) (cyc : Nat) (dm : Option (BitVec 64 × List PAddr × Nat)) (pool : Option (PAddr × Nat)) : State :=
  let e := k / 8
  let (blk, claim) := if w.evt = 4 then (let x := s.blk.claim (k / 64); (x.1, some x.2)) else (s.blk, none)
  let d := blk.uctx c r w n a b data ws pool.isSome claim ua q
  let rd := r.ureads w 0 0
  let blk := (blk.setCtx k { d with u := { d.u with start := if w.mop = 3 then d.u.start else c.u.start } }).regFix k rd
  let ends := w.ends && c.u.start.isSome
  let blk := if ends then
      let p := c.u.start.getD ⟨0, 0, 0⟩
      let x := blk.retire k 0 false p.cb p.pc
      if w.mop = 3 then x.onCtx k fun y => { y with u := { y.u with start := d.u.start } } else x
    else blk
  let blk := if w.dispatches then
      let unit := w.cop % 8
      let op := w.lit.toNat % 256
      let (nd, na, nb) := (if unit < 4 then copShape unit op else some (socketShape op)).getD (0, 0, 0)
      blk.dispatch k unit op (c.udispDst w nd) (r.uoperand w.asrc na a) (r.uoperand w.bsrc nb b)
    else blk
  let blk := blk.uevent k w a
  let bank := (r.umem w a).1
  let ctl := (w.loads || w.mop == 2 || w.mop == 4) && decide (0xC0 ≤ bank) && decide (bank ≤ 0xDF)
  let blk := if ctl then blk.onCtx k fun y => { y with u := { y.u with issued := true } } else blk
  let blk := if w.imc = 1 then blk.setEng e { blk.eng e with hold := blk.now + cyc } else blk
  let blk := blk.work e (cyc + more)
  let s := { s with blk := blk }
  let s := match dm with | some (cmd, lines, cls) => s.dmIssue k cmd lines cls | none => s
  let s := match q.trap with | some t => { s with blk := s.blk.utrap k t ua.toNat } | none => s
  match pool with
  | some (p, cls) =>
    let (bank, off) := r.umem w a
    let places := c.udst w.dst w.words
    let v : BitVec 64 := if w.msz = 2 then a.setWidth 32 ++ b.setWidth 32 else b.setWidth 64
    let cut := places.length - w.words
    let dst := if w.loads then places.drop cut else []
    let up := if w.loads then (places.take cut).zipIdx.map fun x => (x.1, Config.microLoad n x.2) else []
    let fin : PoolFin := if w.ctx = 6 then .finish else match w.ctx, c.u.trap.bind (fun t => utrapFault t.1) with
      | 7, some f => .raise f.cause f.sec
      | _, _ => .go
    { s with blk := s.blk.poolStart k w.loads dst v w.words bank off p cls 0 up fin }
  | none =>
    if w.ctx = 6 then { s with blk := s.blk.leave k .idle none }
    else if w.seq = 9 then { s with blk := s.blk.yieldCtx k }
    else
      match w.ctx, c.u.trap with
      | 7, some (code, _) => (match utrapFault code with | some f => s.fault k f | none => s)
      | _, _ => { s with blk := s.blk.powerLeave k }

/-- A word whose accesses clash with those of another requester of the bay (R200, case 5; R409). -/
def State.uclash (s t : State) (k : Nat) : Bool := s.blk.clash t.blk (k / 64) (s.blk.engReq k)

/-- The word that would fetch the next instruction ends the one before, and the deferred fault is raised in its place (R334). -/
def State.udeferred (s : State) (k : Nat) (c : Ctx) : State :=
  let b := match c.u.start with
    | some p => (s.blk.retire k 0 false p.cb p.pc)
    | none => s.blk
  State.deferred { s with blk := b } k

/-- One fetched word of a context executes (R232 to R254); `dpar` where the dispatch entry that a DISP reads has a parity error, which is detected
(R239). -/
def State.uexec (s : State) (k : Nat) (ua : BitVec 14) (x : BitVec 160) (more : Nat) (dpar : Bool) : State :=
  let c := s.blk.ctx k
  let w := uword x
  let n := s.blk.opNo
  let r : Ctx := if w.ctx = 7 then { c with sw := c.sw ^^^ 0x1000 } else c
  match s.ustop k c r w with
  | some z => s.ustopped k ua.toNat c r w z
  | none =>
    if dpar && w.seq == 5 then { s with blk := s.blk.detected k } else
    let a := r.usrc w n w.asrc
    let b := r.usrc w n w.bsrc
    if w.mop == 3 && c.defer then s.udeferred k c else
    match s.udmv k c w with
    | (t, .error z) => if s.uclash t k then s.ungranted k else t.ustopped k ua.toNat c r w z
    | (s', .ok dm) =>
      let s0 := s
      let s := s'
      let s1 : State := { s with blk := { s.blk with opNo := n + 1 } }
      let q := s.blk.useq k c w n ua
      match s1.umop k c r w a b with
      | (_, .fault f) => s.fault k f
      | (_, .trap) => { s with blk := s.blk.utrap k 1 ua.toNat }
      | (_, .ungranted) => s0.ungranted k
      | (t, .ue) => if s0.uclash t k then s0.ungranted k else { t with blk := t.blk.regUe k }
      | (t, .done data ws cyc) =>
        if s0.uclash t k then s0.ungranted k else t.ucommit k c r w n more ua q a b data ws cyc dm none
      | (t, .pool p cls cyc) => t.ucommit k c r w n more ua q a b 0 [] cyc dm (some (p, cls))

/-- The fetch and execution of the context's next microword. -/
def State.ustep (s : State) (k : Nat) (rom flip : BitVec 161) (dpar : Bool) : State :=
  let b := s.blk
  let c := b.ctx k
  let ua := c.u.pc
  let mark := c.u.skip == some ua.toNat
  let b := if mark then b.onCtx k fun c => { c with u := { c.u with skip := none } } else b
  let rom := b.romWord ua.toNat rom
  let s := { s with blk := b }
  match b.ufetch (k / 8) ua.toNat rom mark with
  | .trap code => { s with blk := b.utrap k code ua.toNat }
  | .word x patch more =>
    let b := if patch.isNone then b.romSeen ua.toNat rom else b
    let s := { s with blk := b }
    match meccCheck (x ^^^ flip) with
    | none =>
      let b := match patch with
        | some i =>
          let b := { b with patchBad := pset b.patchBad (1024 * (k / 64) + i) () }
          b.raise 48 (some (0x10, k / 64 * 2 ^ 24 + (0x2000 + i)))
        | none => b
      { s with blk := b.detected k }
    | some (w, fixed) =>
      let s := if fixed then { s with blk := b.bump F.CS_CE_CNT_COUNT } else s
      s.uexec k ua w more dpar

/-- A context executes a microword, where it issues; a STEP with UWORD ends with it, a STEP of a macro instruction runs none (R508). -/
def State.microword (s : State) (k : Nat) (rom flip : BitVec 161) (dpar : Bool) : State :=
  if !s.issues k || s.blk.td.step = some (k, false) then s
  else if (s.blk.ctx k).defer && (s.blk.ctx k).u.start.isNone then s.deferred k
  else (s.ustep k rom flip dpar).stepDone s k

/-- MICROWORD_EXECUTE (R232). -/
def execMicrowordExecute (dt : Nat) (c : CtxRef) (rom flip : BitVec 161) (dpar : Bool) (s : State) : Host.Outcome State Fault Refusal :=
  s.runM dt fun s => s.microword (ctxKey c) rom flip dpar

end Sys2Proof.Machine
end

