-- ==== Sys2Proof/Machine/Monitor.lean ====
section
/-! DEFINITION. The commands of the monitor (16, R497 to R512). -/

namespace Sys2Proof.Machine

/-- A monitor command whose code stands in TD_MON_CMD0 is carried out while BUSY is 1, at the level that it needs (R498 to R500); a STEP
in progress keeps BUSY. -/
def State.mon (s : State) (dt code level : Nat) (f : State → State) : Host.Outcome State Fault Refusal :=
  s.trust dt fun s =>
    let b := s.blk
    if b.bit F.TD_MON_STAT_BUSY && b.rd (F.TD_MON_CMD_off 0) &&& 0xFF == BitVec.ofNat 32 code && b.td.step.isNone then
      if b.fld F.TD_DBG_STAT_LEVEL < level then { s with blk := b.monEnd 1 [] } else f s
    else s

/-- The command ends. -/
def State.answer (s : State) (status : Nat) (data : List Word := []) : State := { s with blk := s.blk.monEnd status data }

/-! ### Registers and bay memory -/

/-- Whether an offset can be accessed (R12, R516, R517); the cause of its error else. -/
def offCause (off : Nat) : Option Nat :=
  if off % 4 ≠ 0 then some 0 else if 0x400000 ≤ off ∨ (pageOf (off % 0x200000)).isNone then some 1 else none

/-- The first of `n` registers that cannot be accessed, recorded (R520). -/
def Blk.monBad (s : Blk) (wr : Bool) (off n : Nat) : Option Blk :=
  match ((List.range n).map (off + 4 * ·)).find? fun o => (offCause o).isSome with
  | some o => some (s.accErr .monitor wr ((offCause o).getD 0) (o % 0x400000))
  | none => none

/-- The values of `n` registers from an offset, read one after the other. -/
def Blk.monRead (s : Blk) (off : Nat) : Nat → Blk × List Word
  | 0 => (s, [])
  | n + 1 =>
    let (s, v) := s.winRead .monitor off 32
    let (s, l) := s.monRead (off + 4) n
    (s, v :: l)

/-- READ_REG (R499, R501). -/
def State.monReadReg (s : State) (off count : Nat) (normal : Bool) : State :=
  let off := if normal then off else off % 0x200000 + 0x200000
  if normal && decide (s.blk.fld F.TD_DBG_STAT_LEVEL < 3) then s.answer 1
  else if count = 0 ∨ 14 < count then s.answer 2
  else
    match s.blk.monBad false off count with
    | some b => { s with blk := b }.answer 4
    | none =>
      let (b, l) := s.blk.monRead off count
      { s with blk := b }.answer 0 l

/-- WRITE_REG (R499, R501). -/
def State.monWriteReg (s : State) (off : Nat) (vals : List Word) : State :=
  if vals.isEmpty ∨ 13 < vals.length then s.answer 2
  else
    match s.blk.monBad true off vals.length with
    | some b => { s with blk := b }.answer 4
    | none => (vals.zipIdx.foldl (fun s x => s.winWrite .monitor (off + 4 * x.2) 32 x.1) s).answer 0

/-- Words as response words, two in each, the first in the low half (R499). -/
def packWords : List Half → List Word
  | [] => []
  | [a] => [a.setWidth 32]
  | a :: b :: l => (b ++ a) :: packWords l

/-- Words of bay memory, up to one that is uncorrectable (R500, R502). -/
def State.monWords (s : State) (b a : Nat) : Nat → State × List Half × Bool
  | 0 => (s, [], true)
  | n + 1 =>
    match s.bmRead b a 12 with
    | (s, some v) =>
      let (s, l, ok) := s.monWords b (a + 1) n
      (s, v :: l, ok)
    | (s, none) => (s, [], false)

/-- Whether a range of bay memory is one (R499). -/
def bmRange (bay addr n most : Nat) : Bool := decide (bay < 32) && decide (0 < n) && decide (n ≤ most) && decide (addr + n ≤ 2 ^ 19)

/-- READ_BM (R502), which waits while the memory serves no request (R421). -/
def State.monReadBm (s : State) (bay addr count : Nat) : State :=
  if !bmRange bay addr count 28 then s.answer 2
  else if !s.blk.bmReady bay then s
  else
    let (s, l, ok) := s.monWords bay addr count
    s.answer (if ok then 0 else 4) (packWords l)

/-- WRITE_BM (R502). -/
def State.monWriteBm (s : State) (bay addr : Nat) (ws : List Half) : State :=
  if !bmRange bay addr ws.length 24 then s.answer 2
  else if !s.blk.bmReady bay then s
  else (s.bmWrites bay none (ws.mapIdx fun i v => (addr + i, v)) 12).answer 0

/-! ### Halts and steps -/

/-- HALT (R505, R506): the request enters the matrix in this cycle. -/
def State.monHalt (s : State) (d : Domain) (force : Bool) : State :=
  match d with
  | .engine n => if n < 256 then { s with blk := s.blk.askHalt d force }.answer 0 else s.answer 2
  | .bay n => if n < 32 then { s with blk := s.blk.askHalt d force }.answer 0 else s.answer 2
  | .block => { s with blk := s.blk.askHalt d force }.answer 0
  | .other => s.answer 2

/-- RELEASE (R507). -/
def State.monRelease (s : State) (d : Domain) : State :=
  match d with
  | .engine n =>
    if n < 256 then
      let (b, ok) := s.blk.releaseEngine n
      { s with blk := b }.answer (if ok then 0 else 5)
    else s.answer 2
  | .bay n => if n < 32 then { s with blk := s.blk.releaseBay n }.answer 0 else s.answer 2
  | .block => { s with blk := s.blk.releaseBlock }.answer 0
  | .other => s.answer 2

/-- STEP begins (R508): the held results of the engine are written, and the context's next command of its kind runs alone. -/
def State.monStep (s : State) (e c : Nat) (uword : Bool) : State :=
  let k := 8 * e + c
  if 255 < e ∨ 7 < c then s.answer 2
  else if !s.blk.halted e then s.answer 3
  else
    let x := s.blk.ctx k
    let armed := { s.blk with td := { s.blk.td with step := some (k, uword) } }
    if s.blk.blockHalted || x.st != .halt || (x.under != .ready && x.under != .run) || !armed.executes e then s.answer 5
    else
      let b := (engCtxs e).foldl (fun b j => b.copFlush j) armed
      { s with blk := b.setCtx k { b.ctx k with st := .run, waitFor := none } }

/-! ### Contexts -/

/-- The value of an item of READ_CTX (R499). -/
def Blk.ctxItem (s : Blk) (k i : Nat) : Word :=
  let x := s.ctx k
  if i < 0x40 then
    (if s.pendingReg k i then 0x80000000 else 0) ||| (tget (fun _ => (0 : Half)) x.g i).setWidth 32
  else if i < 0x80 then (s.sysRead k (i - 0x40)).setWidth 32
  else if i = 0x80 then x.pc.setWidth 32
  else (x.cb ++ x.bk).setWidth 32

/-- READ_CTX (R499). -/
def State.monReadCtx (s : State) (e c item count : Nat) : State :=
  if 255 < e ∨ 7 < c ∨ count = 0 ∨ 14 < count ∨ 0x82 < item + count then s.answer 2
  else if !s.blk.halted e then s.answer 3
  else s.answer 0 ((List.range count).map fun i => s.blk.ctxItem (8 * e + c) (item + i))

/-- A context with an item written, none for a system-register number that cannot be (R273, R499). -/
def Ctx.setItem (x : Ctx) (i : Nat) (v : Half) (now : Nat) : Option Ctx :=
  if i < 0x40 then some (x.gset i v)
  else if i < 0x80 then
    match { x with sw := (x.sw &&& 0x9FFF) ||| 0x4000 }.sysWrite (i - 0x40) v now with
    | .ok y => some { y with sw := (y.sw &&& 0x9FFF) ||| (x.sw &&& 0x6000) }
    | .error _ => none
  else if i = 0x80 then some { x with pc := v, farBad := false }
  else some { x with cb := v.extractLsb' 8 8, bk := v.setWidth 8, farBad := false }

/-- WRITE_CTX (R499). -/
def State.monWriteCtx (s : State) (e c item : Nat) (v : Word) : State :=
  let k := 8 * e + c
  if 255 < e ∨ 7 < c ∨ 0x81 < item then s.answer 2
  else if !s.blk.halted e then s.answer 3
  else if item < 0x40 ∧ s.blk.pendingReg k item then s.answer 5
  else
    match (s.blk.ctx k).setItem item (v.setWidth 16) s.blk.now with
    | some x => { s with blk := s.blk.setCtx k x }.answer 0
    | none => s.answer 2

/-! ### Breakpoints, triggers, events, fuses -/

/-- BREAK (R257, R499). -/
def State.monBreak (s : State) (bay n : Nat) (en : Bool) (rom : BitVec 13) (mask : Byte) : State :=
  if 31 < bay ∨ 63 < n then s.answer 2
  else
    let b := s.blk
    let refused := (b.patchMatch bay n).isSome || (List.range 64).any fun m => b.patchMatch bay m == some rom.toNat
    let v : Word := BitVec.ofNat 32 (en.toNat * 2 ^ 31 + 2 ^ 30 + mask.toNat * 2 ^ 16 + rom.toNat)
    let b := b.wrMatch bay n false v
    if refused then { s with blk := b }.answer 5
    else
      let key := 64 * bay + n
      let b := b.onTd fun t => { t with brk := if en then pset t.brk key () else pdel t.brk key }
      { s with blk := b }.answer 0

/-- XT_CFG (R499, R504). -/
def State.monXtCfg (s : State) (ch : Nat) (cfg : XtCfg) : State :=
  if 7 < ch then s.answer 2
  else
    let b := (List.range 8).foldl (fun b w => b.wr (F.TD_XT_ENG_off ch w) (cfg.eng.extractLsb' (32 * w) 32)) s.blk
    let b := (b.wr (F.TD_XT_BAY_off ch) cfg.bay).setBit (F.TD_XT_CTL_BLOCK ch) cfg.block
    { s with blk := b.wr (F.TD_XT_BRK_off ch) cfg.brk }.answer 0

/-- EVENTS (R499): up to 14 sources that Sage has completed on T33; more wait for the next one. -/
def State.monEvents (s : State) : State :=
  let l := s.blk.td.sage
  { s with blk := s.blk.onTd fun t => { t with sage := l.drop 14 } }.answer 0 ((l.take 14).map (BitVec.ofNat 32))

/-- FUSE_PROG of an entry (R512): the bits blown but for those that do not read back set. -/
def State.monFuse (s : State) (bay arr ent : Nat) (vpp : Vpp) (fail : BitVec 7) : State :=
  if 31 < bay ∨ 4 < arr ∨ 3 < ent then s.answer 2
  else
    let b := s.blk
    let at_ := repAt bay arr ent
    let fused := ((b.td.fuses.rep ||| b.burnt) >>> (at_ + 6)).getLsbD 0
    let info := bay * 2 ^ 24 + arr * 2 ^ 16 + ent
    if !b.bit (repFld bay arr ent 6 1) ∨ fused then s.answer 2
    else if vpp ≠ .programming ∨ b.bit (F.EA_BAY_CTRL_EN bay) then s.answer 5
    else
      let want : BitVec 7 := 0x40 ||| BitVec.ofNat 7 (b.fld (repFld bay arr ent 0 6))
      let b := { b with burnt := b.burnt ||| ((want &&& ~~~fail).setWidth 4480 <<< at_) }
      let b := if want &&& fail = 0 then b.raise 5 (some (0x31, info)) else b.raise 5 (some (0x32, info))
      { s with blk := b }.answer 0

/-! ### Commands -/

/-- The number of engines or bays that a mask register shows halted. -/
def countBits (ws : List Word) : Nat := (ws.map fun w => ((List.range 32).filter fun i => w.getLsbD i).length).foldl (· + ·) 0

/-- STATUS (R499): LEVEL, SRC, the numbers of halted engines and bays. -/
def execMonStatus (dt : Nat) (s : State) : Host.Outcome State Fault Refusal :=
  s.mon dt 0x00 0 fun s =>
    s.answer 0 [BitVec.ofNat 32 (s.blk.fld F.TD_DBG_STAT_LEVEL), BitVec.ofNat 32 (s.blk.fld F.TD_DBG_STAT_SRC),
      BitVec.ofNat 32 (countBits ((List.range 8).map s.blk.hstatWord)), BitVec.ofNat 32 (countBits [s.blk.rd F.TD_HSTATB_off])]
/-- READ_REG (R501). -/
def execMonReadReg (dt : Nat) (off : BitVec 22) (count : Nat) (normal : Bool) (s : State) : Host.Outcome State Fault Refusal :=
  s.mon dt 0x01 1 fun s => s.monReadReg off.toNat count normal
/-- WRITE_REG (R501). -/
def execMonWriteReg (dt : Nat) (off : BitVec 22) (vals : List Word) (s : State) : Host.Outcome State Fault Refusal :=
  s.mon dt 0x02 3 fun s => s.monWriteReg off.toNat vals
/-- READ_BM (R502). -/
def execMonReadBm (dt bay addr count : Nat) (s : State) : Host.Outcome State Fault Refusal :=
  s.mon dt 0x03 1 fun s => s.monReadBm bay addr count
/-- WRITE_BM (R502). -/
def execMonWriteBm (dt bay addr : Nat) (ws : List Half) (s : State) : Host.Outcome State Fault Refusal :=
  s.mon dt 0x04 3 fun s => s.monWriteBm bay addr ws
/-- HALT (R505). -/
def execMonHalt (dt : Nat) (d : Domain) (force : Bool) (s : State) : Host.Outcome State Fault Refusal :=
  s.mon dt 0x05 2 fun s => s.monHalt d force
/-- RELEASE (R507). -/
def execMonRelease (dt : Nat) (d : Domain) (s : State) : Host.Outcome State Fault Refusal :=
  s.mon dt 0x06 2 fun s => s.monRelease d
/-- STEP (R508). -/
def execMonStep (dt e c : Nat) (uword : Bool) (s : State) : Host.Outcome State Fault Refusal :=
  s.mon dt 0x07 2 fun s => s.monStep e c uword
/-- READ_CTX (R499). -/
def execMonReadCtx (dt e c item count : Nat) (s : State) : Host.Outcome State Fault Refusal :=
  s.mon dt 0x08 1 fun s => s.monReadCtx e c item count
/-- WRITE_CTX (R499). -/
def execMonWriteCtx (dt e c item : Nat) (v : Word) (s : State) : Host.Outcome State Fault Refusal :=
  s.mon dt 0x09 3 fun s => s.monWriteCtx e c item v
/-- BREAK (R499). -/
def execMonBreak (dt bay n : Nat) (en : Bool) (rom : BitVec 13) (mask : Byte) (s : State) : Host.Outcome State Fault Refusal :=
  s.mon dt 0x0A 2 fun s => s.monBreak bay n en rom mask
/-- XT_CFG (R504). -/
def execMonXtCfg (dt ch : Nat) (cfg : XtCfg) (s : State) : Host.Outcome State Fault Refusal :=
  s.mon dt 0x0B 2 fun s => s.monXtCfg ch cfg
/-- EVENTS (R499). -/
def execMonEvents (dt : Nat) (s : State) : Host.Outcome State Fault Refusal := s.mon dt 0x0C 1 fun s => s.monEvents
/-- FUSE_PROG (R512); beyond the ratings no behaviour of the manual holds (R543). -/
def execMonFuseProg (dt bay arr ent : Nat) (vpp : Vpp) (fail : BitVec 7) (s : State) : Host.Outcome State Fault Refusal :=
  if vpp = .beyond then .fault .beyondRatings else s.mon dt 0x0D 3 fun s => s.monFuse bay arr ent vpp fail

end Sys2Proof.Machine
end

