-- ==== Sys2Proof/Machine/PatchRows.lean ====
section
/-! DEFINITION. The commands of the patch loader (07). -/

namespace Sys2Proof.Machine

/-- PATCH_GO (R259). -/
def execPatchGo (req : Req) (v : Word) (s : State) : Host.Outcome State Fault Refusal :=
  s.reg fun b => b.gated req F.CS_PATCH_CTRL_off fun b => b.wrPatchCtrl (force F.CS_PATCH_CTRL_GO v 1)
/-- PATCH_LOAD_COMPLETE (R260). -/
def execPatchLoadComplete (dt : Nat) (s : State) : Host.Outcome State Fault Refusal := s.run dt fun b => b.patchLoaded
/-- PATCH_ACT (R260). -/
def execPatchAct (req : Req) (v : Word) (s : State) : Host.Outcome State Fault Refusal :=
  s.reg fun b => b.gated req F.CS_PATCH_CTRL_off fun b => b.wrPatchCtrl (force F.CS_PATCH_CTRL_ACT v 1)
/-- MATCH_REGISTER_WRITE (R257). -/
def execMatchRegisterWrite (req : Req) (bay : Bay) (n : Fin 64) (tgt : Bool) (v : Word) (s : State) : Host.Outcome State Fault Refusal :=
  s.reg fun b => b.gated req (if tgt then F.CS_MATCH_TGT_off bay n else F.CS_MATCH_ADDR_off bay n) fun b => b.wrMatch bay n tgt v

end Sys2Proof.Machine
end

