-- ==== Sys2Proof/Machine/PinRows.lean ====
section
/-! DEFINITION. The commands of the pin engines (15). -/

namespace Sys2Proof.Machine

/-- BR (R457). -/
def execPeBr (dt : Nat) (n : Fin 32) (pads : BitVec 128) (s : State) : Host.Outcome State Fault Refusal :=
  s.run dt fun b => b.peExec n pads .br Blk.peBr
/-- HOLD (R457). -/
def execPeHold (dt : Nat) (n : Fin 32) (pads : BitVec 128) (s : State) : Host.Outcome State Fault Refusal :=
  s.run dt fun b => b.peExec n pads .hold Blk.peHold
/-- PAUSE (R455). -/
def execPePause (dt : Nat) (n : Fin 32) (pads : BitVec 128) (s : State) : Host.Outcome State Fault Refusal :=
  s.run dt fun b => b.peExec n pads .pause Blk.pePause
/-- SHIN (R458). -/
def execPeShin (dt : Nat) (n : Fin 32) (pads : BitVec 128) (s : State) : Host.Outcome State Fault Refusal :=
  s.run dt fun b => b.peExec n pads .shin Blk.peShin
/-- SHOUT (R458). -/
def execPeShout (dt : Nat) (n : Fin 32) (pads : BitVec 128) (s : State) : Host.Outcome State Fault Refusal :=
  s.run dt fun b => b.peExec n pads .shout Blk.peShout
/-- FIFO_LOAD (R459). -/
def execPeFifoLoad (dt : Nat) (n : Fin 32) (pads : BitVec 128) (s : State) : Host.Outcome State Fault Refusal :=
  s.run dt fun b => b.peExec n pads .load Blk.peFifo
/-- FIFO_STORE (R459). -/
def execPeFifoStore (dt : Nat) (n : Fin 32) (pads : BitVec 128) (s : State) : Host.Outcome State Fault Refusal :=
  s.run dt fun b => b.peExec n pads .store Blk.peFifo
/-- FIFO_LOADIF (R459). -/
def execPeFifoLoadif (dt : Nat) (n : Fin 32) (pads : BitVec 128) (s : State) : Host.Outcome State Fault Refusal :=
  s.run dt fun b => b.peExec n pads .loadif Blk.peFifo
/-- FIFO_STOREIF (R459). -/
def execPeFifoStoreif (dt : Nat) (n : Fin 32) (pads : BitVec 128) (s : State) : Host.Outcome State Fault Refusal :=
  s.run dt fun b => b.peExec n pads .storeif Blk.peFifo
/-- PUT (R457). -/
def execPePut (dt : Nat) (n : Fin 32) (pads : BitVec 128) (s : State) : Host.Outcome State Fault Refusal :=
  s.run dt fun b => b.peExec n pads .put Blk.pePut
/-- COPY (R457). -/
def execPeCopy (dt : Nat) (n : Fin 32) (pads : BitVec 128) (s : State) : Host.Outcome State Fault Refusal :=
  s.run dt fun b => b.peExec n pads .copy Blk.peCopy
/-- SIGNAL (R457). -/
def execPeSignal (dt : Nat) (n : Fin 32) (pads : BitVec 128) (s : State) : Host.Outcome State Fault Refusal :=
  s.run dt fun b => b.peExec n pads .signal Blk.peSignal
/-- SWAP (R458). -/
def execPeSwap (dt : Nat) (n : Fin 32) (pads : BitVec 128) (s : State) : Host.Outcome State Fault Refusal :=
  s.run dt fun b => b.peExec n pads .swap Blk.peSwap
/-- PE_NOP (R457, R460). -/
def execPeNop (dt : Nat) (n : Fin 32) (pads : BitVec 128) (s : State) : Host.Outcome State Fault Refusal :=
  s.run dt fun b => b.peExec n pads .nop Blk.peNop
/-- STOP (R460). -/
def execPeStop (dt : Nat) (n : Fin 32) (pads : BitVec 128) (s : State) : Host.Outcome State Fault Refusal :=
  s.run dt fun b => b.peExec n pads .stop Blk.peStop
/-- PE_START (R461). -/
def execPeStart (req : Req) (n : Fin 32) (v : Word) (s : State) : Host.Outcome State Fault Refusal :=
  s.reg fun b => b.gated req (F.SB_PE_CTRL_off n) fun b => b.wrPeCtrl n (force (F.SB_PE_CTRL_EN n) v 1)
/-- PE_STOP_WRITE (R462). -/
def execPeStopWrite (req : Req) (n : Fin 32) (v : Word) (s : State) : Host.Outcome State Fault Refusal :=
  s.reg fun b => b.gated req (F.SB_PE_CTRL_off n) fun b => b.wrPeCtrl n (force (F.SB_PE_CTRL_EN n) v 0)
/-- PE_GROUP_START (R461). -/
def execPeGroupStart (req : Req) (v : Word) (s : State) : Host.Outcome State Fault Refusal :=
  s.reg fun b => b.gated req F.SB_PE_GSTART_off fun b => b.wrPeGstart v
/-- PE_PROGRAM_WRITE (R462). -/
def execPeProgramWrite (req : Req) (n : Fin 32) (k : Fin 16) (v : Word) (s : State) : Host.Outcome State Fault Refusal :=
  s.reg fun b => b.gated req (peProgOff n k) fun b => b.wrPeProg n k v
/-- FLAG_SET (R463). -/
def execFlagSet (req : Req) (v : Word) (s : State) : Host.Outcome State Fault Refusal :=
  s.reg fun b => b.gated req F.SB_PE_FSET_off fun b => b.flagOps (v.setWidth 16) 0 0
/-- FLAG_CLEAR (R463). -/
def execFlagClear (req : Req) (v : Word) (s : State) : Host.Outcome State Fault Refusal :=
  s.reg fun b => b.gated req F.SB_PE_FCLR_off fun b => b.flagOps 0 (v.setWidth 16) 0
/-- PE_TX_WRITE (R467). -/
def execPeTxWrite (req : Req) (n : Fin 32) (v : Word) (s : State) : Host.Outcome State Fault Refusal :=
  s.reg fun b => b.gated req (F.SB_PE_TX_off n) fun b => b.wrPeTx n v
/-- PE_RX_READ (R467). -/
def execPeRxRead (req : Req) (n : Fin 32) (s : State) : Host.Outcome State Fault Refusal :=
  s.reg fun b => { b.popRx n with winRsp := some ⟨req, b.peRx n, false⟩ }
/-- PE_FARB_WRITE (R468). -/
def execPeFarbWrite (req : Req) (n : Fin 32) (v : Word) (s : State) : Host.Outcome State Fault Refusal :=
  s.reg fun b => b.gated req (F.SB_PE_CTRL_off n) fun b => b.wrPeCtrl n v
/-- PAD_OWN_WRITE (R465). -/
def execPadOwnWrite (req : Req) (n : Fin 128) (v : Word) (s : State) : Host.Outcome State Fault Refusal :=
  s.reg fun b => b.gated req (F.SB_PAD_OWN_off n) fun b => b.wrPadOwn n v

end Sys2Proof.Machine
end

