-- ==== Sys2Proof/Machine/PowerRows.lean ====
section
/-! DEFINITION. The commands of the power arbiter (15). -/

namespace Sys2Proof.Machine

/-- PMBUS_POLL (R478). -/
def execPmbusPoll (dt : Nat) (s : State) : Host.Outcome State Fault Refusal := s.run dt fun b => b.pmPoll
/-- PMBUS_ANSWER (R478). -/
def execPmbusAnswer (dt : Nat) (s : State) : Host.Outcome State Fault Refusal := s.run dt fun b => b.pmAnswer
/-- PMBUS_TIMEOUT (R478). -/
def execPmbusTimeout (dt : Nat) (s : State) : Host.Outcome State Fault Refusal := s.run dt fun b => b.pmTimeout
/-- PWR_ALERT_N_ASSERT (R479). -/
def execPwrAlertNAssert (dt : Nat) (s : State) : Host.Outcome State Fault Refusal := s.run dt fun b => b.alertPin
/-- PWR_GOOD_CHANGE (R479). -/
def execPwrGoodChange (dt : Nat) (level : Bool) (s : State) : Host.Outcome State Fault Refusal := s.run dt fun b => b.pwrGood level
/-- SLOT_REQUEST (R480). -/
def execSlotRequest (req : Req) (v : Word) (s : State) : Host.Outcome State Fault Refusal :=
  s.reg fun b => b.gated req F.SB_SLOT_REQ_off fun b => b.wrSlotReq v
/-- SLOT_OFF (R480). -/
def execSlotOff (req : Req) (v : Word) (s : State) : Host.Outcome State Fault Refusal :=
  s.reg fun b => b.gated req F.SB_SLOT_OFF_off fun b => b.wrSlotOff v
/-- SLOT_START (R482). -/
def execSlotStart (dt : Nat) (k : Fin 16) (s : State) : Host.Outcome State Fault Refusal := s.run dt fun b => b.slotTurn k
/-- ENERGY_LIMIT_WRITE (R481): SB_SLOT_CFG, SB_SLOT_ELIM or SB_PWR_VLIM. -/
def execEnergyLimitWrite (req : Req) (off : BitVec 22) (v : Word) (s : State) : Host.Outcome State Fault Refusal :=
  s.reg fun b => b.gated req off.toNat fun b => b.wrEnergy off.toNat v

end Sys2Proof.Machine
end

