-- ==== Sys2Proof/Machine/Reset.lean ====
section
/-! DEFINITION. Reset, PLL lock (R13, R546 to R549) and the test port (R553 to R556). -/

namespace Sys2Proof.Machine

/-! ### Reset -/

/-- The block in reset: as after reset but for the cycle count, the PLL, the test port, the burnt fuse bits and the pins; TW_FAIL_N is driven low
(R540, R547, R553). -/
def Blk.intoReset (s : Blk) : Blk :=
  { Blk.reset with
    now := s.now, phase := .held, pll := s.pll, lockLost := s.lockLost, cyc := ⟨0, s.now, false⟩, tap := s.tap, burnt := s.burnt,
    pins := { Pins.reset with rstN := s.pins.rstN, role := s.pins.role, strap := s.pins.strap, tw := s.pins.tw, blank := s.pins.blank,
                              padIn := s.pins.padIn, padAt := s.pins.padAt },
    tw := { Twin.reset with failOut := true } }

/-- The release of reset, where BLK_RST_N is released, the PLL is locked and no lock has been lost since its assertion: TW_ROLE and the straps
are sampled and BLK_CYC counts from here (R155, R387, R532, R548, R549). A block whose LIFE fuses are blank has debug level 3 from here (R487,
R513; log 4). -/
def Blk.leaveReset (s : Blk) : Blk :=
  if s.phase = .held ∧ s.pins.rstN ∧ s.pll ∧ !s.lockLost then
    let s := { s with phase := .running, relAt := s.now, cyc := ⟨0, s.now, true⟩, straps := s.pins.strap,
                      pwr := { s.pwr with bndAt := s.now }, tw := { s.tw with failOut := false, pin := s.pins.tw } }
    let s := ((s.setBit F.TW_STAT_SIDE s.pins.role).setBit F.TW_STAT_PRES s.pins.tw.pres).setBit F.TW_STAT_PFAIL s.pins.tw.fail
    if s.pins.blank then s.setFld F.TD_DBG_STAT_LEVEL 3 else s
  else s

/-- `dt` cycles pass, in reset too. -/
def State.lapse (s : State) (dt : Nat) : State := s.pass dt

/-- RESET_ASSERT (R547). -/
def execResetAssert (dt : Nat) (s : State) : Host.Outcome State Fault Refusal :=
  let s := s.lapse dt
  .next { s with mem := [], blk := { s.blk.intoReset with lockLost := false, pins := { s.blk.intoReset.pins with rstN := false } } }

/-- RESET_RELEASE (R548); the test port's hold on the balls ends with it (R555). -/
def execResetRelease (dt : Nat) (role : Bool) (straps : BitVec 4) (pin : TwPins) (blank : Bool) (s : State) : Host.Outcome State Fault Refusal :=
  let s := s.lapse dt
  let b := s.blk
  if b.pins.rstN then .next s
  else
    let off := b.tap.off || b.tap.ins == .extest || b.tap.ins == .clamp || b.tap.ins == .highz
    .next { s with blk := { b with
      pins := { b.pins with rstN := true, role := role, strap := straps, tw := pin, blank := blank },
      tap := { b.tap with off := off } }.leaveReset }

/-- PLL_LOCK (R546): a block whose BLK_RST_N is released leaves reset with it (R548). -/
def execPllLock (dt : Nat) (s : State) : Host.Outcome State Fault Refusal :=
  let s := s.lapse dt
  .next { s with blk := { s.blk with pll := true }.leaveReset }

/-- PLL_LOCK_LOSS (R549): a block that has left reset enters it until BLK_RST_N has been asserted and released. -/
def execPllLockLoss (dt : Nat) (s : State) : Host.Outcome State Fault Refusal :=
  let s := s.lapse dt
  let b : Blk := { s.blk with pll := false }
  if b.phase = .running then .next { s with mem := [], blk := { b with lockLost := true }.intoReset }
  else .next { s with blk := b }

/-! ### The test port -/

/-- The instruction register of the test port takes an instruction, its data register being captured and shifted out as `out`. -/
def State.tapDo (s : State) (ins : TapIns) (out : BitVec 412) : Host.Outcome State Fault Refusal :=
  .next { s with blk := { s.blk with tap := { s.blk.tap with ins := ins, out := out, off := false } } }

/-- EXTEST, CLAMP or HIGHZ: of no effect on the balls unless BLK_RST_N is asserted (R555). -/
def State.tapHold (s : State) (ins : TapIns) (out : BitVec 412) : Host.Outcome State Fault Refusal :=
  .next { s with blk := { s.blk with tap := { s.blk.tap with ins := ins, out := out, off := s.blk.pins.rstN } } }

/-- The instruction that acts (R555). -/
def Tap.acts (t : Tap) : TapIns := if t.off then .bypass else t.ins

/-- The levels of the boundary register's output and enable cells that the state gives, by cell: those of the pads, the retransmission outputs,
TW_HB, SLED_EN, TW_FAIL_N and TW_SYNC; an open-drain output is 0 where it drives low (R554). -/
def Blk.boundOut (s : Blk) (i : Nat) : Option Bool :=
  let run := s.phase == .running
  if i < 384 then
    match i % 3 with
    | 0 => none
    | 1 => some (run && (s.padDrive (i / 3)).getD false)
    | _ => some (run && (s.padDrive (i / 3)).isSome)
  else match i with
    | 388 => some (run && s.tbOutHigh .a)
    | 390 => some (run && (s.tbOutHigh .b || s.tbLevelB))
    | 392 => some (run && s.tbOutHigh .idx)
    | 395 | 396 => some (run && s.hbDrives)
    | 389 | 391 | 393 => some true
    | 406 => some (run && s.bit F.SB_PWR_CTRL_SLEDEN)
    | 407 => some true
    | 409 => some (!s.tw.failOut)
    | 411 => some (run && s.bit F.TW_CTRL_RALGN)
    | _ => none

/-- What SAMPLE captures: the levels at the balls, and of the block's own outputs (R553, R554). -/
def Blk.sample (s : Blk) (balls : BitVec 412) : BitVec 412 :=
  (List.range 412).foldl (fun v i =>
    match s.boundOut i with
    | some b => (v &&& ~~~(1#412 <<< i)) ||| (if b then 1#412 <<< i else 0)
    | none => v) balls

/-- The identity register (R553). -/
def idcodeWord : BitVec 412 := 0x1A256C2B

/-- TAP_RESET (R553): IDCODE is selected. -/
def execTapReset (s : State) : Host.Outcome State Fault Refusal := s.tapDo .idcode s.blk.tap.out
/-- IDCODE (R553). -/
def execTapIdcode (s : State) : Host.Outcome State Fault Refusal := s.tapDo .idcode idcodeWord
/-- SAMPLE_PRELOAD (R553, R555): the capture, and the bits preloaded; the balls stay with the block. -/
def execTapSamplePreload (balls shift : BitVec 412) (s : State) : Host.Outcome State Fault Refusal :=
  let t := { s.blk.tap with ins := .sample, bound := shift, out := s.blk.sample balls, off := false }
  .next { s with blk := { s.blk with tap := t } }
/-- EXTEST (R555). -/
def execTapExtest (s : State) : Host.Outcome State Fault Refusal := s.tapHold .extest s.blk.tap.bound
/-- CLAMP (R555). -/
def execTapClamp (s : State) : Host.Outcome State Fault Refusal := s.tapHold .clamp 0
/-- HIGHZ (R555). -/
def execTapHighz (s : State) : Host.Outcome State Fault Refusal := s.tapHold .highz 0
/-- BYPASS, and every code that names no instruction (R553). -/
def execTapBypass (code : BitVec 5) (s : State) : Host.Outcome State Fault Refusal :=
  if code = 1 ∨ code = 2 ∨ code = 3 ∨ code = 4 ∨ code = 5 then .next s else s.tapDo .bypass 0

end Sys2Proof.Machine
end

