-- ==== Sys2Proof/Machine/ScheduleRows.lean ====
section
/-! DEFINITION. The commands of the slot tables and of the table switch (02). -/

namespace Sys2Proof.Machine

/-- SLOT_TABLE_WRITE (R75). -/
def execSlotTableWrite (req : Req) (off : BitVec 22) (v : Word) (s : State) : Host.Outcome State Fault Refusal :=
  s.reg fun k =>
    match slotArea off.toNat with
    | some _ => if off.toNat % 4 = 0 then k.gated req off.toNat fun k => k.wrSlotArea off.toNat v
                else k.accErr req true 0 off.toNat
    | none => k

/-- TABLE_CHECK_COMPLETE (R574). -/
def execTableCheckComplete (dt : Nat) (parity : Bool) (s : State) : Host.Outcome State Fault Refusal :=
  s.run dt fun k => if k.tblDue then k.tblComplete parity else k

/-- TABLE_ARM (R71). -/
def execTableArm (req : Req) (v : Word) (s : State) : Host.Outcome State Fault Refusal :=
  s.reg fun k => k.gated req F.SC_TBL_CTRL_off fun k => k.wrTblCtrl (force F.SC_TBL_CTRL_ARM v 1)

/-- TABLE_CANCEL (R74). -/
def execTableCancel (req : Req) (v : Word) (s : State) : Host.Outcome State Fault Refusal :=
  s.reg fun k => k.gated req F.SC_TBL_CTRL_off fun k => k.wrTblCtrl (force F.SC_TBL_CTRL_CANCEL v 1)

end Sys2Proof.Machine
end

