-- ==== Sys2Proof/Machine/TierRows.lean ====
section
/-! DEFINITION. The commands of the compressed tier (R147 to R149, R402, R403): an engine's operation with its operands, and the answers of the
compression lanes. -/

namespace Sys2Proof.Machine

/-- The OPT code of a tier operation in a data-mover command (R291). -/
def tierOpt : TierKind → Nat
  | .read => 0 | .put => 1 | .zero => 2 | .store => 3 | .fetch => 4

/-- The context's TIER command whose turn it is (R294), where it is of the kind. -/
def Blk.tierSlot (s : Blk) (k : Nat) (kind : TierKind) : Option (Nat × DmOp) :=
  match s.dms.find? fun x => x.2.ctx == k && !x.2.started with
  | some (id, op) => if (dmCmd op.cmd).op = 3 ∧ (dmCmd op.cmd).opt = tierOpt kind then some (id, op) else none
  | none => none

/-- `n` bay lines are read from `i` up: the 64 lines of a page, then its 4 header lines, lie from BLINE of the command (R291). -/
def State.tierIn (s : State) (b i : Nat) : Nat → State × List (Option Line)
  | 0 => (s, [])
  | n + 1 =>
    let (s, d) := s.bmLine b i 9
    let (s, l) := s.tierIn b (i + 1) n
    (s, d :: l)

/-- Whether each page line that the engine has placed passes its check value and is not poisoned (R148). -/
def Blk.tierInputOk (s : Blk) (t : TierRun) (hs : List (Nat × Line)) : Nat → List (Option Line) → Bool
  | _, [] => true
  | _, none :: _ => false
  | i, some d :: l =>
    let m := headMeta hs i
    !mPois m && mCheck m == mint d (s.pageLine t i) t.op.key && s.tierInputOk t hs (i + 1) l

/-- A tier operation begins (R147, R148). -/
def State.tierBegin (s : State) (id bline : Nat) (t : TierRun) : State :=
  if t.kind = .store then
    let (s, ls) := s.tierIn t.ch bline 64
    let (s, hs) := s.tierIn t.ch (bline + 64) 4
    let heads := hs.mapIdx fun i d => (i, d.getD 0)
    let t := { t with lines := heads ++ ls.mapIdx fun i d => (4 + i, d.getD 0) }
    if hs.all Option.isSome && s.blk.tierInputOk t heads 0 ls then { s with blk := s.blk.tierStart id t }
    else { s with blk := s.blk.tierEnd id t 10 0 }
  else { s with blk := s.blk.tierStart id t }

/-- A context's engine supplies the operands of a tier operation (R147), which its TIER command whose turn it is then carries out (R291, R294); of
no effect where there is none. -/
def State.tierOp (s : State) (c : CtxRef) (kind : TierKind) (op : TierOp) : State :=
  let k := ctxKey c
  let t : TierRun := { kind := kind, op := op, ch := k / 64, left := 0, lines := [], phase := .lane, refused := false, laneAt := 0,
                       result := 0, value := 0 }
  if !s.blk.moverRuns (k / 64) then s
  else
    match s.blk.tierSlot k kind with
    | some (id, d) =>
      let b := { s.blk with dms := pset s.blk.dms id { d with tier := some t, started := true } }
      let s := ({ s with blk := b }.tierBegin id (dmCmd d.cmd).bline t).dmTurn k
      { s with blk := s.blk.settle }
    | none => s

/-- A restored page's lines go to bay memory, those that pass (R149), followed by its header lines; the result is the mask of those that fail. -/
def State.tierOut (s : State) (bline : Nat) (t : TierRun) : Nat → List Line → State × Nat
  | _, [] => (s, 0)
  | i, d :: l =>
    let good := mCheck (headMeta t.lines i) == mint d (s.blk.pageLine t i) t.op.key
    let (s, m) := (if good then s.bmPutLine t.ch (bline + i) d else s).tierOut bline t (i + 1) l
    (s, if good then m else m + 2 ^ i)

/-- A decompressor lane answers TFETCH with the page that the stream lines hold, or with the first error's tier result (R149, R403); another answer than
the lines give comes from no lane and has no effect (log 3). -/
def State.decompressed (s : State) (id res : Nat) (page : List Byte) : State :=
  match s.blk.tierOf id with
  | none => s
  | some (op, t) =>
    let bline := (dmCmd op.cmd).bline
    if t.kind = .fetch && s.blk.onLane t then
      match inflate (lineBytes ((List.range t.op.slen.toNat).map fun i => (pget t.lines (4 + i)).getD 0)) with
      | .error e => if res = e then { s with blk := (s.blk.tierEnd id t e 0).settle } else s
      | .ok out =>
        if res ≠ 0 ∨ page ≠ out then s else
        let ls := streamLines out
        let (s, bad) := s.tierOut bline t 0 ls
        let s := (List.range 4).foldl (fun s h => s.bmPutLine t.ch (bline + 64 + h) ((pget t.lines h).getD 0)) s
        let k := s.blk.tierEnd id t (if bad = 0 then 0 else 8) (BitVec.ofNat 64 bad)
        { s with blk := (k.pageServed t ls bad).settle }
    else s

/-! ### Commands -/

/-- TREAD (R147). -/
def execTread (c : CtxRef) (op : TierOp) (s : State) : Host.Outcome State Fault Refusal := s.runM 0 fun s => s.tierOp c .read op
/-- TPUT (R147). -/
def execTput (c : CtxRef) (op : TierOp) (s : State) : Host.Outcome State Fault Refusal := s.runM 0 fun s => s.tierOp c .put op
/-- TZERO (R147). -/
def execTzero (c : CtxRef) (op : TierOp) (s : State) : Host.Outcome State Fault Refusal := s.runM 0 fun s => s.tierOp c .zero op
/-- TSTORE (R148). -/
def execTstore (c : CtxRef) (op : TierOp) (s : State) : Host.Outcome State Fault Refusal := s.runM 0 fun s => s.tierOp c .store op
/-- TFETCH (R149). -/
def execTfetch (c : CtxRef) (op : TierOp) (s : State) : Host.Outcome State Fault Refusal := s.runM 0 fun s => s.tierOp c .fetch op
/-- COMPRESSOR_RESULT (R402). -/
def execCompressorResult (dt k : Nat) (bad : Bool) (stream : List Byte) (s : State) : Host.Outcome State Fault Refusal :=
  s.run dt fun b => (b.compressed k bad stream).settle
/-- DECOMPRESSOR_RESULT (R403). -/
def execDecompressorResult (dt k res : Nat) (page : List Byte) (s : State) : Host.Outcome State Fault Refusal :=
  s.runM dt fun s => s.decompressed k res page

end Sys2Proof.Machine
end

