-- ==== Sys2Proof/Machine/TimebaseRows.lean ====
section
/-! DEFINITION. The commands of the timebase tracker (02). -/

namespace Sys2Proof.Machine

/-- TB_STEP_EDGE (R33). -/
def execTbStepEdge (dt : Nat) (a b bLevel : Bool) (s : State) : Host.Outcome State Fault Refusal :=
  s.run dt fun k => k.tbInputs a b bLevel

/-- TB_LOSS_TIMEOUT (R572): at the end of the cycle, unless an edge has been accepted in it (R440). -/
def execTbLossTimeout (dt : Nat) (s : State) : Host.Outcome State Fault Refusal :=
  s.run dt fun k => k.atDusk .loss

/-- HOLDOVER_STEP (R46). -/
def execHoldoverStep (dt : Nat) (s : State) : Host.Outcome State Fault Refusal := s.run dt fun k => k.holdStep

/-- TB_ENABLE (R43). -/
def execTbEnable (req : Req) (v : Word) (s : State) : Host.Outcome State Fault Refusal :=
  s.reg fun k => k.gated req F.SC_TB_CTRL_off fun k => k.wrTbCtrl v

/-- TB_ACQ (R573). -/
def execTbAcq (req : Req) (v : Word) (s : State) : Host.Outcome State Fault Refusal :=
  s.reg fun k => k.gated req F.SC_TB_CTRL_off fun k => k.wrTbCtrl (force F.SC_TB_CTRL_ACQ v 1)

/-- TB_REALIGN_REQUEST (R45). -/
def execTbRealignRequest (req : Req) (v : Word) (s : State) : Host.Outcome State Fault Refusal :=
  s.reg fun k => k.gated req F.SC_TB_CTRL_off fun k => k.wrTbCtrl (force F.SC_TB_CTRL_REALIGN v 1)

/-- TB_TIMING_WRITE (R572). -/
def execTbTimingWrite (req : Req) (v : Word) (s : State) : Host.Outcome State Fault Refusal :=
  s.reg fun k => k.gated req F.SC_TB_TIMING_off fun k => k.wrTbTiming v

/-- CMP_OWN_WRITE (R53). -/
def execCmpOwnWrite (req : Req) (n : Fin 8) (v : Word) (s : State) : Host.Outcome State Fault Refusal :=
  s.reg fun k => k.gated req (F.SC_CMP_OWN_off n) fun k => k.wrCmpOwn n v

/-- CMP_LO_WRITE (R54). -/
def execCmpLoWrite (req : Req) (n : Fin 8) (v : Word) (s : State) : Host.Outcome State Fault Refusal :=
  s.reg fun k => k.gated req (F.SC_CMP_LO_off n) fun k => k.wrCmpLo n v

/-- CMP_HI_WRITE (R54). -/
def execCmpHiWrite (req : Req) (n : Fin 8) (v : Word) (s : State) : Host.Outcome State Fault Refusal :=
  s.reg fun k => k.gated req (F.SC_CMP_HI_off n) fun k => k.wrCmpHi n v

/-- COMPARE_HIT (R52). -/
def execCompareHit (dt : Nat) (n : Fin 8) (s : State) : Host.Outcome State Fault Refusal :=
  s.run dt fun k => if decide (2 ≤ n.val) && k.hitDue n then k.cmpHit n else k

end Sys2Proof.Machine
end

