-- ==== Sys2Proof/Machine/TrustRows.lean ====
section
/-! DEFINITION. The commands of the Trust and Debug Unit (16). -/

namespace Sys2Proof.Machine

/-- An SPDM request. -/
def State.spdm (s : State) (dt : Nat) (f : Blk → Blk) : Host.Outcome State Fault Refusal :=
  s.trust dt fun s => { s with blk := s.blk.spdm f }

/-- FUSE_LOAD_COMPLETE (R486). -/
def execFuseLoadComplete (dt : Nat) (img : FuseImage) (nonce : BitVec 384) (s : State) : Host.Outcome State Fault Refusal :=
  s.trust dt fun s => s.fuseLoad img nonce
/-- KEY_DERIVATION_COMPLETE (R488). -/
def execKeyDerivationComplete (dt : Nat) (s : State) : Host.Outcome State Fault Refusal :=
  s.trust dt fun s => { s with blk := s.blk.deriveKeys }
/-- CERT_LOAD (R489). -/
def execCertLoad (req : Req) (v : Word) (s : State) : Host.Outcome State Fault Refusal :=
  s.reg fun b => b.gated req F.TD_CERT_CTRL_off fun b => b.wrCertCtrl (force F.TD_CERT_CTRL_LOAD v 1)

/-- GET_VERSION (R490). -/
def execGetVersion (dt : Nat) (s : State) : Host.Outcome State Fault Refusal := s.spdm dt fun b => b.spdmSend (.version 0x12)
/-- GET_CAPABILITIES (R490). -/
def execGetCapabilities (dt : Nat) (s : State) : Host.Outcome State Fault Refusal := s.spdm dt fun b => b.spdmSend (.capabilities true true 2)
/-- NEGOTIATE_ALGORITHMS (R490). -/
def execNegotiateAlgorithms (dt : Nat) (s : State) : Host.Outcome State Fault Refusal :=
  s.spdm dt fun b => b.spdmSend (.algorithms true true true)
/-- GET_DIGESTS (R490). -/
def execGetDigests (dt : Nat) (s : State) : Host.Outcome State Fault Refusal :=
  s.spdm dt fun b => b.spdmSend (match b.td.chain with | some c => .digests (Config.sha384 c) | none => .error .unspecified)
/-- GET_CERTIFICATE (R489, R490). -/
def execGetCertificate (dt slot off len : Nat) (s : State) : Host.Outcome State Fault Refusal := s.spdm dt fun b => b.spdmCert slot off len
/-- CHALLENGE (R490). -/
def execChallenge (dt slot : Nat) (meas : Byte) (nonce : BitVec 256) (s : State) : Host.Outcome State Fault Refusal :=
  s.spdm dt fun b => b.spdmSigned (slot == 0 && b.td.chain.isSome) (.challenge meas nonce)
/-- GET_MEASUREMENTS (R491). -/
def execGetMeasurements (dt : Nat) (index : Byte) (sign : Bool) (nonce : BitVec 256) (s : State) : Host.Outcome State Fault Refusal :=
  s.spdm dt fun b =>
    match b.blocks index with
    | none => b.spdmSend (.error .unspecified)
    | some bs => if sign then b.spdmSigned true (.measurements index nonce) else b.spdmSend (.measurements bs none)
/-- SPDM_UNSUPPORTED_REQUEST (R490). -/
def execSpdmUnsupportedRequest (dt : Nat) (_code : Byte) (s : State) : Host.Outcome State Fault Refusal :=
  s.spdm dt fun b => b.spdmSend (.error .unsupported)
/-- SPDM_SIGNED_RESPONSE (R490). -/
def execSpdmSignedResponse (dt : Nat) (s : State) : Host.Outcome State Fault Refusal :=
  s.trust dt fun s => { s with blk := s.blk.spdmReady }
/-- DEBUG_AUTH_TOKEN (R495). -/
def execDebugAuthToken (req : Req) (v : Word) (s : State) : Host.Outcome State Fault Refusal :=
  s.reg fun b => b.gated req F.TD_DBG_CTRL_off fun b => b.wrDbgCtrl (force F.TD_DBG_CTRL_MODE (force F.TD_DBG_CTRL_AUTH v 1) 0)
/-- DEBUG_AUTH_PASSWORD (R495). -/
def execDebugAuthPassword (req : Req) (v : Word) (s : State) : Host.Outcome State Fault Refusal :=
  s.reg fun b => b.gated req F.TD_DBG_CTRL_off fun b => b.wrDbgCtrl (force F.TD_DBG_CTRL_MODE (force F.TD_DBG_CTRL_AUTH v 1) 1)
/-- DEBUG_AUTH_RESULT (R496). -/
def execDebugAuthResult (dt : Nat) (nonce : BitVec 384) (s : State) : Host.Outcome State Fault Refusal :=
  s.trust dt fun s => { s with blk := s.blk.authEnd nonce }
/-- DEBUG_DROP (R497). -/
def execDebugDrop (req : Req) (v : Word) (s : State) : Host.Outcome State Fault Refusal :=
  s.reg fun b => b.gated req F.TD_DBG_CTRL_off fun b => b.wrDbgCtrl (force F.TD_DBG_CTRL_DROP v 1)
/-- RBG_HEALTH_FAIL (R515). -/
def execRbgHealthFail (dt : Nat) (s : State) : Host.Outcome State Fault Refusal :=
  s.trust dt fun s => { s with blk := (s.blk.onTd fun t => { t with rbgBad := true }).raise 4 (some (0x21, 0)) }
/-- MONITOR_DOOR (R498). -/
def execMonitorDoor (req : Req) (v : Word) (s : State) : Host.Outcome State Fault Refusal :=
  s.reg fun b => b.gated req F.TD_MON_DOOR_off fun b => b.wrMonDoor v
/-- DEFERRED_HALT_TRIGGER (R506). -/
def execDeferredHaltTrigger (dt : Nat) (s : State) : Host.Outcome State Fault Refusal :=
  s.trust dt fun s => { s with blk := s.blk.deferredHalts }

end Sys2Proof.Machine
end

