-- ==== Sys2Proof/Machine/Dispatch.lean ====
section
/-! DEFINITION. One arm per command of the block: each is one call of the command's meaning, on everything but the queue. -/

namespace Sys2Proof.Machine

/-- The effect of a command on the block (the rows of spec/opcode_table.json). -/
def exec (i : Instr) (s : State) : Host.Outcome State Fault Refusal :=
  match i with
  | .registerWrite req off width v => Sys2Proof.Machine.execRegisterWrite req off width v s
  | .captureRead req off width => Sys2Proof.Machine.execCaptureRead req off width s
  | .resetAssert dt => Sys2Proof.Machine.execResetAssert dt s
  | .resetRelease dt role straps pin blank => Sys2Proof.Machine.execResetRelease dt role straps pin blank s
  | .pllLock dt => Sys2Proof.Machine.execPllLock dt s
  | .pllLockLoss dt => Sys2Proof.Machine.execPllLockLoss dt s
  | .fuseLoadComplete dt img nonce => Sys2Proof.Machine.execFuseLoadComplete dt img nonce s
  | .keyDerivationComplete dt => Sys2Proof.Machine.execKeyDerivationComplete dt s
  | .tbStepEdge dt a b bLevel => Sys2Proof.Machine.execTbStepEdge dt a b bLevel s
  | .indexEdge dt => Sys2Proof.Machine.execIndexEdge dt s
  | .tbLossTimeout dt => Sys2Proof.Machine.execTbLossTimeout dt s
  | .holdoverStep dt => Sys2Proof.Machine.execHoldoverStep dt s
  | .tbEnable req v => Sys2Proof.Machine.execTbEnable req v s
  | .tbAcq req v => Sys2Proof.Machine.execTbAcq req v s
  | .tbRealignRequest req v => Sys2Proof.Machine.execTbRealignRequest req v s
  | .tbTimingWrite req v => Sys2Proof.Machine.execTbTimingWrite req v s
  | .slotBoundary dt => Sys2Proof.Machine.execSlotBoundary dt s
  | .frameBoundary dt => Sys2Proof.Machine.execFrameBoundary dt s
  | .compareHit dt n => Sys2Proof.Machine.execCompareHit dt n s
  | .cmpOwnWrite req n v => Sys2Proof.Machine.execCmpOwnWrite req n v s
  | .cmpLoWrite req n v => Sys2Proof.Machine.execCmpLoWrite req n v s
  | .cmpHiWrite req n v => Sys2Proof.Machine.execCmpHiWrite req n v s
  | .tableArm req v => Sys2Proof.Machine.execTableArm req v s
  | .tableCheckComplete dt parity => Sys2Proof.Machine.execTableCheckComplete dt parity s
  | .tableCancel req v => Sys2Proof.Machine.execTableCancel req v s
  | .slotTableWrite req off v => Sys2Proof.Machine.execSlotTableWrite req off v s
  | .issueWindow dt ch accept parity => Sys2Proof.Machine.execIssueWindow dt ch accept parity s
  | .memRd dt p m => Sys2Proof.Machine.execMemRd dt p m s
  | .memWr dt p m poison data => Sys2Proof.Machine.execMemWr dt p m poison data s
  | .memWrPtl dt p m poison data mask => Sys2Proof.Machine.execMemWrPtl dt p m poison data mask s
  | .heldRelease dt p idx => Sys2Proof.Machine.execHeldRelease dt p idx s
  | .responseHandover dt p idx => Sys2Proof.Machine.execResponseHandover dt p idx s
  | .txnLimitExpiry dt p idx => Sys2Proof.Machine.execTxnLimitExpiry dt p idx s
  | .txnFail dt p idx => Sys2Proof.Machine.execTxnFail dt p idx s
  | .ledgerScan dt p ce ue => Sys2Proof.Machine.execLedgerScan dt p ce ue s
  | .ledgerCapture req p v => Sys2Proof.Machine.execLedgerCapture req p v s
  | .txnLimitWrite req p v => Sys2Proof.Machine.execTxnLimitWrite req p v s
  | .segmentTableWrite req seg word v => Sys2Proof.Machine.execSegmentTableWrite req seg word v s
  | .segsumComputeDone dt => Sys2Proof.Machine.execSegsumComputeDone dt s
  | .operatorControlWork dt bay lines => Sys2Proof.Machine.execOperatorControlWork dt bay lines s
  | .channelReadComplete dt ch id cw => Sys2Proof.Machine.execChannelReadComplete dt ch id cw s
  | .firstFailureLocation dt ch => Sys2Proof.Machine.execFirstFailureLocation dt ch s
  | .channelWriteAck dt ch id => Sys2Proof.Machine.execChannelWriteAck dt ch id s
  | .channelControllerError dt ch id => Sys2Proof.Machine.execChannelControllerError dt ch id s
  | .muGeomWrite req ch v => Sys2Proof.Machine.execMuGeomWrite req ch v s
  | .dfmWrite req ch n v => Sys2Proof.Machine.execDfmWrite req ch n v s
  | .poisonListCapture req ch v => Sys2Proof.Machine.execPoisonListCapture req ch v s
  | .poisonListRemove req ch v => Sys2Proof.Machine.execPoisonListRemove req ch v s
  | .fenceSet req ch v => Sys2Proof.Machine.execFenceSet req ch v s
  | .fenceClear req ch v => Sys2Proof.Machine.execFenceClear req ch v s
  | .mntGo req ch v => Sys2Proof.Machine.execMntGo req ch v s
  | .mntAbort req ch v => Sys2Proof.Machine.execMntAbort req ch v s
  | .tread c op => Sys2Proof.Machine.execTread c op s
  | .tput c op => Sys2Proof.Machine.execTput c op s
  | .tzero c op => Sys2Proof.Machine.execTzero c op s
  | .tstore c op => Sys2Proof.Machine.execTstore c op s
  | .tfetch c op => Sys2Proof.Machine.execTfetch c op s
  | .compressorResult dt k bad stream => Sys2Proof.Machine.execCompressorResult dt k bad stream s
  | .decompressorResult dt k res page => Sys2Proof.Machine.execDecompressorResult dt k res page s
  | .cryptoResult dt id status data => Sys2Proof.Machine.execCryptoResult dt id status data s
  | .fabricMessage dt fport m => Sys2Proof.Machine.execFabricMessage dt fport m s
  | .hello dt h m => Sys2Proof.Machine.execHello dt h m s
  | .bcn dt h frame ver state => Sys2Proof.Machine.execBcn dt h frame ver state s
  | .keep dt h => Sys2Proof.Machine.execKeep dt h s
  | .lcpy dt h c => Sys2Proof.Machine.execLcpy dt h c s
  | .lack dt h p idx => Sys2Proof.Machine.execLack dt h p idx s
  | .lfree dt h p idx => Sys2Proof.Machine.execLfree dt h p idx s
  | .wrq dt h addr ref stamp mta merged => Sys2Proof.Machine.execWrq dt h addr ref stamp mta merged s
  | .ack dt h ref stamp => Sys2Proof.Machine.execAck dt h ref stamp s
  | .nakLate dt h ref frame => Sys2Proof.Machine.execNakLate dt h ref frame s
  | .nakLink dt h msg => Sys2Proof.Machine.execNakLink dt h msg s
  | .mrd dt h addr copy => Sys2Proof.Machine.execMrd dt h addr copy s
  | .mrs dt h addr copy => Sys2Proof.Machine.execMrs dt h addr copy s
  | .rcp dt h addr data mta => Sys2Proof.Machine.execRcp dt h addr data mta s
  | .vrq dt h addr mta crc => Sys2Proof.Machine.execVrq dt h addr mta crc s
  | .fwd dt h r => Sys2Proof.Machine.execFwd dt h r s
  | .fwr dt h r => Sys2Proof.Machine.execFwr dt h r s
  | .bye dt h => Sys2Proof.Machine.execBye dt h s
  | .mirrorGenReadComplete dt id => Sys2Proof.Machine.execMirrorGenReadComplete dt id s
  | .twHbPulse dt => Sys2Proof.Machine.execTwHbPulse dt s
  | .twinSilence dt => Sys2Proof.Machine.execTwinSilence dt s
  | .heartbeatLineFault dt => Sys2Proof.Machine.execHeartbeatLineFault dt s
  | .messageSilence dt => Sys2Proof.Machine.execMessageSilence dt s
  | .twFailNAssert dt => Sys2Proof.Machine.execTwFailNAssert dt s
  | .twPresNDeassert dt => Sys2Proof.Machine.execTwPresNDeassert dt s
  | .twinLinkDown dt => Sys2Proof.Machine.execTwinLinkDown dt s
  | .twPair req v pin => Sys2Proof.Machine.execTwPair req v pin s
  | .twLeave req v => Sys2Proof.Machine.execTwLeave req v s
  | .leaveDrained dt => Sys2Proof.Machine.execLeaveDrained dt s
  | .twFail req v => Sys2Proof.Machine.execTwFail req v s
  | .verifyWalkStart req v => Sys2Proof.Machine.execVerifyWalkStart req v s
  | .resyncDone dt => Sys2Proof.Machine.execResyncDone dt s
  | .interruptEntry dt c => Sys2Proof.Machine.execInterruptEntry dt c s
  | .deferredPoolData dt c => Sys2Proof.Machine.execDeferredPoolData dt c s
  | .microwordExecute dt c rom flip dpar => Sys2Proof.Machine.execMicrowordExecute dt c rom flip dpar s
  | .moveComplete dt bay bad regs => Sys2Proof.Machine.execMoveComplete dt bay bad regs s
  | .engineRetire req bay e v => Sys2Proof.Machine.execEngineRetire req bay e v s
  | .plannedSwapArm req bay v => Sys2Proof.Machine.execPlannedSwapArm req bay v s
  | .errorInject req bay e v => Sys2Proof.Machine.execErrorInject req bay e v s
  | .lirqSet req bay e n v => Sys2Proof.Machine.execLirqSet req bay e n v s
  | .bayEnable req bay v => Sys2Proof.Machine.execBayEnable req bay v s
  | .contextTimerExpiry dt c => Sys2Proof.Machine.execContextTimerExpiry dt c s
  | .coprocessorResult dt k ans flags par => Sys2Proof.Machine.execCoprocessorResult dt k ans flags par s
  | .socketTimeout dt k => Sys2Proof.Machine.execSocketTimeout dt k s
  | .dataMoverComplete dt k => Sys2Proof.Machine.execDataMoverComplete dt k s
  | .poolWindowComplete dt k => Sys2Proof.Machine.execPoolWindowComplete dt k s
  | .zMov c f => Sys2Proof.Machine.execZMov c f s
  | .zAdd c f => Sys2Proof.Machine.execZAdd c f s
  | .zAdc c f => Sys2Proof.Machine.execZAdc c f s
  | .zSub c f => Sys2Proof.Machine.execZSub c f s
  | .zSbb c f => Sys2Proof.Machine.execZSbb c f s
  | .zCmp c f => Sys2Proof.Machine.execZCmp c f s
  | .zAnd c f => Sys2Proof.Machine.execZAnd c f s
  | .zOr c f => Sys2Proof.Machine.execZOr c f s
  | .zXor c f => Sys2Proof.Machine.execZXor c f s
  | .zAndn c f => Sys2Proof.Machine.execZAndn c f s
  | .zTst c f => Sys2Proof.Machine.execZTst c f s
  | .zNeg c f => Sys2Proof.Machine.execZNeg c f s
  | .zNot c f => Sys2Proof.Machine.execZNot c f s
  | .zSexb c f => Sys2Proof.Machine.execZSexb c f s
  | .zZexb c f => Sys2Proof.Machine.execZZexb c f s
  | .zSwab c f => Sys2Proof.Machine.execZSwab c f s
  | .zMin c f => Sys2Proof.Machine.execZMin c f s
  | .zMax c f => Sys2Proof.Machine.execZMax c f s
  | .zMinu c f => Sys2Proof.Machine.execZMinu c f s
  | .zMaxu c f => Sys2Proof.Machine.execZMaxu c f s
  | .zAbs c f => Sys2Proof.Machine.execZAbs c f s
  | .zMovi c f => Sys2Proof.Machine.execZMovi c f s
  | .zAddi c f => Sys2Proof.Machine.execZAddi c f s
  | .zCmpi c f => Sys2Proof.Machine.execZCmpi c f s
  | .zLd c f => Sys2Proof.Machine.execZLd c f s
  | .zSt c f => Sys2Proof.Machine.execZSt c f s
  | .zBcc c f => Sys2Proof.Machine.execZBcc c f s
  | .zNop c f => Sys2Proof.Machine.execZNop c f s
  | .zYield c f => Sys2Proof.Machine.execZYield c f s
  | .zRet c f => Sys2Proof.Machine.execZRet c f s
  | .zEnd c f => Sys2Proof.Machine.execZEnd c f s
  | .zUnlk c f => Sys2Proof.Machine.execZUnlk c f s
  | .zInc c f => Sys2Proof.Machine.execZInc c f s
  | .zDec c f => Sys2Proof.Machine.execZDec c f s
  | .zClr c f => Sys2Proof.Machine.execZClr c f s
  | .zLsli c f => Sys2Proof.Machine.execZLsli c f s
  | .zLsri c f => Sys2Proof.Machine.execZLsri c f s
  | .zAsri c f => Sys2Proof.Machine.execZAsri c f s
  | .zRori c f => Sys2Proof.Machine.execZRori c f s
  | .zMovs c f stop => Sys2Proof.Machine.execZMovs c f stop s
  | .zFills c f stop => Sys2Proof.Machine.execZFills c f stop s
  | .zCmps c f stop => Sys2Proof.Machine.execZCmps c f stop s
  | .zScns c f stop => Sys2Proof.Machine.execZScns c f stop s
  | .zCrcs c f stop => Sys2Proof.Machine.execZCrcs c f stop s
  | .zMovw c f => Sys2Proof.Machine.execZMovw c f s
  | .zAddw c f => Sys2Proof.Machine.execZAddw c f s
  | .zCmpw c f => Sys2Proof.Machine.execZCmpw c f s
  | .zAndw c f => Sys2Proof.Machine.execZAndw c f s
  | .zOrw c f => Sys2Proof.Machine.execZOrw c f s
  | .zXorw c f => Sys2Proof.Machine.execZXorw c f s
  | .zTstw c f => Sys2Proof.Machine.execZTstw c f s
  | .zAddp c f => Sys2Proof.Machine.execZAddp c f s
  | .zCmpp c f => Sys2Proof.Machine.execZCmpp c f s
  | .zMovp c f => Sys2Proof.Machine.execZMovp c f s
  | .zMovh c f => Sys2Proof.Machine.execZMovh c f s
  | .zLdw c f => Sys2Proof.Machine.execZLdw c f s
  | .zStw c f => Sys2Proof.Machine.execZStw c f s
  | .zLdp c f => Sys2Proof.Machine.execZLdp c f s
  | .zStp c f => Sys2Proof.Machine.execZStp c f s
  | .zLdq c f => Sys2Proof.Machine.execZLdq c f s
  | .zStq c f => Sys2Proof.Machine.execZStq c f s
  | .zLdlk c f => Sys2Proof.Machine.execZLdlk c f s
  | .zStul c f => Sys2Proof.Machine.execZStul c f s
  | .zLea c f => Sys2Proof.Machine.execZLea c f s
  | .zJmp c f => Sys2Proof.Machine.execZJmp c f s
  | .zCall c f => Sys2Proof.Machine.execZCall c f s
  | .zExt c f => Sys2Proof.Machine.execZExt c f s
  | .zExts c f => Sys2Proof.Machine.execZExts c f s
  | .zIns c f => Sys2Proof.Machine.execZIns c f s
  | .zExtp c f => Sys2Proof.Machine.execZExtp c f s
  | .zExtsp c f => Sys2Proof.Machine.execZExtsp c f s
  | .zInsp c f => Sys2Proof.Machine.execZInsp c f s
  | .zCrcw c f => Sys2Proof.Machine.execZCrcw c f s
  | .zParw c f => Sys2Proof.Machine.execZParw c f s
  | .zBrev c f => Sys2Proof.Machine.execZBrev c f s
  | .zShr c f => Sys2Proof.Machine.execZShr c f s
  | .zClz c f => Sys2Proof.Machine.execZClz c f s
  | .zDmv c f => Sys2Proof.Machine.execZDmv c f s
  | .zDmvm c f => Sys2Proof.Machine.execZDmvm c f s
  | .zMulu16 c f => Sys2Proof.Machine.execZMulu16 c f s
  | .zMuls16 c f => Sys2Proof.Machine.execZMuls16 c f s
  | .zMulu32 c f => Sys2Proof.Machine.execZMulu32 c f s
  | .zMuls32 c f => Sys2Proof.Machine.execZMuls32 c f s
  | .zDivu16 c f => Sys2Proof.Machine.execZDivu16 c f s
  | .zDivs16 c f => Sys2Proof.Machine.execZDivs16 c f s
  | .zDivu32 c f => Sys2Proof.Machine.execZDivu32 c f s
  | .zDivs32 c f => Sys2Proof.Machine.execZDivs32 c f s
  | .zFadd c f => Sys2Proof.Machine.execZFadd c f s
  | .zFsub c f => Sys2Proof.Machine.execZFsub c f s
  | .zFmul c f => Sys2Proof.Machine.execZFmul c f s
  | .zFdiv c f => Sys2Proof.Machine.execZFdiv c f s
  | .zFcmp c f => Sys2Proof.Machine.execZFcmp c f s
  | .zFmin c f => Sys2Proof.Machine.execZFmin c f s
  | .zFmax c f => Sys2Proof.Machine.execZFmax c f s
  | .zFcvtDS c f => Sys2Proof.Machine.execZFcvtDS c f s
  | .zFcvtSD c f => Sys2Proof.Machine.execZFcvtSD c f s
  | .zFcvtDW c f => Sys2Proof.Machine.execZFcvtDW c f s
  | .zFcvtWD c f => Sys2Proof.Machine.execZFcvtWD c f s
  | .zSocketOp c f => Sys2Proof.Machine.execZSocketOp c f s
  | .zMfs c f => Sys2Proof.Machine.execZMfs c f s
  | .zMts c f => Sys2Proof.Machine.execZMts c f s
  | .zSetbk c f => Sys2Proof.Machine.execZSetbk c f s
  | .zSrm c f => Sys2Proof.Machine.execZSrm c f s
  | .zEi c f => Sys2Proof.Machine.execZEi c f s
  | .zDi c f => Sys2Proof.Machine.execZDi c f s
  | .zTrap c f => Sys2Proof.Machine.execZTrap c f s
  | .zCallGate c f => Sys2Proof.Machine.execZCallGate c f s
  | .zCreateGate c f => Sys2Proof.Machine.execZCreateGate c f s
  | .zClearGate c f => Sys2Proof.Machine.execZClearGate c f s
  | .zRte c f => Sys2Proof.Machine.execZRte c f s
  | .patchGo req v => Sys2Proof.Machine.execPatchGo req v s
  | .patchLoadComplete dt => Sys2Proof.Machine.execPatchLoadComplete dt s
  | .patchAct req v => Sys2Proof.Machine.execPatchAct req v s
  | .matchRegisterWrite req bay n tgt v => Sys2Proof.Machine.execMatchRegisterWrite req bay n tgt v s
  | .chainStart dt sub chain => Sys2Proof.Machine.execChainStart dt sub chain s
  | .sieveLine dt bay => Sys2Proof.Machine.execSieveLine dt bay s
  | .submissionComplete dt sub => Sys2Proof.Machine.execSubmissionComplete dt sub s
  | .sieveAbort req v => Sys2Proof.Machine.execSieveAbort req v s
  | .sieveEnable req v => Sys2Proof.Machine.execSieveEnable req v s
  | .xbufOwnWrite q bay n v => Sys2Proof.Machine.execXbufOwnWrite q bay n v s
  | .bmCorrectionWriteback dt bay w => Sys2Proof.Machine.execBmCorrectionWriteback dt bay w s
  | .bistStart req bay v => Sys2Proof.Machine.execBistStart req bay v s
  | .bistComplete dt bay bad => Sys2Proof.Machine.execBistComplete dt bay bad s
  | .clearingComplete dt bay => Sys2Proof.Machine.execClearingComplete dt bay s
  | .memoryOff req bay v => Sys2Proof.Machine.execMemoryOff req bay v s
  | .memoryWake req bay v => Sys2Proof.Machine.execMemoryWake req bay v s
  | .offerAssign dt bad => Sys2Proof.Machine.execOfferAssign dt bad s
  | .offerRelease dt t => Sys2Proof.Machine.execOfferRelease dt t s
  | .eventClaim req t => Sys2Proof.Machine.execEventClaim req t s
  | .eventDone req t v => Sys2Proof.Machine.execEventDone req t v s
  | .freezeStart req v => Sys2Proof.Machine.execFreezeStart req v s
  | .freezeEnd req v => Sys2Proof.Machine.execFreezeEnd req v s
  | .freezeTimeout dt => Sys2Proof.Machine.execFreezeTimeout dt s
  | .evPendMaskWrite req mask n v => Sys2Proof.Machine.execEvPendMaskWrite req mask n v s
  | .evBayclkWrite req v => Sys2Proof.Machine.execEvBayclkWrite req v s
  | .bayClockStop dt bay => Sys2Proof.Machine.execBayClockStop dt bay s
  | .bayClockWake dt bay => Sys2Proof.Machine.execBayClockWake dt bay s
  | .contextWatchdogExpiry dt c => Sys2Proof.Machine.execContextWatchdogExpiry dt c s
  | .engineWatchdogExpiry dt bay e => Sys2Proof.Machine.execEngineWatchdogExpiry dt bay e s
  | .bayWatchdogExpiry dt bay => Sys2Proof.Machine.execBayWatchdogExpiry dt bay s
  | .blockWatchdogExpiry dt => Sys2Proof.Machine.execBlockWatchdogExpiry dt s
  | .bayWatchdogKick req bay v => Sys2Proof.Machine.execBayWatchdogKick req bay v s
  | .blockWatchdogKick req v => Sys2Proof.Machine.execBlockWatchdogKick req v s
  | .blockWatchdogArm req v => Sys2Proof.Machine.execBlockWatchdogArm req v s
  | .peBr dt n pads => Sys2Proof.Machine.execPeBr dt n pads s
  | .peHold dt n pads => Sys2Proof.Machine.execPeHold dt n pads s
  | .pePause dt n pads => Sys2Proof.Machine.execPePause dt n pads s
  | .peShin dt n pads => Sys2Proof.Machine.execPeShin dt n pads s
  | .peShout dt n pads => Sys2Proof.Machine.execPeShout dt n pads s
  | .peFifoLoad dt n pads => Sys2Proof.Machine.execPeFifoLoad dt n pads s
  | .peFifoStore dt n pads => Sys2Proof.Machine.execPeFifoStore dt n pads s
  | .peFifoLoadif dt n pads => Sys2Proof.Machine.execPeFifoLoadif dt n pads s
  | .peFifoStoreif dt n pads => Sys2Proof.Machine.execPeFifoStoreif dt n pads s
  | .pePut dt n pads => Sys2Proof.Machine.execPePut dt n pads s
  | .peCopy dt n pads => Sys2Proof.Machine.execPeCopy dt n pads s
  | .peSignal dt n pads => Sys2Proof.Machine.execPeSignal dt n pads s
  | .peSwap dt n pads => Sys2Proof.Machine.execPeSwap dt n pads s
  | .peNop dt n pads => Sys2Proof.Machine.execPeNop dt n pads s
  | .peStop dt n pads => Sys2Proof.Machine.execPeStop dt n pads s
  | .peStart req n v => Sys2Proof.Machine.execPeStart req n v s
  | .peStopWrite req n v => Sys2Proof.Machine.execPeStopWrite req n v s
  | .peGroupStart req v => Sys2Proof.Machine.execPeGroupStart req v s
  | .peProgramWrite req n k v => Sys2Proof.Machine.execPeProgramWrite req n k v s
  | .flagSet req v => Sys2Proof.Machine.execFlagSet req v s
  | .flagClear req v => Sys2Proof.Machine.execFlagClear req v s
  | .peTxWrite req n v => Sys2Proof.Machine.execPeTxWrite req n v s
  | .peRxRead req n => Sys2Proof.Machine.execPeRxRead req n s
  | .peFarbWrite req n v => Sys2Proof.Machine.execPeFarbWrite req n v s
  | .padOwnWrite req n v => Sys2Proof.Machine.execPadOwnWrite req n v s
  | .pmbusPoll dt => Sys2Proof.Machine.execPmbusPoll dt s
  | .pmbusAnswer dt => Sys2Proof.Machine.execPmbusAnswer dt s
  | .pmbusTimeout dt => Sys2Proof.Machine.execPmbusTimeout dt s
  | .pwrAlertNAssert dt => Sys2Proof.Machine.execPwrAlertNAssert dt s
  | .pwrGoodChange dt level => Sys2Proof.Machine.execPwrGoodChange dt level s
  | .slotRequest req v => Sys2Proof.Machine.execSlotRequest req v s
  | .slotOff req v => Sys2Proof.Machine.execSlotOff req v s
  | .slotStart dt k => Sys2Proof.Machine.execSlotStart dt k s
  | .energyLimitWrite req off v => Sys2Proof.Machine.execEnergyLimitWrite req off v s
  | .certLoad req v => Sys2Proof.Machine.execCertLoad req v s
  | .getVersion dt => Sys2Proof.Machine.execGetVersion dt s
  | .getCapabilities dt => Sys2Proof.Machine.execGetCapabilities dt s
  | .negotiateAlgorithms dt => Sys2Proof.Machine.execNegotiateAlgorithms dt s
  | .getDigests dt => Sys2Proof.Machine.execGetDigests dt s
  | .getCertificate dt slot off len => Sys2Proof.Machine.execGetCertificate dt slot off len s
  | .challenge dt slot meas nonce => Sys2Proof.Machine.execChallenge dt slot meas nonce s
  | .getMeasurements dt index sign nonce => Sys2Proof.Machine.execGetMeasurements dt index sign nonce s
  | .spdmUnsupportedRequest dt code => Sys2Proof.Machine.execSpdmUnsupportedRequest dt code s
  | .spdmSignedResponse dt => Sys2Proof.Machine.execSpdmSignedResponse dt s
  | .debugAuthToken req v => Sys2Proof.Machine.execDebugAuthToken req v s
  | .debugAuthPassword req v => Sys2Proof.Machine.execDebugAuthPassword req v s
  | .debugAuthResult dt nonce => Sys2Proof.Machine.execDebugAuthResult dt nonce s
  | .debugDrop req v => Sys2Proof.Machine.execDebugDrop req v s
  | .rbgHealthFail dt => Sys2Proof.Machine.execRbgHealthFail dt s
  | .monitorDoor req v => Sys2Proof.Machine.execMonitorDoor req v s
  | .monStatus dt => Sys2Proof.Machine.execMonStatus dt s
  | .monReadReg dt off count normal => Sys2Proof.Machine.execMonReadReg dt off count normal s
  | .monWriteReg dt off vals => Sys2Proof.Machine.execMonWriteReg dt off vals s
  | .monReadBm dt bay addr count => Sys2Proof.Machine.execMonReadBm dt bay addr count s
  | .monWriteBm dt bay addr ws => Sys2Proof.Machine.execMonWriteBm dt bay addr ws s
  | .monHalt dt d force => Sys2Proof.Machine.execMonHalt dt d force s
  | .monRelease dt d => Sys2Proof.Machine.execMonRelease dt d s
  | .monStep dt e c uword => Sys2Proof.Machine.execMonStep dt e c uword s
  | .monReadCtx dt e c item count => Sys2Proof.Machine.execMonReadCtx dt e c item count s
  | .monWriteCtx dt e c item v => Sys2Proof.Machine.execMonWriteCtx dt e c item v s
  | .monBreak dt bay n en rom mask => Sys2Proof.Machine.execMonBreak dt bay n en rom mask s
  | .monXtCfg dt ch cfg => Sys2Proof.Machine.execMonXtCfg dt ch cfg s
  | .monEvents dt => Sys2Proof.Machine.execMonEvents dt s
  | .monFuseProg dt bay arr ent vpp fail => Sys2Proof.Machine.execMonFuseProg dt bay arr ent vpp fail s
  | .deferredHaltTrigger dt => Sys2Proof.Machine.execDeferredHaltTrigger dt s
  | .testRaise req page v => Sys2Proof.Machine.execTestRaise req page v s
  | .pageLockWrite req page v => Sys2Proof.Machine.execPageLockWrite req page v s
  | .errCodeRead req page => Sys2Proof.Machine.execErrCodeRead req page s
  | .errInfoRead req page => Sys2Proof.Machine.execErrInfoRead req page s
  | .attnSet req v => Sys2Proof.Machine.execAttnSet req v s
  | .tapReset => Sys2Proof.Machine.execTapReset s
  | .tapIdcode => Sys2Proof.Machine.execTapIdcode s
  | .tapSamplePreload balls shift => Sys2Proof.Machine.execTapSamplePreload balls shift s
  | .tapExtest => Sys2Proof.Machine.execTapExtest s
  | .tapClamp => Sys2Proof.Machine.execTapClamp s
  | .tapHighz => Sys2Proof.Machine.execTapHighz s
  | .tapBypass code => Sys2Proof.Machine.execTapBypass code s
  | .bootDescriptorPoll dt bay => Sys2Proof.Machine.execBootDescriptorPoll dt bay s
  | .bootImageCopyComplete dt bay => Sys2Proof.Machine.execBootImageCopyComplete dt bay s
  | .channelRetire req ch v => Sys2Proof.Machine.execChannelRetire req ch v s
  | .channelReturn req ch v => Sys2Proof.Machine.execChannelReturn req ch v s
  | .ccc dt c => Sys2Proof.Machine.execCcc dt c s

end Sys2Proof.Machine
end

