-- ==== Sys2Proof/Safety.lean ====
section
/-! DEFINITION. The terms that claims about the block use: when a command is taken, and what it leaves as it was. -/

namespace Sys2Proof.Machine

/-- The outcome is a next state with a property. -/
def Answers (o : Host.Outcome State Fault Refusal) (P : State → Prop) : Prop := ∃ t, o = .next t ∧ P t

/-! ### Control window -/

/-- A write of a requester reaches the register at a normal-view offset: the block runs, the requester's path is open (R531) and no page lock
of another one refuses it (R527). -/
def Blk.takes (s : Blk) (req : Req) (off : Nat) : Bool :=
  s.phase == .running && !s.pathClosed req &&
  match pageOf off with
  | none => false
  | some p =>
    match p.kind with
    | .segTable | .slotTable | .patchWin => true
    | _ => !s.lockedOut req p.base

/-- Every register but those listed keeps its value. -/
def Blk.keepsRegs (s t : Blk) (but : List Nat) : Prop := ∀ off, off ∉ but → t.rd off = s.rd off

/-- Every register outside `but` keeps its value, and so does everything that is not a register; the record of this cycle's updates and writes
(R10, R11) may change. -/
def Blk.onlyRegs (s t : Blk) (but : List Nat) : Prop := { t with regs := s.regs, fresh := s.fresh } = s ∧ s.keepsRegs t but

/-! ### Contexts -/

/-- Two contexts are equal but for state, the condition waited for, and the watchdog. -/
structure Ctx.alike (x y : Ctx) : Prop where
  eq : { x with st := y.st, waitFor := y.waitFor, wd := y.wd } = y

/-- Two contexts are equal but for state, the states it returns to, the condition waited for, and the watchdog: one of the contexts of an engine that
look again at what they wait for (R200). -/
structure Ctx.awaits (x y : Ctx) : Prop where
  eq : { x with st := y.st, under := y.under, base := y.base, waitFor := y.waitFor, wd := y.wd } = y

/-- Nothing of the block changes but contexts, engines and their watchdogs, idle flags, activity, power meters, registers,
the count of corrected registers, and the records of the cycle: updates and accesses of bay memory. -/
structure Blk.near (s t : Blk) : Prop where
  eq : { t with ctxs := s.ctxs, engs := s.engs, engWd := s.engWd, idle := s.idle, idleAt := s.idleAt, meter := s.meter, regs := s.regs, fresh := s.fresh, regCe := s.regCe, ports := s.ports } = s

/-- Bay memory serves a context: it is ready (R421), and no other requester but a stolen cycle has been granted an array of the bay in this cycle
(R408 to R410). -/
def Blk.serves (s : Blk) (k : Nat) : Bool :=
  s.bmReady (k / 64) && s.portsNow.given.all fun x => x.1 / 8 != k / 64 || x.2 == s.engReq k || x.2 == 12

/-- An instruction of `len` words can execute in a context: it issues (R200), nothing is deferred and no LOCK_LEN is due, no instruction is
half done, its words lie in code memory (R277) without a stored error, no register of its operands awaits a result (R202) or holds an
uncorrectable error, for an ALU result no injection is armed (R224), and bay memory serves the context (R200). -/
def State.runs (s : State) (c : CtxRef) (len : Nat) (alu : Bool) (regs : ZRegs) : Bool :=
  let k := ctxKey c
  let x := s.blk.ctx k
  let rd := x.allPlaces regs.reads
  s.issues k && !x.defer && !x.lockOut && x.u.start.isNone && s.blk.td.step.isNone &&
  ((List.range len).all fun i => codeAt x.cb.toNat (x.pc.toNat + i) &&
    (pget s.blk.bmErr (bmKey (k / 64) (bayWord x.cb.toNat (x.pc.toNat + i)))).isNone) &&
  ((rd ++ x.allPlaces regs.writes).all fun i => !s.blk.pendingReg k i) &&
  !x.regErr rd && (rd.all fun i => (pget x.parErr i).isNone) && !(alu && s.blk.injects k) &&
  s.blk.serves k && !x.farBad && !x.u.issued

/-- What the retirement of an instruction of `len` words and `cyc` cycles leaves, with destination registers `dst`: PC moves past it, no other
register of either bank changes, nor SW but its flags, nor anything else of the context but its lock's count and retry bookkeeping; no other
context changes but in state; bay memory, the queue and the rest of the block stay. -/
structure State.Retires (s t : State) (c : CtxRef) (len cyc : Nat) (dst : List Nat) : Prop where
  pc     : (t.ctxOf c).pc = (s.ctxOf c).pc + BitVec.ofNat 16 len
  regs   : ∀ i, i ∉ dst.map (s.ctxOf c).gi → tget (fun _ => 0) (t.ctxOf c).g i = tget (fun _ => 0) (s.ctxOf c).g i
  sw     : (t.ctxOf c).sw &&& 0xFFF0 = (s.ctxOf c).sw &&& 0xFFF0
  rest   : { t.ctxOf c with
              g := (s.ctxOf c).g, gErr := (s.ctxOf c).gErr, sw := (s.ctxOf c).sw, pc := (s.ctxOf c).pc, lock := (s.ctxOf c).lock,
              lockLen := (s.ctxOf c).lockLen, resv := (s.ctxOf c).resv, lockOut := (s.ctxOf c).lockOut, attempt := (s.ctxOf c).attempt,
              tripled := (s.ctxOf c).tripled, st := (s.ctxOf c).st, waitFor := (s.ctxOf c).waitFor, wd := (s.ctxOf c).wd } = s.ctxOf c
  count  : (t.ctxOf c).attempt = 0 ∧ (t.ctxOf c).lock = (s.ctxOf c).countLock.lock ∧ (t.ctxOf c).resv = (s.ctxOf c).countLock.resv ∧
            (t.ctxOf c).lockLen = (s.ctxOf c).countLock.lockLen ∧ (t.ctxOf c).lockOut = (s.ctxOf c).countLock.lockOut
  stageE : max (s.blk.eng c.eng.val).free s.blk.now + cyc ≤ (t.blk.eng c.eng.val).free
  others : ∀ j, j ≠ ctxKey c → (t.blk.ctx j).alike (s.blk.ctx j)
  block  : s.blk.near t.blk
  window : s.blk.keepsRegs t.blk [F.EA_RETRY_CNT_off (ctxKey c / 64)]
  bytes  : ∀ a, memByte t.mem a = memByte s.mem a
  queue  : t.pending = s.pending

/-- What the retirement of an instruction of `cyc` cycles leaves whose own effect makes its context `x`: that context with its lock's count and
its retry bookkeeping, every other context as it was but for state and a reservation that a store breaks, and the rest of the block. -/
structure State.Ends (s t : State) (c : CtxRef) (cyc : Nat) (x : Ctx) : Prop where
  ctx    : { t.ctxOf c with gErr := x.gErr, attempt := x.attempt, tripled := x.tripled, st := x.st, waitFor := x.waitFor, wd := x.wd } = x.countLock
  again  : (t.ctxOf c).attempt = 0
  stageE : max (s.blk.eng c.eng.val).free s.blk.now + cyc ≤ (t.blk.eng c.eng.val).free
  others : ∀ j, j ≠ ctxKey c → Ctx.alike { t.blk.ctx j with resv := (s.blk.ctx j).resv } (s.blk.ctx j)
  block  : s.blk.near { t.blk with bmErr := s.blk.bmErr }
  window : s.blk.keepsRegs t.blk [F.EA_RETRY_CNT_off (ctxKey c / 64)]
  queue  : t.pending = s.pending

/-- The words `ws` of the context's bay memory, and no others, are written by the context: each holds its value with its errors gone, other bytes
and errors stay, and the reservations of other contexts on those words are broken (R326, R417). -/
structure State.Stores (s t : State) (c : CtxRef) (ws : List (Nat × Half)) : Prop where
  stored : ∀ p, p ∈ ws → t.peek (ctxKey c / 64) p.1 = p.2
  bytes  : ∀ a, (∀ p, p ∈ ws → a ≠ memKey (ctxKey c / 64) p.1 ∧ a ≠ memKey (ctxKey c / 64) p.1 + 1) → memByte t.mem a = memByte s.mem a
  errors : ∀ i, pget t.blk.bmErr i = if i ∈ ws.map (fun p => bmKey (ctxKey c / 64) p.1) then none else pget s.blk.bmErr i
  resv   : ∀ j, j ≠ ctxKey c → (t.blk.ctx j).resv =
            if j / 64 = ctxKey c / 64 ∧ ∃ p, p ∈ ws ∧ (s.blk.ctx j).resv = some p.1 then none else (s.blk.ctx j).resv

/-- `n` words of bay memory without a stored error, at an offset of a bank, the offset wrapping in it (R276). -/
def State.clean (s : State) (c : CtxRef) (bank off n : Nat) : Prop :=
  ∀ i, i < n → pget s.blk.bmErr (bmKey (ctxKey c / 64) (bayWord bank (off + i))) = none

/-- Their value, the word at the lowest offset being the least significant (R268). -/
def State.memVal (s : State) (c : CtxRef) (bank off n : Nat) : Nat :=
  (List.range n).foldr (fun i a => a * 2 ^ 16 + (s.peek (ctxKey c / 64) (bayWord bank (off + i))).toNat) 0

/-- The words that a value is stored in. -/
def valWordsAt (bank off n v : Nat) : List (Nat × Half) :=
  (List.range n).map fun i => (bayWord bank (off + i), BitVec.ofNat 16 (v / 2 ^ (16 * i)))

/-- The words of an instruction are fetched, and the single-bit errors of the registers read are corrected and counted. -/
def State.fixed (s : State) (c : CtxRef) (len : Nat) (regs : ZRegs) : State :=
  let k := ctxKey c
  let t := (s.bmReads (k / 64) (s.blk.engReq k)
    (((List.range len).map fun i => (s.ctxOf c).pc.toNat + i).map fun o => bayWord (s.ctxOf c).cb.toNat o)).1
  { t with blk := t.blk.regFix k ((s.ctxOf c).allPlaces regs.reads) }

/-- Nothing of bay memory changes, but the record of its accesses in the cycle. -/
def State.keepsMem (s t : State) : Prop := (∀ a, memByte t.mem a = memByte s.mem a) ∧ t.blk.bmErr = s.blk.bmErr

/-! ### Events and accesses -/

/-- An event `dt` cycles from now, where events take place, answers a next state; `post` relates the state in which it comes and the next one. The
queue stays. -/
def Happens (i : Instr) (s : State) (dt : Nat) (post : State → State → Prop) : Prop :=
  (s.pass dt).blk.live = true →
    Answers (exec i s) fun t => post (s.pass dt) t ∧ t.pending = s.pending

/-- The block as a write that reaches its register finds it: answered without an error (R520), what the register holds kept as its value of this
cycle (R10), a stopped bay of a bay's page awake (R439). -/
def Blk.opened (s : Blk) (req : Req) (off : Nat) : Blk :=
  let s := { s.keepOld off with winRsp := some ⟨req, 0, false⟩ }
  match pageOf off with
  | some p => (match p.kind with
    | .bay | .sieve | .eng => s.wakeBay p.inst
    | _ => s)
  | none => s

/-- A write of a requester to a register, where it reaches it, answers a next state; bay memory and the queue stay. -/
def Performs (i : Instr) (s : State) (req : Req) (off : Nat) (post : Blk → Blk → Prop) : Prop :=
  s.blk.takes req off = true →
    Answers (exec i s) fun t => post (s.blk.opened req off) t.blk ∧ t.mem = s.mem ∧ t.pending = s.pending

/-- Nothing waits to be settled within a command: no answer, no end, no held access whose conflicts are over (R96), no stopped context whose
requests fail (R30). -/
def Blk.settled (s : Blk) : Prop := s.ans = [] ∧ s.fin = [] ∧ s.tgot = [] ∧ s.ready = none ∧ s.lost = []

end Sys2Proof.Machine
end

