-- ==== Sys2Proof/Certificates/Slice0/Obligations.lean ====
section
/-! DEFINITION. What is claimed of the block: one proposition each, with the terms in which the spec's tables are read. -/

namespace Sys2Proof.Machine

/-! ### The arithmetic of R271 and R296, read from the spec's words -/

/-- N and Z of a result of `w` bits. -/
def SignZero (w r : Nat) (f : Nzcv) : Prop := (f.n = true ↔ 2 ^ (w - 1) ≤ r) ∧ (f.z = true ↔ r = 0)

/-- A value of `w` bits as a signed number. -/
def asInt (w a : Nat) : Int := (BitVec.ofNat w a).toInt

/-- Whether an integer is none of `w` bits with sign. -/
abbrev beyond (w : Nat) (i : Int) : Prop := i < -(2 ^ (w - 1) : Nat) ∨ (2 ^ (w - 1) : Nat) ≤ i

/-- A sum with a carry in, and its flags. -/
def sumOf (w a b cin : Nat) : Nat := (a + b + cin) % 2 ^ w
@[inherit_doc sumOf] def SumFlags (w a b cin : Nat) (f : Nzcv) : Prop :=
  SignZero w (sumOf w a b cin) f ∧ (f.c = true ↔ 2 ^ w ≤ a + b + cin) ∧ (f.v = true ↔ beyond w (asInt w a + asInt w b + cin))

/-- A difference with a borrow in, and its flags: C is 1 when no borrow occurs. -/
def diffOf (w a b bin : Nat) : Nat := (a + 2 ^ w - b - bin) % 2 ^ w
@[inherit_doc diffOf] def DiffFlags (w a b bin : Nat) (f : Nzcv) : Prop :=
  SignZero w (diffOf w a b bin) f ∧ (f.c = true ↔ b + bin ≤ a) ∧ (f.v = true ↔ beyond w (asInt w a - asInt w b - bin))

/-- The flags of a logical result. -/
def LogicFlags (w r : Nat) (old f : Nzcv) : Prop := SignZero w r f ∧ f.c = old.c ∧ f.v = false

/-- The S-RR and the L-RRR form of an operation of R299 and R302 with their operands (R303). -/
def TriForm (fn : BitVec 6) (unary noDst quad short : Bool) (f : ZFmt) (x : Tri) : Prop :=
  (short = true ∧ ∃ ra rb : BitVec 4, f = .srr ra rb ∧ x = ⟨ra.toNat, (if unary then rb else ra).toNat, rb.toNat, 1⟩) ∨
  (∃ m ra rb rc, f = .lrrr m ra false rb rc fn ∧ m.toNat ≤ 2 ∧ (unary = true → rc = 0) ∧ (noDst = true → ra = 0) ∧
    (m = 2 → quad = true ∧ ra.toNat % 4 = 0 ∧ rb.toNat % 4 = 0 ∧ rc.toNat % 4 = 0) ∧ x = ⟨ra.toNat, rb.toNat, rc.toNat, 2 ^ m.toNat⟩)

/-- The registers that such an operation reads and writes. -/
def triRegs (unary noDst : Bool) (x : Tri) : ZRegs :=
  ⟨if unary then [(x.a, x.n)] else [(x.a, x.n), (x.b, x.n)], if noDst then [] else [(x.dst, x.n)]⟩

/-- The instruction of `len` words and `cyc` cycles, where it can execute, gives its destination the value `r`, the flags `fl` from those
before, and changes nothing else. -/
def Gives (i : Instr) (s : State) (c : CtxRef) (len cyc : Nat) (regs : ZRegs) (dst : List Nat) (r : State → Prop) (fl : Nzcv → Nzcv → Prop) :
    Prop :=
  s.runs c len true regs = true →
    Answers (exec i s) fun t => r t ∧ fl (s.ctxOf c).flags (t.ctxOf c).flags ∧ s.Retires t c len cyc dst

/-- The same with what the result and the flags are said in one. -/
def Yields (i : Instr) (s : State) (c : CtxRef) (len cyc : Nat) (regs : ZRegs) (dst : List Nat) (post : State → Prop) : Prop :=
  Gives i s c len cyc regs dst post fun _ _ => True

/-- One step of the fold of R314 over one bit of data, for a polynomial of width `w`: with the most significant bit first, or reflected with
the polynomial's bits reversed. -/
def foldBit (w poly rev : Nat) (msb : Bool) (st : Nat) (d : Bool) : Nat :=
  if msb then
    let nx := st * 2 % 2 ^ w
    if st.testBit (w - 1) != d then nx ^^^ poly else nx
  else if st.testBit 0 != d then (st / 2) ^^^ rev else st / 2

/-- The fold of a byte: from bit 7 down, or from bit 0 up. -/
def foldByte (w poly rev : Nat) (msb : Bool) (st d : Nat) : Nat :=
  (if msb then [7, 6, 5, 4, 3, 2, 1, 0] else [0, 1, 2, 3, 4, 5, 6, 7]).foldl (fun st i => foldBit w poly rev msb st (d.testBit i)) st

/-- R313: width, polynomial, its reversal, whether the most significant bit comes first. -/
def polyOf (p : Nat) : Nat × Nat × Nat × Bool :=
  match p with
  | 0 => (24, 0x864CFB, 0xDF3261, true)
  | 1 => (32, 0x1EDC6F41, 0x82F63B78, false)
  | 2 => (32, 0x04C11DB7, 0xEDB88320, false)
  | 3 => (16, 0x1021, 0x8408, true)
  | 4 => (16, 0x8005, 0xA001, false)
  | 5 => (8, 0x07, 0xE0, true)
  | 6 => (8, 0x1D, 0xB8, true)
  | _ => (32, 0x741B8CD7, 0xEB31D82E, false)

/-- R314: the pair of a CRC state after one word, its low byte alone when `one`. -/
def foldWord (p st x : Nat) (one : Bool) : Nat :=
  let q := polyOf p
  let s1 := foldByte q.1 q.2.1 q.2.2.1 q.2.2.2 (st % 2 ^ q.1) (x % 256)
  if one then s1 else foldByte q.1 q.2.1 q.2.2.1 q.2.2.2 s1 (x / 256)

/-- R272: what the codes of a condition test. -/
def condTrue (code : Nat) (f : Nzcv) : Bool :=
  let t := match code / 2 with
    | 0 => f.z | 1 => f.c | 2 => f.n | 3 => f.v | 4 => f.c && !f.z | 5 => f.n == f.v | 6 => !f.z && f.n == f.v | _ => true
  if code % 2 = 0 then t else !t

/-- R307: whether a jump or call of a class and minor code is taken, none where they are illegal. -/
def ljTaken (x : Ctx) (cls m : Nat) : Option Bool :=
  match cls with
  | 0 => if m = 15 then none else some (condTrue m x.flags)
  | 1 => if m < 7 then some (pget x.tags m).isNone else none
  | 2 => if m < 7 then some (pget x.tags m).isSome else none
  | 3 => if m = 0 then some (x.gr 26 == 0) else none
  | _ => none

/-- The forms of a string instruction with its options (R301, R310, R316): long, or short with `code` where no option is set. -/
def StrForm (minor : BitVec 6) (code used : Nat) (ra : BitVec 5) (o : Nat) (f : ZFmt) : Prop :=
  (o < 256 ∧ o &&& (255 - used) = 0 ∧ f = .lri minor ra false (BitVec.ofNat 16 o)) ∨
  (o = 0 ∧ ra.toNat < 16 ∧ f = .sn 5 (BitVec.ofNat 4 code) (BitVec.ofNat 4 ra.toNat))

/-- A word with its bytes exchanged when option SWAP is set. -/
def swapped (o : Nat) (x : Half) : Half := if o.testBit 2 then x.setWidth 8 ++ x.extractLsb' 8 8 else x

/-- The advance past one element: G26, and G28 and G30 where they are used and not held. -/
def advanced (o : Nat) (src dst : Bool) (x : Ctx) : Ctx :=
  let x := x.gw 26 (x.gr 26 - 1)
  let x := if src ∧ o.testBit 0 = false then x.gw 28 (x.gr 28 + 1) else x
  if dst ∧ o.testBit 1 = false then x.gw 30 (x.gr 30 + 1) else x

/-- What an entry at a level through vector `v` leaves of a context that saves `x` (R270, R331, R336): the shadow bank holds SW, CB and BK, PC and
the cause, IE is clear, the stack pointer lies below the frame, control is at the vector; the attempt count of what it leaves is kept (R214). -/
def Blk.entered (s : Blk) (k : Nat) (x : Ctx) (lvl v cause sec : Nat) : Ctx :=
  let x := x.keep
  let y := (((x.gset 52 x.sw).gset 53 (x.cb ++ x.bk)).gset 54 x.pc).gset 55 (BitVec.ofNat 16 (256 * (sec % 256) + cause))
  { (y.setSr (stkReg lvl 1) (x.sr (stkReg lvl 1) - 8)) with
    sw := (x.sw &&& 0x0FFF) ||| 0x1000 ||| BitVec.ofNat 16 (8192 * lvl),
    lcause := BitVec.ofNat 8 cause, scause := BitVec.ofNat 8 sec, waitFor := none, farBad := false,
    u := { x.u with stack := [], pc := entryUa cause, start := none, issued := false },
    pc := BitVec.ofNat 16 (s.fld (F.EA_XVEC_PC (k / 64) v)), cb := BitVec.ofNat 8 (s.fld (F.EA_XVEC_CB (k / 64) v)) }

/-- The words of an entry frame of a kind, at SP - 8 to SP - 1 of a level's stack (R336). -/
def entryFrame (x : Ctx) (lvl kind cause sec : Nat) (fa : Nat × Nat) : List (Nat × Half) :=
  [x.pc, x.cb ++ x.bk, x.sw, BitVec.ofNat 16 (16384 * kind + cause), BitVec.ofNat 16 fa.2, BitVec.ofNat 16 (256 * (sec % 256) + fa.1 % 256), 0,
   BitVec.ofNat 16 (256 * x.df.toNat + x.fdepth.toNat)].mapIdx
    fun i w => (bayWord (x.sr (stkReg lvl 0)).toNat ((x.sr (stkReg lvl 1) - 8).toNat + i), w)

/-- What an entry leaves that no retirement goes with: the context as given, another one that ran READY, other contexts and the rest as before. -/
structure State.Enters (s t : State) (c : CtxRef) (cyc : Nat) (x : Ctx) : Prop where
  ctx    : { t.ctxOf c with gErr := x.gErr, st := x.st, wd := x.wd } = x
  runs   : (t.ctxOf c).st = .run
  stageE : max (s.blk.eng c.eng.val).free s.blk.now + cyc ≤ (t.blk.eng c.eng.val).free
  others : ∀ j, j ≠ ctxKey c → Ctx.alike { t.blk.ctx j with resv := (s.blk.ctx j).resv } (s.blk.ctx j)
  block  : s.blk.near { t.blk with bmErr := s.blk.bmErr }
  window : s.blk.keepsRegs t.blk []
  queue  : t.pending = s.pending

/-- The context and the stack of the level that a fault enters allow an ordinary fault entry (R288, R337). -/
def Ctx.mayFault (x : Ctx) : Prop :=
  let l := if x.priv = 2 then 2 else 1
  x.u.start = none ∧ x.df = false ∧ x.stackValid l = true ∧ x.pushRoom l 8 = true ∧ (x.isOpen = true ∨ x.fdepth = 0)

/-- One more fault outstanding; the first records the checkpoint (R337). -/
def Ctx.deeper (z y : Ctx) : Ctx :=
  { z with fdepth := BitVec.ofNat 8 (min 255 (y.fdepth.toNat + 1)), ckpt := if y.fdepth = 0 then some y.checkpoint else y.ckpt }

/-- An ordinary fault entry (R331, R335 to R337). -/
def State.FaultTaken (s t : State) (c : CtxRef) (cause sec : Nat) (fa : Nat × Nat) : Prop :=
  let y := (s.ctxOf c).unlock
  let l := if y.priv = 2 then 2 else 1
  s.Enters t c (if (y.sr (stkReg l 1)).toNat % 2 = 1 then 16 else 12)
    ((s.blk.entered (ctxKey c) y l (if l = 2 then 1 else 0) cause sec).deeper y) ∧
  s.Stores t c (entryFrame y l 0 cause sec fa)

/-- A row of R390: the instruction, unit and OP[4:0], words of destination and operands, whether OP[7:6] may be a rounding mode. -/
structure CopRow where
  ins  : CtxRef → ZFmt → Instr
  unit : Nat
  fn   : Nat
  nd   : Nat
  na   : Nat
  nb   : Nat
  any  : Bool

/-- The rows of R390. -/
def copRows : List CopRow :=
  [⟨.zMulu16, 0, 0, 2, 1, 1, false⟩, ⟨.zMuls16, 0, 1, 2, 1, 1, false⟩, ⟨.zMulu32, 0, 2, 4, 2, 2, false⟩, ⟨.zMuls32, 0, 3, 4, 2, 2, false⟩,
   ⟨.zDivu16, 0, 8, 2, 2, 1, false⟩, ⟨.zDivs16, 0, 9, 2, 2, 1, false⟩, ⟨.zDivu32, 0, 10, 4, 4, 2, false⟩, ⟨.zDivs32, 0, 11, 4, 4, 2, false⟩,
   ⟨.zFadd, 1, 0, 2, 2, 2, true⟩, ⟨.zFsub, 1, 1, 2, 2, 2, true⟩, ⟨.zFmul, 1, 2, 2, 2, 2, true⟩, ⟨.zFdiv, 1, 3, 2, 2, 2, true⟩,
   ⟨.zFcmp, 1, 4, 1, 2, 2, false⟩, ⟨.zFmin, 1, 5, 2, 2, 2, false⟩, ⟨.zFmax, 1, 6, 2, 2, 2, false⟩,
   ⟨.zFadd, 2, 0, 4, 4, 4, true⟩, ⟨.zFsub, 2, 1, 4, 4, 4, true⟩, ⟨.zFmul, 2, 2, 4, 4, 4, true⟩, ⟨.zFdiv, 2, 3, 4, 4, 4, true⟩,
   ⟨.zFcmp, 2, 4, 1, 4, 4, false⟩, ⟨.zFmin, 2, 5, 4, 4, 4, false⟩, ⟨.zFmax, 2, 6, 4, 4, 4, false⟩,
   ⟨.zFcvtDS, 3, 0, 4, 2, 0, false⟩, ⟨.zFcvtSD, 3, 1, 2, 4, 0, true⟩, ⟨.zFcvtDW, 3, 2, 4, 2, 0, false⟩, ⟨.zFcvtWD, 3, 3, 2, 4, 0, true⟩]

/-- R392: the significant bits of a multiplier. -/
def SigBits (w b : Nat) (sgn : Bool) (m : Nat) : Prop :=
  let fits (m : Nat) : Prop := 1 ≤ m ∧ if sgn then -(2 ^ (m - 1) : Nat) ≤ asInt w b ∧ asInt w b < (2 ^ (m - 1) : Nat) else b < 2 ^ m
  fits m ∧ ∀ n, fits n → m ≤ n

/-- R393: a dividend of 2w bits over a divisor of w bits: the quotient rounded toward zero and the remainder, none on DZ or overflow. -/
def quotient (w a b : Nat) (sgn : Bool) : Option (Nat × Nat) :=
  if b = 0 then none
  else if sgn then
    let q := (asInt (2 * w) a).tdiv (asInt w b)
    let r := (asInt (2 * w) a).tmod (asInt w b)
    if beyond w q then none else some ((BitVec.ofInt w q).toNat, (BitVec.ofInt w r).toNat)
  else if 2 ^ w ≤ a / b then none
  else some (a / b, a % b)

/-- R390, R392: cycles from start to result of units 0 to 3. -/
def Latency (unit fn a b l : Nat) : Prop :=
  let w := if fn = 2 ∨ fn = 3 ∨ fn = 10 ∨ fn = 11 then 32 else 16
  let sgn := decide (fn % 2 = 1)
  match unit with
  | 0 => if fn < 4 then ∃ m, SigBits w b sgn m ∧ l = 2 + (m + 3) / 4
         else l = if (quotient w a b sgn).isNone then 3 else if w = 16 then 11 else 19
  | 3 => l = 3
  | _ => l = if fn < 2 then 4 else if fn = 2 then 5 else if fn = 3 then (if unit = 1 then 12 else 20) else 2

/-- R389: the functional unit of its bay that carries an operation out, and whether it takes a start in every cycle. -/
def unitOf (unit fn : Nat) : Nat × Bool :=
  match unit with
  | 0 => if fn < 4 then (0, false) else (1, false)
  | 1 => if fn = 2 then (3, true) else if fn = 3 then (4, false) else (2, true)
  | 2 => if fn = 2 then (6, true) else if fn = 3 then (7, false) else (5, true)
  | _ => (8, true)

/-- R392, R393, R396 to R398: result and flags (IV, DZ, OF, UF, NX from bit 4 down) of units 0 to 3; `none` where CPF is not written. -/
def copMeans (unit op a b : Nat) : Nat × Option Nat :=
  let fn := op % 32
  let md := op / 64
  let w := if fn = 2 ∨ fn = 3 ∨ fn = 10 ∨ fn = 11 then 32 else 16
  let fp (r : Nat × Nat) : Nat × Option Nat := (r.1, some r.2)
  match unit with
  | 0 =>
    if fn = 0 ∨ fn = 2 then (a * b, none)
    else if fn = 1 ∨ fn = 3 then ((BitVec.ofInt (2 * w) (asInt w a * asInt w b)).toNat, none)
    else match quotient w a b (decide (fn % 2 = 1)) with
      | some (q, r) => (r * 2 ^ w + q, some 0)
      | none => (a, some (if b = 0 then 8 else 4))
  | 3 => if fn = 0 then fp (convert f32 f64 0 a) else if fn = 1 then fp (convert f64 f32 md a) else if fn = 2 then fp (fromInt a)
         else fp (toInt md a)
  | _ =>
    let f := if unit = 1 then f32 else f64
    if fn = 0 then fp (f.add md a b) else if fn = 1 then fp (f.sub md a b) else if fn = 2 then fp (f.mul md a b)
    else if fn = 3 then fp (f.div md a b) else if fn = 4 then fp (f.cmp a b) else fp (f.minMax (fn == 6) a b)

/-- The registers at places `dst` hold a value, the first the most significant half word (R267). -/
def Ctx.holdsAt (x : Ctx) (dst : List Nat) (v : Nat) : Prop :=
  ∀ i, (h : i < dst.length) → tget (fun _ => 0) x.g dst[i] = BitVec.ofNat 16 (v / 2 ^ (16 * (dst.length - 1 - i)))

/-- R275, R388: a result is written: its entry is empty, its destination holds the value, CPF takes the flags where they go to it, and nothing else
of the block changes but what wakes. -/
structure Blk.Result (s t : Blk) (id : Nat) (op : CopOp) (v : Nat) (fl : Nat) (cpf : Bool) : Prop where
  cops   : t.cops = pdel s.cops id
  dst    : (t.ctx op.ctx).holdsAt op.dst v
  regs   : ∀ i, i ∉ op.dst → tget (fun _ => 0) (t.ctx op.ctx).g i = tget (fun _ => 0) (s.ctx op.ctx).g i
  cpf    : (t.ctx op.ctx).sr 0x18 = if cpf then
             ((s.ctx op.ctx).sr 0x18 &&& 0xFFE0) ||| (BitVec.ofNat 16 fl <<< 11) ||| BitVec.ofNat 16 fl else (s.ctx op.ctx).sr 0x18
  rest   : Ctx.awaits { t.ctx op.ctx with
             g := (s.ctx op.ctx).g, gErr := (s.ctx op.ctx).gErr, parErr := (s.ctx op.ctx).parErr, sys := (s.ctx op.ctx).sys,
             cpl := (s.ctx op.ctx).cpl, intV := (s.ctx op.ctx).intV, cpfHw := (s.ctx op.ctx).cpfHw } (s.ctx op.ctx)
  others : ∀ j, j ≠ op.ctx → (t.ctx j).awaits (s.ctx j)
  window : s.keepsRegs t []
  block  : s.near { t with cops := s.cops }

/-- The value of a finite datum in units of the least subnormal. -/
def FFmt.units (f : FFmt) (x : Nat) : Int :=
  (if (f.parts x).sgn then -1 else 1) * (f.sig (f.parts x) * 2 ^ (max 1 (f.parts x).exp - 1) : Nat)

/-- A bit pattern of a finite datum. -/
def FFmt.finite (f : FFmt) (x : Nat) : Prop := x < 2 ^ (1 + f.eb + f.fb) ∧ (f.parts x).exp < f.emax

/-- A finite datum is the quotient num / den, in units of the least subnormal, as a mode of R389 rounds it: to the nearest with ties to even,
toward zero, toward plus infinity, toward minus infinity. -/
def FFmt.Rounded (f : FFmt) (mode : Nat) (num : Int) (den : Nat) (x : Nat) : Prop :=
  let far (z : Nat) : Nat := (f.units z * den - num).natAbs
  match mode with
  | 0 => ∀ z, f.finite z → far x ≤ far z ∧ (far x = far z → f.units z ≠ f.units x → x % 2 = 0)
  | 1 => 0 ≤ f.units x * num ∧ (f.units x * den).natAbs ≤ num.natAbs ∧
         ∀ z, f.finite z → 0 ≤ f.units z * num → (f.units z * den).natAbs ≤ num.natAbs → (f.units z).natAbs ≤ (f.units x).natAbs
  | 2 => num ≤ f.units x * den ∧ ∀ z, f.finite z → num ≤ f.units z * den → f.units x ≤ f.units z
  | _ => f.units x * den ≤ num ∧ ∀ z, f.finite z → f.units z * den ≤ num → f.units z ≤ f.units x

/-- R293: a data-mover command ends: it leaves the queue, its condition is true, DMS holds its outcome, PEND bit 2 sets when it asks for it. -/
structure Blk.DmEnded (s t : Blk) (id : Nat) (op : DmOp) (code : Nat) : Prop where
  dms    : t.dms = pdel s.dms id
  ctx    : let x := s.ctx op.ctx
           let d := dmCmd op.cmd
           let dmsr := (x.sr 0x19 &&& ~~~(3#16 <<< (2 * d.tag))) ||| (BitVec.ofNat 16 code <<< (2 * d.tag))
           Ctx.awaits { t.ctx op.ctx with resv := x.resv } { (if d.tag = 7 then x else { x with tags := pdel x.tags d.tag }.setSr 0x19 dmsr) with
             pend := if d.irq then x.pend ||| 4 else x.pend }
  others : ∀ j, j ≠ op.ctx → Ctx.awaits { t.ctx j with resv := (s.ctx j).resv } (s.ctx j)
  window : s.keepsRegs t []
  block  : s.near { t with dms := s.dms, got := s.got, bmErr := s.bmErr }

/-- Lines of a bay's memory from `line` up hold `ls`, and every other byte is as it was. -/
def State.linesPut (s t : State) (b line : Nat) (ls : List Line) : Prop :=
  (∀ i, (h : i < ls.length) → ∀ j, j < 32 → t.peek b (32 * (line + i) + j) = ls[i].extractLsb' (16 * j) 16) ∧
  ∀ a, (∀ w, 32 * line ≤ w → w < 32 * (line + ls.length) → a ≠ memKey b w ∧ a ≠ memKey b w + 1) → memByte t.mem a = memByte s.mem a

/-- The line at a bay line address. -/
def State.lineAt (s : State) (b line : Nat) : Line :=
  (List.range 32).foldr (fun j (a : Line) => (a <<< 16) ||| (s.peek b (32 * line + j)).setWidth 512) 0

/-- The commands that are a write of one register: requester, offset and the word written, with the bit that the command names. -/
def writeOf : Instr → Option (Req × Nat × Word)
  | .tbEnable q v => some (q, F.SC_TB_CTRL_off, v)
  | .tbAcq q v => some (q, F.SC_TB_CTRL_off, F.SC_TB_CTRL_ACQ.put v 1)
  | .tbRealignRequest q v => some (q, F.SC_TB_CTRL_off, F.SC_TB_CTRL_REALIGN.put v 1)
  | .tbTimingWrite q v => some (q, F.SC_TB_TIMING_off, v)
  | .cmpOwnWrite q n v => some (q, F.SC_CMP_OWN_off n, v)
  | .cmpLoWrite q n v => some (q, F.SC_CMP_LO_off n, v)
  | .cmpHiWrite q n v => some (q, F.SC_CMP_HI_off n, v)
  | .tableArm q v => some (q, F.SC_TBL_CTRL_off, F.SC_TBL_CTRL_ARM.put v 1)
  | .tableCancel q v => some (q, F.SC_TBL_CTRL_off, F.SC_TBL_CTRL_CANCEL.put v 1)
  | .ledgerCapture q p v => some (q, F.HP_LED_IDX_off p, v)
  | .txnLimitWrite q p v => some (q, F.HP_TXN_LIMIT_off p, v)
  | .segmentTableWrite q seg w v => some (q, segOff seg.toNat w, v)
  | .muGeomWrite q c v => some (q, F.MU_GEOM_off c, v)
  | .dfmWrite q c n v => some (q, F.MU_DFM_off c n, v)
  | .poisonListCapture q c v => some (q, F.MU_PL_IDX_off c, v)
  | .poisonListRemove q c v => some (q, F.MU_PL_HI_off c, v)
  | .fenceSet q c v => some (q, F.MU_CTRL_off c, (F.MU_CTRL_FENCE c).put v 1)
  | .fenceClear q c v => some (q, F.MU_CTRL_off c, (F.MU_CTRL_FENCE c).put v 0)
  | .mntGo q c v => some (q, F.MU_MNT_CTRL_off c, (F.MU_MNT_CTRL_GO c).put v 1)
  | .mntAbort q c v => some (q, F.MU_MNT_CTRL_off c, (F.MU_MNT_CTRL_ABORT c).put v 1)
  | .channelRetire q c v => some (q, F.MU_RET_CTRL_off c, (F.MU_RET_CTRL_ARM c).put ((F.MU_RET_CTRL_MODE c).put v 1) 1)
  | .channelReturn q c v => some (q, F.MU_RET_CTRL_off c, (F.MU_RET_CTRL_ARM c).put ((F.MU_RET_CTRL_MODE c).put v 0) 1)
  | .twFail q v => some (q, F.TW_CTRL_off, F.TW_CTRL_FAIL.put v 1)
  | .verifyWalkStart q v => some (q, F.TW_CTRL_off, F.TW_CTRL_VFYGO.put v 1)
  | .twLeave q v => some (q, F.TW_CTRL_off, F.TW_CTRL_LEAVE.put v 1)
  | .sieveAbort q v => some (q, F.SV_CTRL_off, F.SV_CTRL_ABORT.put v 1)
  | .sieveEnable q v => some (q, F.SV_CTRL_off, v)
  | .patchGo q v => some (q, F.CS_PATCH_CTRL_off, F.CS_PATCH_CTRL_GO.put v 1)
  | .patchAct q v => some (q, F.CS_PATCH_CTRL_off, F.CS_PATCH_CTRL_ACT.put v 1)
  | .matchRegisterWrite q b n tgt v => some (q, if tgt then F.CS_MATCH_TGT_off b n else F.CS_MATCH_ADDR_off b n, v)
  | .xbufOwnWrite (.window q) b n v => some (q, F.BM_XBUF_OWN_off b n, v)
  | .bistStart q b v => some (q, F.BM_CTRL_off b, (F.BM_CTRL_BIST b).put v 1)
  | .memoryOff q b v => some (q, F.BM_CTRL_off b, (F.BM_CTRL_OFF b).put v 1)
  | .memoryWake q b v => some (q, F.BM_CTRL_off b, (F.BM_CTRL_OFF b).put v 0)
  | .engineRetire q b e v => some (q, F.EA_ENG_CTRL_off b e, (F.EA_ENG_CTRL_RETIRE b e).put v 1)
  | .errorInject q b e v => some (q, F.EA_ENG_CTRL_off b e, (F.EA_ENG_CTRL_INJ b e).put v 1)
  | .plannedSwapArm q b v => some (q, F.EA_SWAP_off b, (F.EA_SWAP_ARM b).put v 1)
  | .lirqSet q b e n v => some (q, F.EA_CTX_LIRQ_off b e n, v)
  | .bayEnable q b v => some (q, F.EA_BAY_CTRL_off b, v)
  | .bayWatchdogKick q b v => some (q, F.EV_BWD_KICK_off b, v)
  | .blockWatchdogKick q v => some (q, F.EV_BLK_KICK_off, v)
  | .blockWatchdogArm q v => some (q, F.EV_BLK_WD_off, F.EV_BLK_WD_ARM.put v 1)
  | .evBayclkWrite q v => some (q, F.EV_BAYCLK_off, v)
  | .eventDone q t v => some (q, F.EV_DONE_off t, v)
  | .freezeStart q v => some (q, F.EV_FRZ_off, F.EV_FRZ_FRZ.put v 1)
  | .freezeEnd q v => some (q, F.EV_FRZ_off, F.EV_FRZ_FRZ.put v 0)
  | .evPendMaskWrite q m n v => some (q, if m then F.EV_MASK_off n else F.EV_PEND_off n, v)
  | .peStart q n v => some (q, F.SB_PE_CTRL_off n, (F.SB_PE_CTRL_EN n).put v 1)
  | .peStopWrite q n v => some (q, F.SB_PE_CTRL_off n, (F.SB_PE_CTRL_EN n).put v 0)
  | .peFarbWrite q n v => some (q, F.SB_PE_CTRL_off n, v)
  | .peGroupStart q v => some (q, F.SB_PE_GSTART_off, v)
  | .peProgramWrite q n k v => some (q, peProgOff n k, v)
  | .flagSet q v => some (q, F.SB_PE_FSET_off, v)
  | .flagClear q v => some (q, F.SB_PE_FCLR_off, v)
  | .peTxWrite q n v => some (q, F.SB_PE_TX_off n, v)
  | .padOwnWrite q n v => some (q, F.SB_PAD_OWN_off n, v)
  | .slotRequest q v => some (q, F.SB_SLOT_REQ_off, v)
  | .slotOff q v => some (q, F.SB_SLOT_OFF_off, v)
  | .certLoad q v => some (q, F.TD_CERT_CTRL_off, F.TD_CERT_CTRL_LOAD.put v 1)
  | .debugAuthToken q v => some (q, F.TD_DBG_CTRL_off, F.TD_DBG_CTRL_MODE.put (F.TD_DBG_CTRL_AUTH.put v 1) 0)
  | .debugAuthPassword q v => some (q, F.TD_DBG_CTRL_off, F.TD_DBG_CTRL_MODE.put (F.TD_DBG_CTRL_AUTH.put v 1) 1)
  | .debugDrop q v => some (q, F.TD_DBG_CTRL_off, F.TD_DBG_CTRL_DROP.put v 1)
  | .monitorDoor q v => some (q, F.TD_MON_DOOR_off, v)
  | .attnSet q v => some (q, F.BLK_ATTN_SET_off, F.BLK_ATTN_SET_SW.put v 1)
  | .slotTableWrite q off v => if off.toNat % 4 = 0 ∧ (slotArea off.toNat).isSome then some (q, off.toNat, v) else none
  | .energyLimitWrite q off v =>
    if off.toNat = F.SB_SLOT_ELIM_off ∨ off.toNat = F.SB_PWR_VLIM_off ∨
      (off.toNat % 4 = 0 ∧ F.SB_SLOT_CFG_off 0 ≤ off.toNat ∧ off.toNat ≤ F.SB_SLOT_CFG_off 15) then some (q, off.toNat, v) else none
  | _ => none

/-- The registers that a raise of a source writes, among them those of the storm guard (R425, R428). -/
def raiseRegs (n : Nat) : List Nat :=
  let p := (srcPage n).1
  [p + 0xC, p + 0x14, p + 0x18, F.EV_STAT_off, F.EV_MASK_off (n / 32), 0x200C, 0x2014, 0x2018]

/-- A source is raised, with its error code and information: EVT_PEND, COUNT, CODE and ERR_INFO of its page (R425, R523, R524), and no register
but those listed changes. -/
def Blk.tells (s t : Blk) (n : Nat) (err : Option (Nat × Nat)) (but : List Nat) : Prop :=
  let p := (srcPage n).1
  t.rbit (p + 0xC) (n - (srcPage n).2) = true ∧
  (match err with
   | some (c, i) => t.fld (F.ERR_CODE_COUNT p) = min 255 (s.fld (F.ERR_CODE_COUNT p) + 1) ∧
      ((s.bit (F.PAGE_CTRL_ERRLAST p) = true ∨ s.fld (F.ERR_CODE_CODE p) = 0) → t.fld (F.ERR_CODE_CODE p) = c ∧
        (s.bit (F.PAGE_STAT_INFOHOLD p) = false → t.rd (p + 0x18) = BitVec.ofNat 32 i))
   | none => t.fld (F.ERR_CODE_CODE p) = s.fld (F.ERR_CODE_CODE p)) ∧
  s.keepsRegs t (raiseRegs n ++ but)

/-- Two blocks are equal in everything but registers, the record of their updates and the Event Controller's state. -/
def Blk.alikeButRegs (s t : Blk) : Prop := { t with regs := s.regs, ev := s.ev, fresh := s.fresh } = s

/-- The edge that rising edges of the inputs make, `true` for a down step: R33 in step/direction mode, R36 in up/down mode. -/
def Blk.tbSees (s : Blk) (a b bLevel : Bool) : Option Bool :=
  if s.fld F.SC_TB_CTRL_MODE = 0 then (if a then some (bLevel == s.bit F.SC_TB_CTRL_DIRPOL) else none)
  else match a, b with
    | true, false => some false
    | false, true => some true
    | _, _ => none

/-- An expiry that a command brings is seen in its cycle, and falls at the cycle's end (R440), where `post` relates the block to the one it leaves. -/
def Expires (i : Instr) (s : State) (dt : Nat) (d : Dusk) (post : Blk → Blk → Prop) : Prop :=
  (Happens i s dt fun u t => t = { u with blk := u.blk.atDusk d }) ∧ ∀ u : Blk, u.live = true → post u (u.duskOne d)

/-- An event whose own effect `post` relates the block in which it comes and the one that then settles: answers go to their work, ends to their
owners, and held accesses whose conflicts are over start (R19, R96). Bay memory and the queue stay. -/
def Settles (i : Instr) (s : State) (dt : Nat) (post : Blk → Blk → Prop) : Prop :=
  (s.pass dt).blk.live = true →
    Answers (exec i s) fun t => ∃ w, post (s.pass dt).blk w ∧ t.blk = w.settle ∧ t.mem = (s.pass dt).mem ∧ t.pending = s.pending

/-- The same for a window write that reaches its register. -/
def Writes (i : Instr) (s : State) (req : Req) (off : Nat) (post : Blk → Blk → Prop) : Prop :=
  s.blk.takes req off = true →
    Answers (exec i s) fun t => ∃ w, post (s.blk.opened req off) w ∧ t.blk = w.settle ∧ t.mem = s.mem ∧ t.pending = s.pending

/-- The messages sent to the partner since. -/
def Blk.sends (s t : Blk) (l : List TwMsg) : Prop :=
  t.tw.tx = s.tw.tx ++ (l.zipIdx s.tw.txNo).map (fun x => (x.2, x.1)) ∧ t.tw.txNo = s.tw.txNo + l.length

/-- The decision of an OPEN ledger entry (R17, R95, R96, R98, R100, R101): held behind a conflict, admitted to the Direct Path and queued four cycles
after its acceptance, rejected to the engine for the next frame, or taken by the engine. -/
def Blk.decides (v w : Blk) (p i : Nat) : Prop :=
  let e := { v.ent p i with wait := false }
  let u := v.setEnt p i e
  let direct := (e.op = .rd ∨ (e.op = .wr ∧ e.mirr = false)) ∧ segREMOTE e.w0 = false ∧ segCOMP e.w0 = false ∧ segCRYPT e.w0 = false ∧
    v.fld (F.HP_CTRL_DPEN p) = 1
  let c := (linePlace e.w1 e.w2 e.addr).1
  let live := v.fld (liveFld e.cls c)
  let admitted := live = 0xFFFF ∨ v.qOf e.cls c < live
  (u.conflicts e.addr (e.op != .rd) e.seq = true → w = u.setEnt p i { e with st := .held }) ∧
  (u.conflicts e.addr (e.op != .rd) e.seq = false →
    (¬ direct → v.jobOf (.led p i) = none →
      ∃ j, (u.toEngine p i .held).jobOf (.led p i) = some (u.jobNo, j) ∧ w = (u.toEngine p i .held).go u.jobNo j) ∧
    (direct → ¬ admitted → w = (u.bump (F.HP_CNT_REJ_COUNT p)).toEngine p i .boundary) ∧
    (direct → admitted → w = (let x := u.setEnt p i { e with st := .direct, path := false }
      { x with qCnt := tset (fun _ => 0) x.qCnt (qKey e.cls c) (v.qOf e.cls c + 1) }).enqueue c
        ⟨e.cls, decide (e.op = MemOp.wr), (linePlace e.w1 e.w2 e.addr).2, e.data, metaWord e.chk 0 e.mval e.pois, .dp p i e.seq, none, e.addr, e.acc + 4,
          true, false, false⟩))

/-- A tier operation of a data-mover command is finished with a result and a value (R150, R153, R154); the CL that an event shows is that of the line
named, else of the page-table line or of the form (log 145). -/
def Blk.tierFinished (s w : Blk) (id : Nat) (op : DmOp) (t : TierRun) (res : Nat) (v : BitVec 64) (line : Option Nat) : Prop :=
  let cnt := if t.kind = .store then (if res = 0 then [F.MU_CT_CMP_COUNT t.ch] else if res = 1 then [F.MU_CT_NOGAIN_COUNT t.ch]
      else if res = 2 then [F.MU_CT_VFAIL_COUNT t.ch] else [])
    else if t.kind = .fetch ∧ 3 ≤ res ∧ res ≤ 8 then [F.MU_CT_DERR_COUNT t.ch] else []
  let cl := segMBASE (s.segWord t.op.seg.toNat 2) * 2 ^ 25 +
    line.getD (if res = 9 ∨ t.kind = .read ∨ t.kind = .put then t.op.pj.toNat / 8 else t.op.loc.toNat)
  pget w.dms id = some { op with tier := some { t with phase := .finished, result := res, value := v } } ∧
  (∀ i, i ≠ id → pget w.dms i = pget s.dms i) ∧
  (∀ f, f ∈ cnt → w.fld f = min (2 ^ f.w - 1) (s.fld f + 1)) ∧
  ((2 ≤ res ∧ res ≤ 9) → w.fld (F.MU_ERR_CL_LO_CL t.ch) = cl % 2 ^ 32 ∧ w.fld (F.MU_ERR_CL_HI_CL t.ch) = cl / 2 ^ 32 % 2 ^ (F.MU_ERR_CL_HI_CL t.ch).w ∧
    s.tells w (187 + 2 * t.ch) (some (if res = 2 then 0x10 else if res = 9 then 0x12 else 0x11, 15 * 2 ^ 28 + s.mapIdx t.ch cl * 2 ^ 24 + res))
      ([F.MU_ERR_CL_LO_off t.ch, F.MU_ERR_CL_HI_off t.ch] ++ cnt.map Fld.off)) ∧
  (¬ (2 ≤ res ∧ res ≤ 9) → w.ev = s.ev ∧ s.keepsRegs w (cnt.map Fld.off)) ∧
  { w with dms := s.dms, regs := s.regs, ev := s.ev, fresh := s.fresh } = s

/-- The chip fails (R179, R180): STATE 7, LEAVE ended, TW_FAIL_N asserted, event 13, and no change of the pair is due any more; a failed chip stays
so. -/
def Blk.failsTo (s w : Blk) (err : Option (Nat × Nat)) : Prop :=
  if s.twState = 7 then w = s
  else
    let x := (s.setFld F.TW_STAT_STATE 7).clr1 F.TW_CTRL_LEAVE
    let y : Blk := { x with tw := { x.tw with failOut := true, suspAt := none, agreedAt := none, helloTx := none, helloRx := none } }
    y.tells w 13 err [] ∧ y.alikeButRegs w

/-- The partner becomes suspect with a cause (R177, R180, R183): STATE 4, event 6, own TWIN entries in ENGINE, the takeover counted from the first whole
slot; a joiner that is not yet resynced fails instead (R179), and in other states nothing happens. -/
def Blk.suspectsTo (s w : Blk) (code : Nat) : Prop :=
  if s.twState = 6 ∧ s.fld F.TW_STAT_LEAD = 0 ∧ s.fld F.TW_RSY_STAT_DONE = 0 then s.failsTo w none
  else if s.twState = 2 ∨ s.twState = 3 ∨ s.twState = 6 then
    ∃ y : Blk, s.tells y 6 (some (code, 0)) [] ∧ s.alikeButRegs y ∧
      (∀ p i, w.ent p i = if (s.ent p i).st = .twin then { s.ent p i with st := .engine } else s.ent p i) ∧
      { w with led := s.led } = { y.setFld F.TW_STAT_STATE 4 with
        tw := { s.tw with prior := s.twState, suspAt := some (if s.now = s.tb.slotAt then s.tw.slotNo else s.tw.slotNo + 1) } }
  else w = s

/-- Link loss (R177 to R179): side 0 holds the partner suspect, side 1 fails. -/
def Blk.losesLink (s w : Blk) : Prop :=
  if s.twState = 2 ∨ s.twState = 3 ∨ s.twState = 6 then
    if s.fld F.TW_STAT_SIDE = 1 then s.failsTo w none else s.suspectsTo w 3
  else w = s

/-- One line access is added with number `s.jobNo`, accepted after all others, in its segment's class or the one named, and posted to a bay. -/
def Blk.addsJob (s w : Blk) (j : Job) (o : Owner) (op : MemOp) (a : PAddr) (cls : Option Nat) : Prop :=
  let seg := a.toNat / 2 ^ 36
  j.owner = o ∧ j.op = op ∧ j.addr.toNat = a.toNat / 64 * 64 ∧ j.seq = s.seqNo ∧ j.cls = cls.getD (wordFld (s.segWord seg 0) 24 2 + 1) ∧
  j.phase = .held ∧ j.w0 = s.segWord seg 0 ∧ j.w1 = s.segWord seg 1 ∧ j.w2 = s.segWord seg 2 ∧ j.bad = false ∧
  j.ctx / 64 = workBay j.w0 j.w1 j.w2 j.addr ∧
  pget w.jobs s.jobNo = some j ∧ (∀ n, n ≠ s.jobNo → pget w.jobs n = pget s.jobs n) ∧ w.jobNo = s.jobNo + 1 ∧ w.seqNo = s.seqNo + 1 ∧
  { w with jobs := s.jobs, jobNo := s.jobNo, seqNo := s.seqNo, latch := s.latch } = s

/-- The waiting RCPs of a line are discarded (R172): those whose write has not gone to a channel, with their commands. -/
def Blk.dropsRcp (x v : Blk) (a : PAddr) : Prop :=
  let waits (n : Nat) (j : Job) : Prop := (n, j) ∈ x.jobs ∧ j.owner = .rcpWrite ∧ j.addr = a ∧ ∀ o, o ∈ (x.slice j.place.1).out → o.2.purp ≠ .job n
  let gone (n : Nat) : Prop := ∃ j, waits n j
  ((∀ n, ¬ gone n) → v = x) ∧ (∀ n, gone n → pget v.jobs n = none) ∧ (∀ n, ¬ gone n → pget v.jobs n = pget x.jobs n) ∧
  (∀ o, o ∈ v.crypt ↔ o ∈ x.crypt ∧ ∀ n, gone n → o.2.r.purp ≠ .job n) ∧
  (∀ n j r, waits n j → r ∈ (v.slice j.place.1).queue → r.purp ≠ .job n) ∧
  (∀ c r, r ∈ (x.slice c).queue → (∀ n, gone n → r.purp ≠ .job n) → r ∈ (v.slice c).queue) ∧
  (∀ n, (let m := v.slice n; { m with queue := (x.slice n).queue } = x.slice n)) ∧ { v with jobs := x.jobs, crypt := x.crypt, mu := x.mu } = x

/-- An RCP of a line has come to a joiner, sound or rejected (R159, R189): the resync walk that it continues goes on, and one rejected is owed. -/
def Blk.copyCame (x v : Blk) (a : PAddr) (ok : Bool) : Prop :=
  let joins := x.twState = 6 ∧ x.fld F.TW_STAT_LEAD = 0
  let found := x.tw.rsy.find? fun y => (x.walkNext y.1 y.2).any (·.1 == a)
  (¬ joins ∨ (found = none ∧ ok = false) → v = x) ∧
  (joins → found = none → ok = true → (∀ b, b ∈ v.tw.owed ↔ b ∈ x.tw.owed ∧ b ≠ a) ∧ { v with tw := { v.tw with owed := x.tw.owed } } = x) ∧
  (∀ c w, joins → found = some (c, w) → ∃ y, x.walkNext c w = some (a, y) ∧ (∀ i, pget v.tw.rsy i = if i = c then some y else pget x.tw.rsy i) ∧
    (∀ b, b ∈ v.tw.owed ↔ (b = a ∧ ok = false) ∨ (b ∈ x.tw.owed ∧ b ≠ a)) ∧ (∀ i y, (i, y) ∈ v.tw.rsy → v.fld F.TW_RSY_STAT_SEG ≤ y.seg) ∧
    x.keepsRegs v [F.TW_RSY_STAT_off] ∧ { v with regs := x.regs, tw := { v.tw with owed := x.tw.owed, rsy := x.tw.rsy } } = x)

/-- The Twin Port of a chip that enters a paired state: no HELLO is kept, and the watch over the partner starts anew (R177, R180). -/
def Twin.watchFrom (t : Twin) : Twin :=
  { t with agreedAt := none, helloTx := none, helloRx := none, lastHb := t.slotNo, lastMsg := t.slotNo, hbFault := false, misses := 0, verSince := none }

/-- The contexts of logical engine `e` enter FROZEN (R217), each keeping the state that it returns to; nothing else of a context changes but its
watchdog. -/
def Blk.freezes (s w : Blk) (e : Nat) : Prop :=
  (∀ j, { w.ctx j with wd := (s.ctx j).wd } =
    if j / 8 = e ∧ (s.ctx j).st ≠ .frozen then { s.ctx j with base := (s.ctx j).st, st := .frozen } else s.ctx j) ∧ s.near w

/-- A move of the engine of context `k` off slot `x` of bay `b` is asked for (R216, R217, R219, R220): it waits behind another, takes the lowest slot in
SPARE, or fails its slot. -/
def Blk.asksMove (s w : Blk) (b x k : Nat) (kind : MoveKind) : Prop :=
  let e := k / 8
  let stat := F.EA_SLOT_STAT_off b
  let slot (u : Blk) (i : Nat) : Nat := u.fld ⟨stat, 3 * i, 3⟩
  let none_ := ∀ d, d < 9 → slot s d ≠ 1
  (pget s.moves b ≠ none → s.freezes { w with moveQ := s.moveQ } e ∧ w.moveQ = s.moveQ ++ [(b, x, k, kind)] ∧ w.regs = s.regs) ∧
  (∀ d, pget s.moves b = none → d < 9 → slot s d = 1 → (∀ i, i < d → slot s i ≠ 1) →
    s.freezes { w with moves := s.moves } e ∧ (∀ j, pget w.moves j = if j = b then some ⟨x, d, e % 8, k % 8, kind, s.now, false⟩ else pget s.moves j) ∧
    (∀ i, i < 9 → slot w i = if i = d then 3 else if i = x then 2 else slot s i) ∧ s.keepsRegs w [stat]) ∧
  (pget s.moves b = none → none_ → s.freezes { w with ev := s.ev } e ∧ (∀ i, i < 9 → slot w i = if i = x then 5 else slot s i) ∧
    s.tells w (58 + 4 * b) (some (0x01, x * 2 ^ 24 + k % 8 * 2 ^ 16 + e)) [stat])

/-- The fields of a microword that is no more than an ALU operation with its destination, flags and sequencing (R232). -/
def UWord.bare (w : UWord) : Prop :=
  w.xop = 0 ∧ w.mop = 0 ∧ w.dmv = 0 ∧ w.cop = 0 ∧ w.evt = 0 ∧ w.ctx = 0 ∧ w.cnt = 0 ∧ w.tim = 0 ∧ w.sch = 0 ∧ w.imc = 0

/-- A field of a match register as a fetch sees it whose word executes in this cycle: writes of that cycle and of the one before do not show
(R256). -/
def Blk.matchSeen (s : Blk) (f : Fld) : Nat :=
  f.get (((s.matchOld.find? fun x => x.1 == f.off && decide (s.now - 1 ≤ x.2.1)).map (·.2.2)).getD (s.rd f.off))

/-- Match register `n` of a context's bay hits its fetch (R255). -/
def Blk.matchHit (s : Blk) (j n : Nat) : Prop :=
  let b := j / 64
  s.matchSeen (F.CS_MATCH_ADDR_EN b n) = 1 ∧ (s.matchSeen (F.CS_MATCH_ADDR_ENGMASK b n)).testBit (j / 8 % 8) = true ∧
    s.matchSeen (F.CS_MATCH_ADDR_ROMADDR b n) = (s.ctx j).u.pc.toNat

/-- The word of the patch RAM that a context's fetch goes to (R226, R255), and the cycles it adds. -/
def Blk.patchedAt (s : Blk) (j i more : Nat) : Prop :=
  let ua := (s.ctx j).u.pc.toNat
  (ua = 0x2000 + i ∧ i < 0x400 ∧ more = 0) ∨
  (ua < 0x2000 ∧ (s.ctx j).u.skip ≠ some ua ∧ more = 1 ∧ ∃ n, n < 64 ∧ s.matchHit j n ∧ (∀ m, m < n → ¬ s.matchHit j m) ∧
    s.matchSeen (F.CS_MATCH_ADDR_KIND (j / 64) n) = 0 ∧ s.matchSeen (F.CS_MATCH_TGT_TARGET (j / 64) n) = i)

/-- The stored word that a context's fetch reads (R226, R228, R255), from which patch-RAM word, and the cycles it adds; `rom` is the word that the ROM
holds where no fetch has read it yet. -/
def Blk.storeGives (s : Blk) (j : Nat) (rom x : BitVec 161) (patch : Option Nat) (more : Nat) : Prop :=
  let ua := (s.ctx j).u.pc.toNat
  (ua < 0x2000 ∧ ((∀ n, n < 64 → ¬ s.matchHit j n) ∨ (s.ctx j).u.skip = some ua) ∧ x = (pget s.rom ua).getD rom ∧ patch = none ∧ more = 0) ∨
  ∃ i w, patch = some i ∧ s.patchedAt j i more ∧ pget s.patchBad (1024 * (j / 64) + i) = none ∧ pget s.patchRam i = some w ∧ x = storedWord w

/-- What a word leaves whose end makes its context `z`, in `cyc` cycles: nothing else changes but what is named. -/
structure Blk.UEnds (u : Blk) (t : Blk) (j cyc : Nat) (z : Ctx) : Prop where
  ctx    : { t.ctx j with gErr := z.gErr, st := z.st, waitFor := z.waitFor, wd := z.wd } = z
  others : ∀ i, i ≠ j → (t.ctx i).alike (u.ctx i)
  stageE : max (u.eng (j / 8)).free u.now + cyc ≤ (t.eng (j / 8)).free
  block  : u.near { t with opNo := u.opNo, rom := u.rom }
  window : u.keepsRegs t [F.CS_CE_CNT_off]

/-- Pads written through the window of pin engine `n` (R457, R466): `k` of them, the `j`-th at index `idx j` with value `val j`, outputs or
directions; one beyond PWID or not owned by the engine is not written. -/
def Blk.writesPads (u t : Blk) (n : Nat) (dir : Bool) (k : Nat) (idx : Nat → Nat) (val : Nat → Bool) : Prop :=
  let lands (x j : Nat) : Prop := j < k ∧ idx j < u.fld (F.SB_PE_PINS_PWID n) ∧ x = (u.fld (F.SB_PE_PINS_PBASE n) + idx j) % 128 ∧
    u.fld (F.SB_PAD_OWN_KIND x) = 1 ∧ u.fld (F.SB_PAD_OWN_ID x) = n
  let now (b : Blk) (x : Nat) : Bool := if dir then b.pins.dir.getLsbD x else b.pins.out.getLsbD x
  (∀ x, x < 128 → (∀ j, lands x j → now t x = val j) ∧ ((∀ j, ¬ lands x j) → now t x = now u x)) ∧
  (if dir then { t.pins with dir := u.pins.dir } else { t.pins with out := u.pins.out }) = u.pins

/-- SR after `k` places in a direction, with the bits of `src` entering from its index 0 upward (R458). -/
def shifted (left : Bool) (v w : Word) (k : Nat) (src : Nat → Bool) : Prop :=
  ∀ i, i < 32 → w.getLsbD i =
    if left then (if k ≤ i then v.getLsbD (i - k) else src (k - 1 - i)) else if i + k < 32 then v.getLsbD (i + k) else src (i + k - 32)

/-- A stopped pin engine as its start leaves it (R454, R462): the divider begins anew, tick 0 in the next pin-engine cycle; a changed program begins at
START. -/
def PinEng.begun (p : PinEng) (now start : Nat) (keep : Bool) : PinEng :=
  let q := { p with acc := 0, tick := 4 * (now / 4 + 1) }
  if p.changed then { q with pc := BitVec.ofNat 5 start, changed := false, bc := if keep then p.bc else 0, pause := 0, stall := false } else q

/-- The words of a PMBus transaction on the engine's FIFO (R478, R482). -/
def Blk.pmSays (s : Blk) (x : PmTxn) : List Nat :=
  let head (kind addr cmd : Nat) : Nat := kind * 2 ^ 30 + addr * 2 ^ 23 + cmd * 2 ^ 15
  match x with
  | .vin => [head 0 (s.fld F.SB_PWR_PMCFG_ADDR) 0x88]
  | .iin => [head 0 (s.fld F.SB_PWR_PMCFG_ADDR) 0x89]
  | .slot k 0 => [head 1 (s.fld (F.SB_SLOT_CFG_ADDR k)) 0x46, (32 - 3) * 2 ^ 11 + s.fld (F.SB_SLOT_CFG_ILIM k) * 4 / 5]
  | .slot k 1 => [head 1 (s.fld (F.SB_SLOT_CFG_ADDR k)) (s.fld F.SB_EF_TCMD_TCMD), s.fld (F.SB_SLOT_CFG_TTRIP k)]
  | .slot k _ => [head 2 (s.fld (F.SB_SLOT_CFG_ADDR k)) 0x01, 0x80]
  | .off k => [head 2 (s.fld (F.SB_SLOT_CFG_ADDR k)) 0x01, 0x00]

/-- The engine whose FIFOs the power arbiter has (R468). -/
def Blk.hasFifos (s : Blk) (n : Nat) : Prop := n < 32 ∧ s.fld (F.SB_PE_CTRL_FARB n) = 1 ∧ ∀ j, j < n → s.fld (F.SB_PE_CTRL_FARB j) = 0

/-- The transaction that has waited longest starts when none is in progress: its words go to the engine with FARB (R478). -/
def Blk.startsPm (u t : Blk) : Prop :=
  (∀ x r, u.pwr.cur = none → u.pwr.wait = x :: r → t.pwr = { u.pwr with cur := some (x, u.now), wait := r } ∧ { t with pwr := u.pwr, pes := u.pes } = u ∧
    ∀ n, (u.hasFifos n → t.pe n = { u.pe n with tx := ((u.pe n).tx ++ (u.pmSays x).map (BitVec.ofNat 32)).take 8 }) ∧ (¬ u.hasFifos n → t.pe n = u.pe n)) ∧
  ((u.pwr.cur ≠ none ∨ u.pwr.wait = []) → t = u)

/-- An input-bus condition is entered, or left, with its event (R479); `t` differs in nothing else but the arbiter's own state. -/
def Blk.entersBus (u t : Blk) (f : Fld) (n code : Nat) : Prop :=
  (u.setFld f 1).tells t n (some (code, 0)) [] ∧ (u.setFld f 1).alikeButRegs { t with pwr := u.pwr }
@[inherit_doc Blk.entersBus] def Blk.leavesBus (u t : Blk) (f : Fld) : Prop :=
  (u.setFld f 0).tells t 20 (some (0x05, 0)) [] ∧ (u.setFld f 0).alikeButRegs { t with pwr := u.pwr }

/-- UV is entered (R479), where it is not in force. -/
def Blk.entersUv (u t : Blk) (code : Nat) : Prop :=
  (u.fld F.SB_PWR_STAT_UV = 1 → t = u) ∧
  (u.fld F.SB_PWR_STAT_UV = 0 → u.entersBus t F.SB_PWR_STAT_UV 15 code ∧ t.pwr = { u.pwr with uvOn := u.now })

/-- A VIN reading (R479). -/
def Blk.readsVin (u t : Blk) (v : Nat) : Prop :=
  let uv := F.SB_PWR_STAT_UV
  let ov := F.SB_PWR_STAT_OV
  let lo := u.fld F.SB_PWR_VLIM_VLOW
  let hi := u.fld F.SB_PWR_VLIM_VHIGH
  let hyst := u.fld F.SB_PWR_VHYST_HYST
  ∃ a b : Blk, a.fld F.SB_PWR_VIN_VIN = v ∧ a.fld F.SB_PWR_VIN_VALID = 1 ∧ u.onlyRegs a [F.SB_PWR_VIN_off] ∧
    (v < lo → a.entersUv b 0x01) ∧
    (let leaves := u.fld uv = 1 ∧ lo + hyst ≤ v ∧ u.fld F.SB_PWR_STAT_PGOOD = 1
     lo ≤ v → (leaves → a.leavesBus b uv ∧ b.pwr = { a.pwr with uvOff := some a.now }) ∧ (¬ leaves → b = a)) ∧
    (hi < v → u.fld ov = 0 → b.entersBus t ov 16 0x03 ∧ t.pwr = b.pwr) ∧
    (v ≤ hi → u.fld ov = 1 → v + hyst ≤ hi → b.leavesBus t ov ∧ t.pwr = b.pwr) ∧
    ((hi < v ∧ u.fld ov = 1) ∨ (v ≤ hi ∧ (u.fld ov = 0 ∨ hi < v + hyst)) → t = b)

/-- A poll's read succeeds or fails (R479): PMFAIL after three failures in a row, left with a poll of which both reads succeed. -/
def Blk.polls (u t : Blk) (vin ok : Bool) : Prop :=
  let pm := F.SB_PWR_STAT_PMFAIL
  let fails := if ok then 0 else u.pwr.fails + 1
  let both := if vin then ok else ok && u.pwr.vinOk
  let p := { u.pwr with fails := fails, vinOk := both }
  let a := { u with pwr := p }
  (3 ≤ fails → u.fld pm = 0 → a.entersBus t pm 17 0x04 ∧ t.pwr = { p with pmOn := u.now }) ∧
  (vin = false → both = true → u.fld pm = 1 → a.leavesBus t pm ∧ t.pwr = { p with pmOff := some u.now }) ∧
  ((fails < 3 ∨ u.fld pm = 1) → (vin = true ∨ both = false ∨ u.fld pm = 0) → t = a)

/-- A power slot takes a state (R480). -/
def Blk.slotTo (u t : Blk) (k st : Nat) : Prop :=
  t.fld (F.SB_SLOT_CFG_STATE k) = st ∧ t.rd (F.SB_SLOT_CFG_off k) &&& 0x1FFFFFFF = u.rd (F.SB_SLOT_CFG_off k) &&& 0x1FFFFFFF ∧
  (∀ i, i < 32 → t.rbit F.SB_SLOT_REQ_off i = if i = k then decide (st = 1) else u.rbit F.SB_SLOT_REQ_off i) ∧
  u.onlyRegs t [F.SB_SLOT_CFG_off k, F.SB_SLOT_REQ_off]

/-- A transaction ends, with its data where it succeeded (R478 to R480, R482). -/
def Blk.endsPm (u t : Blk) (x : PmTxn) (r : Option (BitVec 16)) : Prop :=
  let a := { u with pwr := { u.pwr with cur := none } }
  let linear (w : BitVec 16) (v : Nat) : Prop := v < 2 ^ 16 ∧
    let m : Int := (w.setWidth 11).toInt * 100
    let e : Int := (w.extractLsb' 11 5).toInt
    let y : Int := if 0 ≤ e then m * 2 ^ e.toNat else Int.tdiv m (2 ^ (-e).toNat)
    0 ≤ y → y < 65536 → (v : Int) = y
  ∃ b : Blk, b.startsPm t ∧
    (x = .vin → (∀ w, r = some w → ∃ v y, linear w v ∧ a.readsVin y v ∧ y.polls b true true) ∧ (r = none → a.polls b true false)) ∧
    (x = .iin → (∀ w, r = some w → ∃ v y, linear w v ∧ y.fld F.SB_PWR_IIN_IIN = v ∧ a.onlyRegs y [F.SB_PWR_IIN_off] ∧ y.polls b false true) ∧
      (r = none → a.polls b false false)) ∧
    (∀ k i, x = .slot k i → k < 16 →
      (r ≠ none → i < 2 → Blk.startsPm { a with pwr := { a.pwr with wait := a.pwr.wait ++ [.slot k (i + 1)] } } b) ∧
      (r ≠ none → 2 ≤ i → a.slotTo b k 3) ∧ (r = none → ∃ y, a.slotTo y k 5 ∧ y.tells b 19 (some (0x23, k)) [] ∧ y.alikeButRegs b)) ∧
    (∀ k, x = .off k → (r ≠ none → b = a) ∧ (r = none → a.tells b 19 (some (0x23, k)) [] ∧ a.alikeButRegs b))

/-- An event of the Trust and Debug Unit, which no halt stops (R503), `dt` cycles from now. -/
def TdHappens (i : Instr) (s : State) (dt : Nat) (post : State → State → Prop) : Prop :=
  (s.pass dt).blk.phase = .running → Answers (exec i s) fun t => post (s.pass dt) t ∧ t.pending = s.pending

/-- Steps one after the other. -/
def eachStep (R : Nat → Blk → Blk → Prop) : List Nat → Blk → Blk → Prop
  | [], u, t => t = u
  | e :: l, u, t => ∃ y, R e u y ∧ eachStep R l y t

/-- The first context of an engine for which a condition holds. -/
def Blk.firstCtx (s : Blk) (e : Nat) (p : Ctx → Bool) (j : Nat) : Prop :=
  j / 8 = e ∧ p (s.ctx j) = true ∧ ∀ i, i / 8 = e → i < j → p (s.ctx i) = false

/-- A context that a halt stops (R198, R206, R327, R446, R505, R506): a lock that a demand breaks is gone with PC at the restart point, the instruction in
E is abandoned, or retires where it has issued its access, and the context is in HALT, or enters it when its move is over (R218). -/
def Ctx.haltsAt (x : Ctx) (now : Nat) (inE broken : Bool) : Ctx :=
  let x := if broken then { x.home with lock := false, resv := none, lockLen := 0, pc := x.lockPc } else x
  let x := if inE then (if x.u.issued then x.ended.retired x.place.1 x.place.2 else x.home) else x
  match x.st with
  | .idle | .stopped | .halt => x
  | .frozen => (match x.base with
    | .idle | .stopped | .halt => x
    | b => { x with base := .halt, under := b })
  | st => { x with st := .halt, under := st, tim := x.tim.gate now false }

/-- What halts and releases change (R503 to R507): contexts with their results and watchdogs, and the registers and the state that record them. -/
def Blk.haltsOnly (s t : Blk) (regs : List Nat) : Prop :=
  s.keepsRegs t regs ∧ { t.td with defer := s.td.defer, deferBlk := s.td.deferBlk } = s.td ∧
  { t with ctxs := s.ctxs, engs := s.engs, engWd := s.engWd, bayWd := s.bayWd, idle := s.idle, idleAt := s.idleAt, cops := s.cops, meter := s.meter,
           td := s.td, regs := s.regs, ev := s.ev, fresh := s.fresh } = s

/-- TD_HSTATX shows the deferred halts and keeps BLOCK (R506, R513). -/
def Blk.showsDefer (s t : Blk) : Prop :=
  t.fld F.TD_HSTATX_DEFER = (decide (t.td.defer ≠ [] ∨ t.td.deferBlk = true)).toNat ∧ t.fld F.TD_HSTATX_BLOCK = s.fld F.TD_HSTATX_BLOCK

/-- The contexts of an engine stop, with or without a demand (R505, R506): watchdogs keep the counts left, a lock broken is reported, and an instruction
that has issued its access retires. -/
def Blk.stopsEngine (u t : Blk) (e : Nat) (demand : Bool) : Prop :=
  let regs := [F.TD_HSTATX_off, F.EA_RETRY_CNT_off (e / 8)]
  let retires := ∃ j, u.firstCtx e (fun x => x.st == .run) j ∧ (u.ctx j).u.issued = true
  (∀ j, j / 8 ≠ e → t.ctx j = u.ctx j) ∧
  (∀ j, j / 8 = e → ∃ inE broken : Bool, (inE = true ↔ u.firstCtx e (fun x => x.st == .run) j) ∧
    (broken = true ↔ demand = true ∧ u.firstCtx e Ctx.lock j) ∧
    { t.ctx j with wd := (u.ctx j).wd } = (u.ctx j).haltsAt u.now inE broken ∧
    (inE = false ∨ (u.ctx j).u.issued = false → (t.ctx j).wd.leftAt u.now = (u.ctx j).wd.leftAt u.now) ∧
    ((t.ctx j).st = .halt → (u.ctx j).st ≠ .halt → (t.ctx j).wd.run = false)) ∧
  (¬ retires → (∀ b x, (t.engWdOf b x).leftAt u.now = (u.engWdOf b x).leftAt u.now) ∧ t.engs = u.engs ∧ t.meter = u.meter ∧
    t.rd (F.EA_RETRY_CNT_off (e / 8)) = u.rd (F.EA_RETRY_CNT_off (e / 8))) ∧
  t.bayWd = u.bayWd ∧ t.cops = u.cops ∧
  (demand = true → (∃ j, j / 8 = e ∧ (u.ctx j).lock = true) → u.tells t 3 (some (0x12, e)) regs) ∧
  (demand = false ∨ (∀ j, j / 8 = e → (u.ctx j).lock = false) → t.ev = u.ev ∧ u.keepsRegs t regs) ∧
  (∀ x, pget t.td.defer x = if x = e then none else pget u.td.defer x) ∧ t.td.deferBlk = u.td.deferBlk ∧ u.showsDefer t ∧
  u.haltsOnly t (regs ++ raiseRegs 3)

/-- A halt of an engine in which a context holds LOCK is deferred, but for a demand (R506). -/
def Blk.stopsOrDefers (u t : Blk) (e : Nat) (demand : Bool) : Prop :=
  let held := ∃ j, j / 8 = e ∧ (u.ctx j).lock = true
  (held → demand = false → (∀ x, pget t.td.defer x = if x = e then some () else pget u.td.defer x) ∧ t.td.deferBlk = u.td.deferBlk ∧ u.showsDefer t ∧
    u.keepsRegs t [F.TD_HSTATX_off] ∧ { t.td with defer := u.td.defer } = u.td ∧ { t with td := u.td, regs := u.regs } = u) ∧
  (¬ held ∨ demand = true → u.stopsEngine t e demand)

/-- Event source 3 for a domain (R515). -/
def Blk.tellsHalt (u t : Blk) (code : Nat) : Prop := u.tells t 3 (some (code, 0)) [] ∧ u.alikeButRegs t

/-- A halt of a logical engine (R503, R505, R506); one that is halted stays as it is. -/
def Blk.haltsEngine (u t : Blk) (e : Nat) (force : Bool) : Prop :=
  let held := ∃ j, j / 8 = e ∧ (u.ctx j).lock = true
  let again := pget u.td.defer e ≠ none
  (u.halted e = true → t = u) ∧
  (u.halted e = false → held → force = false → ¬ again → u.stopsOrDefers t e false) ∧
  (u.halted e = false → (¬ held ∨ force = true ∨ again) → ∃ (y : Blk) (d : Bool), (d = true ↔ force = true ∨ again) ∧ u.stopsEngine y e d ∧
    (y.setFld ⟨F.TD_HSTAT_off (e / 32), e % 32, 1⟩ 1).tellsHalt t 0x10)

/-- A halt of a bay (R503, R505, R506). -/
def Blk.haltsBay (u t : Blk) (b : Nat) (force : Bool) : Prop :=
  let engines := (List.range 8).map (8 * b + ·)
  let blk := u.fld F.TD_HSTATX_BLOCK = 1
  let bay := u.rbit F.TD_HSTATB_off b = true
  (blk → t = u) ∧
  (¬ blk → bay → eachStep (fun e x y => (pget x.td.defer e = none → y = x) ∧ (pget x.td.defer e ≠ none → x.stopsEngine y e true)) engines u t) ∧
  (¬ blk → ¬ bay → ∃ y z : Blk, eachStep (fun e x y => (u.halted e = true → y = x) ∧ (u.halted e = false → x.stopsOrDefers y e force)) engines
      (u.setFld ⟨F.TD_HSTATB_off, b, 1⟩ 1) y ∧
    (∀ a, (z.bayWdOf a).leftAt u.now = (y.bayWdOf a).leftAt u.now) ∧ (∀ a, a ≠ b → z.bayWdOf a = y.bayWdOf a) ∧
    (y.halted (8 * b + y.fld (F.EA_BAY_CTRL_SUPV b)) = true → (z.bayWdOf b).run = false) ∧ { z with bayWd := y.bayWd } = y ∧ z.tellsHalt t 0x10)

/-- A halt of the block (R503, R506). -/
def Blk.haltsBlock (u t : Blk) (force : Bool) : Prop :=
  let halted := u.fld F.TD_HSTATX_BLOCK = 1
  let waits := (∃ x, x ∈ u.ctxs ∧ x.2.lock = true) ∧ force = false ∧ u.td.deferBlk = false
  (halted → t = u) ∧
  (¬ halted → waits → t.td = { u.td with deferBlk := true } ∧ u.showsDefer t ∧ u.keepsRegs t [F.TD_HSTATX_off] ∧ { t with td := u.td, regs := u.regs } = u) ∧
  (¬ halted → ¬ waits → ∃ y z : Blk, eachStep (fun e x y => (x.halted e = true → y = x) ∧ (x.halted e = false → x.stopsEngine y e true)) (List.range 256) u y ∧
    z.td = { y.td with deferBlk := false } ∧ z.fld F.TD_HSTATX_DEFER = (decide (y.td.defer ≠ [])).toNat ∧ z.fld F.TD_HSTATX_BLOCK = 1 ∧
    y.keepsRegs z [F.TD_HSTATX_off] ∧ { z with td := y.td, regs := y.regs } = y ∧ z.tellsHalt t 0x10)

/-- The contexts of an engine resume (R446, R507): results held for them are written, each is in the state it was in before the halt, or in the one
that the end of its wait and the selection give it, and the watchdogs have their full counts. -/
def Blk.resumesEngine (u t : Blk) (e : Nat) : Prop :=
  (∀ j, j / 8 ≠ e → t.ctx j = u.ctx j) ∧
  (∀ n, (pget t.cops n = none ∨ pget t.cops n = pget u.cops n) ∧
    ∀ op r, pget u.cops n = some op → op.held = some r → op.ctx / 8 = e → pget t.cops n = none) ∧
  (∀ j, j / 8 = e → let x := u.ctx j
    let y := t.ctx j
    let quiet := ∀ n op, (n, op) ∈ u.cops → op.ctx = j → op.held = none
    (x.st = .halt → x.under ≠ .frozen → (y.st = x.under ∨ (x.under = .ready ∧ y.st = .run) ∨ (x.waitFor ≠ none ∧ (y.st = .ready ∨ y.st = .run))) ∧
      y.wd.left = u.fld F.EV_WD_CFG_CLIM * 256 ∧ y.wd.since = u.now ∧ y.tim.leftAt u.now = x.tim.leftAt u.now ∧
      (y.tim.run = true ↔ x.tim.left ≠ 0) ∧
      (quiet → { y with st := x.st, waitFor := x.waitFor, under := x.under, wd := x.wd, tim := x.tim } = x)) ∧
    (x.st ≠ .halt → x.st ≠ .frozen → x.waitFor = none → x.st ≠ .ready → quiet → { y with wd := x.wd } = x)) ∧
  u.haltsOnly t []

/-- RELEASE of a logical engine (R507), and whether it is refused. -/
def Blk.releasesEngine (u t : Blk) (e : Nat) (ok : Bool) : Prop :=
  let f : Fld := ⟨F.TD_HSTAT_off (e / 32), e % 32, 1⟩
  let inside := u.fld F.TD_HSTATX_BLOCK = 1 ∨ u.rbit F.TD_HSTATB_off (e / 8) = true
  (ok = false ↔ inside) ∧ (inside ∨ u.fld f = 0 → t = u) ∧
  (¬ inside → u.fld f = 1 → ∃ y, (u.setFld f 0).resumesEngine y e ∧ y.tellsHalt t 0x11)

/-- RELEASE of a bay (R507): its halt and its deferred halts are over, and the engines that no other halt holds resume. -/
def Blk.releasesBay (u t : Blk) (b : Nat) : Prop :=
  (u.rbit F.TD_HSTATB_off b = false → t = u) ∧
  (u.rbit F.TD_HSTATB_off b = true → ∃ w y z : Blk,
    (let v := u.setFld ⟨F.TD_HSTATB_off, b, 1⟩ 0
     w.td = { u.td with defer := u.td.defer.filter fun x => x.1 / 8 != b } ∧ v.showsDefer w ∧ v.keepsRegs w [F.TD_HSTATX_off] ∧
       { w with td := u.td, regs := u.regs } = u) ∧
    eachStep (fun e x y => (x.halted e = true → y = x) ∧ (x.halted e = false → x.resumesEngine y e)) ((List.range 8).map (8 * b + ·)) w y ∧
    (z.bayWdOf b).left = u.fld F.EV_WD_BAY_LIMIT * 4096 ∧ (z.bayWdOf b).since = u.now ∧ (∀ a, a ≠ b → z.bayWdOf a = y.bayWdOf a) ∧
    { z with bayWd := y.bayWd, idleAt := y.idleAt } = y ∧ z.tellsHalt t 0x11)

/-- RELEASE of the block (R507): the tracker, unless it is off, drifts with a missed index. -/
def Blk.releasesBlock (u t : Blk) : Prop :=
  (u.fld F.TD_HSTATX_BLOCK = 0 → t = u) ∧
  (u.fld F.TD_HSTATX_BLOCK = 1 → ∃ y z w : Blk,
    eachStep (fun e x y => (x.halted e = true → y = x) ∧ (x.halted e = false → x.resumesEngine y e)) (List.range 256) (u.setFld F.TD_HSTATX_BLOCK 0) y ∧
    (∀ a x, (a, x) ∈ z.bayWd ↔ ∃ o, (a, o) ∈ y.bayWd ∧ x = { o with left := u.fld F.EV_WD_BAY_LIMIT * 4096, since := u.now }) ∧
    z.blkWd = { y.blkWd with left := u.fld F.EV_BLK_WD_LIMIT * 4096, since := u.now } ∧ { z with bayWd := y.bayWd, blkWd := y.blkWd } = y ∧
    (u.fld F.SC_TB_STAT_STATE = 0 → w = z) ∧
    (u.fld F.SC_TB_STAT_STATE ≠ 0 → let x := (z.setFld F.SC_TB_STAT_STATE 3).setFld F.SC_TB_DRIFT_MISS 1
      x.tells w 23 (some (0x03, 0)) [] ∧ x.alikeButRegs w) ∧ w.tellsHalt t 0x11)

/-- A monitor command ends with a status and data words (R498, R499, R530). -/
def Blk.answers (u t : Blk) (status : Nat) (data : List Word) : Prop :=
  let rsp (i : Nat) : Nat := F.TD_MON_RSP_off i
  t.rd (rsp 0) = BitVec.ofNat 32 (status + u.td.seq.toNat * 2 ^ 8 + data.length * 2 ^ 16) ∧ (∀ i w, data[i]? = some w → t.rd (rsp (i + 1)) = w) ∧
  t.rd F.TD_MON_STAT_off = (u.rd F.TD_MON_STAT_off &&& 0x7FFF0000) ||| BitVec.ofNat 32 (u.td.seq.toNat * 2 ^ 8 + status) ∧
  t.rd F.BLK_ATTN_off = (u.setFld F.BLK_ATTN_MON 1).rd F.BLK_ATTN_off ∧
  u.onlyRegs t (F.TD_MON_STAT_off :: F.BLK_ATTN_off :: (List.range (data.length + 1)).map rsp)

/-- DROP (R497): releases, the end of a STEP in progress (log 173), the monitor's breakpoints, the cross-trigger channels, LEVEL, in this order. -/
def Blk.dropsLevel (u t : Blk) : Prop :=
  ∃ x y v z w : Blk, u.releasesBlock x ∧ eachStep (fun b x y => x.releasesBay y b) (List.range 32) x y ∧
    eachStep (fun e x y => ∃ ok, x.releasesEngine y e ok) (List.range 256) y v ∧
    (v.td.step = none → z = v) ∧ (v.td.step ≠ none → v.answers z 0 []) ∧
    w.td = { z.td with defer := [], deferBlk := false, asks := [], pulses := [], step := none, brk := [] } ∧ w.fld F.TD_HSTATX_DEFER = 0 ∧
    w.fld F.TD_HSTATX_BLOCK = z.fld F.TD_HSTATX_BLOCK ∧
    (∀ b m, b < 32 → m < 64 → let f := F.CS_MATCH_ADDR_EN b m
      (64 * b + m ∈ z.td.brk.map Prod.fst → z.fld (F.CS_MATCH_ADDR_KIND b m) = 1 → w.rd f.off = (z.setFld f 0).rd f.off) ∧
      ((64 * b + m ∉ z.td.brk.map Prod.fst ∨ z.fld (F.CS_MATCH_ADDR_KIND b m) = 0) → w.rd f.off = z.rd f.off)) ∧
    (∀ c i, c < 8 → i < 11 → w.rd (0x1400 + 0x40 * c + 4 * i) = 0) ∧
    z.keepsRegs w (F.TD_HSTATX_off :: z.td.brk.map (fun x => (F.CS_MATCH_ADDR_EN (x.1 / 64) (x.1 % 64)).off) ++
      (List.range 8).flatMap fun c => (List.range 11).map fun i => 0x1400 + 0x40 * c + 4 * i) ∧
    { w with td := z.td, regs := z.regs } = z ∧ t = w.setFld F.TD_DBG_STAT_LEVEL 0

/-- The monitor carries out the command whose code stands in TD_MON_CMD0, where the debug level allows it (R498 to R500). -/
def Monitors (i : Instr) (s : State) (dt code level : Nat) (post : State → State → Prop) : Prop :=
  TdHappens i s dt fun u t =>
    let k := u.blk
    let turn := k.fld F.TD_MON_STAT_BUSY = 1 ∧ (k.rd (F.TD_MON_CMD_off 0)).toNat % 256 = code ∧ k.td.step = none
    (¬ turn → t = u) ∧ (turn → k.fld F.TD_DBG_STAT_LEVEL < level → t.mem = u.mem ∧ k.answers t.blk 1 []) ∧
    (turn → level ≤ k.fld F.TD_DBG_STAT_LEVEL → post u t)

/-- It ends in a state that differs only in the answer. -/
def State.says (u t : State) (status : Nat) (data : List Word) : Prop := t.mem = u.mem ∧ u.blk.answers t.blk status data

/-- Accesses to the control window one after the other, with what they read (R499, R501). -/
def eachAccess (f : Nat → Instr) : Nat → Nat → State → State → List Word → Prop
  | _, 0, u, t, l => t = u ∧ l = []
  | i, n + 1, u, t, l => ∃ (y : State) (w : Word) (m : List Word), exec (f i) u = .next y ∧ (∃ r, y.blk.winRsp = some r ∧ w = r.data) ∧
      eachAccess f (i + 1) n y t m ∧ l = w :: m

end Sys2Proof.Machine

open Sys2Proof Sys2Proof.Machine

/-- R299, R302, R271: ADD, ADC, SUB, SBB, CMP and NEG, in every form, give the sum or difference at the width of the operation, N, Z, C and V
from it, and change no other register, flag or memory. -/
def Obligations.SumsAndDifferences : Prop :=
  ∀ (s : State) (c : CtxRef) (f : ZFmt) (x : Tri),
    let w := 16 * x.n
    let a := (s.ctxOf c).val x.a x.n
    let b := (s.ctxOf c).val x.b x.n
    let cy := (s.ctxOf c).flags.c.toNat
    let does (i : Instr) (unary noDst : Bool) (r : Nat) (fl : Nzcv → Prop) : Prop :=
      Gives i s c (fmtLen f) 1 (triRegs unary noDst x) (if noDst then [] else regsOf x.dst x.n)
        (fun t => noDst = false → (t.ctxOf c).val x.dst x.n = r) fun _ => fl
    (TriForm 0x01 false false false true f x → does (.zAdd c f) false false (sumOf w a b 0) (SumFlags w a b 0)) ∧
    (TriForm 0x02 false false false true f x → does (.zAdc c f) false false (sumOf w a b cy) (SumFlags w a b cy)) ∧
    (TriForm 0x03 false false false true f x → does (.zSub c f) false false (diffOf w a b 0) (DiffFlags w a b 0)) ∧
    (TriForm 0x04 false false false true f x → does (.zSbb c f) false false (diffOf w a b (1 - cy)) (DiffFlags w a b (1 - cy))) ∧
    (TriForm 0x05 false true false true f x → does (.zCmp c f) false true 0 (DiffFlags w a b 0)) ∧
    (TriForm 0x0B true false false true f x → does (.zNeg c f) true false (diffOf w 0 a 0) (DiffFlags w 0 a 0))

/-- R299, R302, R271: MOV, AND, OR, XOR, ANDN, TST and NOT in every form, quads included, and SEXB, ZEXB and SWAB: the result, N and Z from it,
C kept and V cleared; MOV and every quad keep the flags. -/
def Obligations.MovesAndLogic : Prop :=
  ∀ (s : State) (c : CtxRef) (f : ZFmt) (x : Tri),
    let w := 16 * x.n
    let a := (s.ctxOf c).val x.a x.n
    let b := (s.ctxOf c).val x.b x.n
    let does (i : Instr) (unary noDst : Bool) (r : Nat) (flags : Bool) : Prop :=
      Gives i s c (fmtLen f) (if x.n = 4 then 2 else 1) (triRegs unary noDst x) (if noDst then [] else regsOf x.dst x.n)
        (fun t => noDst = false → (t.ctxOf c).val x.dst x.n = r)
        fun old new => if flags = true ∧ x.n ≠ 4 then LogicFlags w r old new else new = old
    (TriForm 0x00 true false true true f x → does (.zMov c f) true false a false) ∧
    (TriForm 0x06 false false true true f x → does (.zAnd c f) false false (a &&& b) true) ∧
    (TriForm 0x07 false false true true f x → does (.zOr c f) false false (a ||| b) true) ∧
    (TriForm 0x08 false false true true f x → does (.zXor c f) false false (a ^^^ b) true) ∧
    (TriForm 0x09 false false true true f x →
      does (.zAndn c f) false false (BitVec.ofNat w a &&& ~~~ BitVec.ofNat w b).toNat true) ∧
    (TriForm 0x0A false true false true f x → does (.zTst c f) false true (a &&& b) true) ∧
    (TriForm 0x0C true false true true f x → does (.zNot c f) true false (~~~ BitVec.ofNat w a).toNat true) ∧
    ∀ ra rb : BitVec 4, f = .srr ra rb → x = ⟨ra.toNat, rb.toNat, rb.toNat, 1⟩ →
      let v := BitVec.ofNat 16 b
      does (.zSexb c f) true false ((v.setWidth 8).signExtend 16).toNat true ∧
      does (.zZexb c f) true false ((v.setWidth 8).setWidth 16).toNat true ∧
      does (.zSwab c f) true false (v.setWidth 8 ++ v.extractLsb' 8 8).toNat true

/-- R302: MIN, MAX, MINU, MAXU and ABS on words and pairs; ABS returns the most negative value unchanged with V set. -/
def Obligations.MinimaMaximaMagnitude : Prop :=
  ∀ (s : State) (c : CtxRef) (f : ZFmt) (x : Tri),
    let w := 16 * x.n
    let a := (s.ctxOf c).val x.a x.n
    let b := (s.ctxOf c).val x.b x.n
    let does (i : Instr) (unary : Bool) (r : Nat) (fl : Nzcv → Nzcv → Prop) : Prop :=
      Gives i s c 2 1 (triRegs unary false x) (regsOf x.dst x.n) (fun t => (t.ctxOf c).val x.dst x.n = r) fl
    (TriForm 0x0D false false false false f x →
      ∀ r, (r = a ∨ r = b) → asInt w r ≤ asInt w a → asInt w r ≤ asInt w b → does (.zMin c f) false r (LogicFlags w r)) ∧
    (TriForm 0x0E false false false false f x →
      ∀ r, (r = a ∨ r = b) → asInt w a ≤ asInt w r → asInt w b ≤ asInt w r → does (.zMax c f) false r (LogicFlags w r)) ∧
    (TriForm 0x0F false false false false f x → ∀ r, (r = a ∨ r = b) → r ≤ a → r ≤ b → does (.zMinu c f) false r (LogicFlags w r)) ∧
    (TriForm 0x10 false false false false f x → ∀ r, (r = a ∨ r = b) → a ≤ r → b ≤ r → does (.zMaxu c f) false r (LogicFlags w r)) ∧
    (TriForm 0x11 true false false false f x →
      let r := (asInt w a).natAbs
      does (.zAbs c f) true r fun old new => SignZero w r new ∧ new.c = old.c ∧ (new.v = true ↔ a = 2 ^ (w - 1)))

/-- R300, R304: the immediate instructions, imm8 and the pair forms extended by sign. -/
def Obligations.Immediates : Prop :=
  (∀ (s : State) (c : CtxRef) (ra : BitVec 4) (imm : BitVec 8),
    let r := ra.toNat
    let a := (s.ctxOf c).val r 1
    let b := (imm.signExtend 16).toNat
    Gives (.zMovi c (.sri ra imm)) s c 1 1 ⟨[], [(r, 1)]⟩ [r] (fun t => (t.ctxOf c).val r 1 = b) (fun old new => new = old) ∧
    Gives (.zAddi c (.sri ra imm)) s c 1 1 ⟨[(r, 1)], [(r, 1)]⟩ [r] (fun t => (t.ctxOf c).val r 1 = sumOf 16 a b 0) (fun _ => SumFlags 16 a b 0) ∧
    Gives (.zCmpi c (.sri ra imm)) s c 1 1 ⟨[(r, 1)], []⟩ [] (fun _ => True) (fun _ => DiffFlags 16 a b 0)) ∧
  (∀ (s : State) (c : CtxRef) (ra : BitVec 5) (imm : BitVec 16),
    let r := ra.toNat
    let a := (s.ctxOf c).val r 1
    let b := imm.toNat
    let does (i : CtxRef → ZFmt → Instr) (m : BitVec 6) (reads dst : Bool) (v : Nat) (fl : Nzcv → Nzcv → Prop) : Prop :=
      Gives (i c (.lri m ra false imm)) s c 2 1 ⟨if reads then [(r, 1)] else [], if dst then [(r, 1)] else []⟩ (if dst then [r] else [])
        (fun t => dst = true → (t.ctxOf c).val r 1 = v) fl
    does .zMovw 0x00 false true b (fun old new => new = old) ∧
    does .zAddw 0x01 true true (sumOf 16 a b 0) (fun _ => SumFlags 16 a b 0) ∧
    does .zCmpw 0x02 true false 0 (fun _ => DiffFlags 16 a b 0) ∧
    does .zAndw 0x03 true true (a &&& b) (LogicFlags 16 (a &&& b)) ∧
    does .zOrw 0x04 true true (a ||| b) (LogicFlags 16 (a ||| b)) ∧
    does .zXorw 0x05 true true (a ^^^ b) (LogicFlags 16 (a ^^^ b)) ∧
    does .zTstw 0x06 true false 0 (LogicFlags 16 (a &&& b))) ∧
  (∀ (s : State) (c : CtxRef) (ra : BitVec 5) (imm : BitVec 16),
    let r := ra.toNat
    let a := (s.ctxOf c).val r 2
    let b := (imm.signExtend 32).toNat
    let does (i : CtxRef → ZFmt → Instr) (m : BitVec 6) (reads dst : Bool) (v : Nat) (fl : Nzcv → Nzcv → Prop) : Prop :=
      Gives (i c (.lri m ra false imm)) s c 2 1 ⟨if reads then [(r, 2)] else [], if dst then [(r, 2)] else []⟩ (if dst then regsOf r 2 else [])
        (fun t => dst = true → (t.ctxOf c).val r 2 = v) fl
    does .zAddp 0x07 true true (sumOf 32 a b 0) (fun _ => SumFlags 32 a b 0) ∧
    does .zCmpp 0x08 true false 0 (fun _ => DiffFlags 32 a b 0) ∧
    does .zMovp 0x09 false true b (fun old new => new = old) ∧
    does .zMovh 0x0A false true (imm.toNat * 65536) (fun old new => new = old))

/-- R301, R305, R309: INC, DEC, CLR, NOP, LEA, the shifts by an immediate distance of 1 to 16, and SHR in its five operations on words and
pairs with every distance. -/
def Obligations.CountsAndShifts : Prop :=
  (∀ (s : State) (c : CtxRef) (ra : BitVec 4),
    let r := ra.toNat
    let a := (s.ctxOf c).val r 1
    Gives (.zInc c (.sn 0 5 ra)) s c 1 1 ⟨[(r, 1)], [(r, 1)]⟩ [r] (fun t => (t.ctxOf c).val r 1 = sumOf 16 a 1 0) (fun _ => SumFlags 16 a 1 0) ∧
    Gives (.zDec c (.sn 0 6 ra)) s c 1 1 ⟨[(r, 1)], [(r, 1)]⟩ [r] (fun t => (t.ctxOf c).val r 1 = diffOf 16 a 1 0) (fun _ => DiffFlags 16 a 1 0) ∧
    Gives (.zClr c (.sn 0 7 ra)) s c 1 1 ⟨[], [(r, 1)]⟩ [r] (fun t => (t.ctxOf c).val r 1 = 0) (fun old new => new = old) ∧
    ∀ n : BitVec 4,
      let d := n.toNat + 1
      let v := BitVec.ofNat 16 a
      let does (i : Instr) (x : BitVec 16) (out : Bool) : Prop :=
        Gives i s c 1 1 ⟨[(r, 1)], [(r, 1)]⟩ [r] (fun t => (t.ctxOf c).val r 1 = x.toNat) fun _ new =>
          SignZero 16 x.toNat new ∧ new.c = out ∧ new.v = false
      does (.zLsli c (.sn 1 n ra)) (v <<< d) (v.getLsbD (16 - d)) ∧
      does (.zLsri c (.sn 2 n ra)) (v >>> d) (v.getLsbD (d - 1)) ∧
      does (.zAsri c (.sn 3 n ra)) (v.sshiftRight d) (v.getLsbD (d - 1)) ∧
      does (.zRori c (.sn 4 n ra)) (v.rotateRight d) ((v.rotateRight d).getLsbD 15)) ∧
  (∀ (s : State) (c : CtxRef), s.runs c 1 false ⟨[], []⟩ = true →
    Answers (exec (.zNop c (.sn 0 0 0)) s) fun t => (t.ctxOf c).flags = (s.ctxOf c).flags ∧ s.Retires t c 1 1 []) ∧
  (∀ (s : State) (c : CtxRef) (ra rb : BitVec 5) (disp : BitVec 11),
    Gives (.zLea c (.lm 0x08 ra false rb disp)) s c 2 1 ⟨[(rb.toNat, 1)], [(ra.toNat, 1)]⟩ [ra.toNat]
      (fun t => (t.ctxOf c).gr ra.toNat = (s.ctxOf c).gr rb.toNat + disp.signExtend 16) fun old new => new = old) ∧
  (∀ (s : State) (c : CtxRef) (ra rb rc : BitVec 5) (n : Nat), n = 1 ∨ n = 2 →
    let w := 16 * n
    let v := BitVec.ofNat w ((s.ctxOf c).val rb.toNat n)
    let d := ((s.ctxOf c).gr rc.toNat).toNat % 32
    let does (op : Nat) (x : BitVec w) (out : Bool) : Prop :=
      Gives (.zShr c (.lrrr 0x0B ra false rb rc (BitVec.ofNat 6 (8 * (n - 1) + op)))) s c 2 1 ⟨[(rb.toNat, n), (rc.toNat, 1)], [(ra.toNat, n)]⟩
        (regsOf ra.toNat n) (fun t => (t.ctxOf c).val ra.toNat n = x.toNat) fun old new =>
        SignZero w x.toNat new ∧ new.c = (if d = 0 then old.c else out) ∧ new.v = false
    does 0 (v <<< d) (decide (d ≤ w) && v.getLsbD (w - d)) ∧
    does 1 (v >>> d) (v.getLsbD (d - 1)) ∧
    does 2 (v.sshiftRight d) (if d ≤ w then v.getLsbD (d - 1) else v.msb) ∧
    does 3 (v.rotateLeft d) ((v.rotateLeft d).getLsbD 0) ∧
    does 4 (v.rotateRight d) ((v.rotateRight d).getLsbD (w - 1)))

/-- R308, R314: fields taken from and put into words and pairs, with zeros or the sign above; parity, bit reversal, leading zeros, and the fold of
a word or a byte into a CRC state. -/
def Obligations.FieldsAndBits : Prop :=
  (∀ (s : State) (c : CtxRef) (ra rb p : BitVec 5) (fn : BitVec 6) (n : Nat), (n = 1 ∨ n = 2) → fn.toNat < 32 →
    p.toNat + (fn.toNat + 1) ≤ 16 * n →
    let w := 16 * n
    let pos := p.toNat
    let wid := fn.toNat + 1
    let b := BitVec.ofNat w ((s.ctxOf c).val rb.toNat n)
    let old := BitVec.ofNat w ((s.ctxOf c).val ra.toNat n)
    let does (i : CtxRef → ZFmt → Instr) (m : BitVec 6) (ins : Bool) (x : BitVec w) : Prop :=
      Gives (i c (.lrrr m ra false rb p fn)) s c 2 1 ⟨(rb.toNat, n) :: (if ins then [(ra.toNat, n)] else []), [(ra.toNat, n)]⟩ (regsOf ra.toNat n)
        (fun t => (t.ctxOf c).val ra.toNat n = x.toNat) (LogicFlags w x.toNat)
    let ext := (b.extractLsb' pos wid).setWidth w
    let exts := (b.extractLsb' pos wid).signExtend w
    let mask := (BitVec.allOnes wid).setWidth w <<< pos
    let ins := (old &&& ~~~ mask) ||| ((b <<< pos) &&& mask)
    (n = 1 → does .zExt 0x00 false ext ∧ does .zExts 0x01 false exts ∧ does .zIns 0x02 true ins) ∧
    (n = 2 → does .zExtp 0x03 false ext ∧ does .zExtsp 0x04 false exts ∧ does .zInsp 0x05 true ins)) ∧
  (∀ (s : State) (c : CtxRef) (ra rb : BitVec 5) (n : Nat), (n = 1 ∨ n = 2) →
    let w := 16 * n
    let b := (s.ctxOf c).val rb.toNat n
    let form (m : BitVec 6) : ZFmt := .lrrr m ra false rb 0 (BitVec.ofNat 6 (n - 1))
    Yields (.zParw c (form 0x09)) s c 2 n ⟨[(rb.toNat, n)], [(ra.toNat, 1)]⟩ [ra.toNat] (fun t =>
      let r := (t.ctxOf c).val ra.toNat 1
      r = ((List.range w).filter b.testBit).length % 2 ∧ LogicFlags 16 r (s.ctxOf c).flags (t.ctxOf c).flags) ∧
    Yields (.zBrev c (form 0x0A)) s c 2 1 ⟨[(rb.toNat, n)], [(ra.toNat, n)]⟩ (regsOf ra.toNat n) (fun t =>
      let r := (t.ctxOf c).val ra.toNat n
      (∀ i, i < w → r.testBit i = b.testBit (w - 1 - i)) ∧ LogicFlags w r (s.ctxOf c).flags (t.ctxOf c).flags) ∧
    Yields (.zClz c (form 0x0C)) s c 2 (3 - n) ⟨[(rb.toNat, n)], [(ra.toNat, 1)]⟩ [ra.toNat] (fun t =>
      let r := (t.ctxOf c).val ra.toNat 1
      r ≤ w ∧ (∀ i, w - r ≤ i → i < w → b.testBit i = false) ∧ (r < w → b.testBit (w - 1 - r) = true) ∧
      LogicFlags 16 r (s.ctxOf c).flags (t.ctxOf c).flags)) ∧
  (∀ (s : State) (c : CtxRef) (ra rb : BitVec 5) (p : Nat) (one : Bool), p < 8 →
    Gives (.zCrcw c (.lrrr 0x08 ra false rb 0 (BitVec.ofNat 6 (p + 8 * one.toNat)))) s c 2 1 ⟨[(rb.toNat, 1), (ra.toNat, 2)], [(ra.toNat, 2)]⟩
      (regsOf ra.toNat 2)
      (fun t => (t.ctxOf c).val ra.toNat 2 = foldWord p ((s.ctxOf c).val ra.toNat 2) ((s.ctxOf c).val rb.toNat 1) one) fun old new => new = old)

/-- R268, R300, R305: loads from bay memory of a word, a pair and a quad, in the cycles of R204; the pair and the quad from the word at the
lowest offset up, the first register most significant, at the address formed before the load; an aligned pair of the control window at levels S
and M. -/
def Obligations.Loads : Prop :=
  ∀ (s : State) (c : CtxRef) (ra rb n : Nat) (d : Half),
    let x := s.ctxOf c
    let bank := x.bk.toNat
    let off := (x.gr rb + d).toNat
    let cost (i : Nat) : Nat := wordCost bank (off + i)
    let does (i : CtxRef → ZFmt → Instr) (f : ZFmt) : Prop :=
      s.runs c (fmtLen f) false ⟨[(rb, 1)], [(ra, n)]⟩ = true →
      (bank ≤ 7 → (n = 4 → ra % 4 = 0 ∧ off % 4 = 0) → s.clean c bank off n →
        Answers (exec (i c f) s) fun t => (t.ctxOf c).val ra n = s.memVal c bank off n ∧ (t.ctxOf c).flags = x.flags ∧
          s.Retires t c (fmtLen f) (if n = 1 then 1 + cost 0 else if n = 2 ∧ off % 2 = 1 then 1 + cost 0 + cost 1 else
            if n = 2 then 1 + cost 0 else 1 + 2 * cost 0) (regsOf ra n)) ∧
      (0xC0 ≤ bank → bank ≤ 0xDF → n = 2 → off % 2 = 0 → x.priv ≠ 0 → x.lock = false →
        Answers (exec (i c f) s) fun t => (t.ctxOf c).val ra 2 =
          ((s.fixed c (fmtLen f) ⟨[(rb, 1)], [(ra, n)]⟩).blk.winRead (.engine (bayOf c)) (0x20000 * (bank - 0xC0) + 2 * off) 32).2.toNat)
    (∀ (a b d4 : BitVec 4), n = 1 → ra = a.toNat → rb = b.toNat → d = d4.setWidth 16 → does .zLd (.sm a b d4)) ∧
    (∀ (a b : BitVec 5) (d11 : BitVec 11), ra = a.toNat → rb = b.toNat → d = d11.signExtend 16 →
      (n = 1 → does .zLdw (.lm 0x00 a false b d11)) ∧ (n = 2 → does .zLdp (.lm 0x02 a false b d11)) ∧
      (n = 4 → does .zLdq (.lm 0x04 a false b d11)))

/-- R268, R300, R305, R326: stores to bay memory of a word, a pair and a quad write those words and no others, and break other contexts'
reservations on them. -/
def Obligations.Stores : Prop :=
  ∀ (s : State) (c : CtxRef) (ra rb n : Nat) (d : Half),
    let x := s.ctxOf c
    let bank := x.bk.toNat
    let off := (x.gr rb + d).toNat
    let cost (i : Nat) : Nat := wordCost bank (off + i)
    let does (i : CtxRef → ZFmt → Instr) (f : ZFmt) : Prop :=
      s.runs c (fmtLen f) false ⟨[(rb, 1), (ra, n)], []⟩ = true → bank ≤ 7 → (n = 4 → ra % 4 = 0 ∧ off % 4 = 0) →
        Answers (exec (i c f) s) fun t =>
          s.Ends t c (if n = 1 then 1 + cost 0 else if n = 2 ∧ off % 2 = 1 then 1 + cost 0 + cost 1 else
            if n = 2 then 1 + cost 0 else 1 + 2 * cost 0) { x with pc := x.pc + BitVec.ofNat 16 (fmtLen f) } ∧
          s.Stores t c (valWordsAt bank off n (x.val ra n))
    (∀ (a b d4 : BitVec 4), n = 1 → ra = a.toNat → rb = b.toNat → d = d4.setWidth 16 → does .zSt (.sm a b d4)) ∧
    (∀ (a b : BitVec 5) (d11 : BitVec 11), ra = a.toNat → rb = b.toNat → d = d11.signExtend 16 →
      (n = 1 → does .zStw (.lm 0x01 a false b d11)) ∧ (n = 2 → does .zStp (.lm 0x03 a false b d11)) ∧
      (n = 4 → does .zStq (.lm 0x05 a false b d11)))

/-- R322, R324, R325: LDLK takes LOCK and a reservation on its word; STUL stores only where the context holds LOCK with the reservation intact,
says so in Z, and releases LOCK in both cases; UNLK releases it without storing. -/
def Obligations.LockedSequences : Prop :=
  ∀ (s : State) (c : CtxRef) (ra rb : BitVec 5) (d : BitVec 11),
    let x := s.ctxOf c
    let bank := x.bk.toNat
    let off := (x.gr rb.toNat + d.signExtend 16).toNat
    let word := bayWord bank off
    (s.runs c 2 false ⟨[(rb.toNat, 1)], [(ra.toNat, 1)]⟩ = true → bank ≤ 7 → x.lock = false → s.clean c bank off 1 →
      Answers (exec (.zLdlk c (.lm 0x06 ra false rb d)) s) fun t =>
        s.Ends t c (1 + wordCost bank off) { x.gw ra.toNat (s.peek (ctxKey c / 64) word) with
          lock := true, resv := some word, lockPc := x.pc, lockLen := 0, pc := x.pc + 2 } ∧ s.keepsMem t) ∧
    (s.runs c 2 false ⟨[(rb.toNat, 1), (ra.toNat, 1)], []⟩ = true → bank ≤ 7 →
      let held := x.lock && x.resv.isSome
      Answers (exec (.zStul c (.lm 0x07 ra false rb d)) s) fun t =>
        s.Ends t c (1 + wordCost bank off) { x.unlock with
          sw := (x.sw &&& 0xFFFB) ||| (if held then 4 else 0), pc := x.pc + 2 } ∧
        s.Stores t c (if held then [(word, x.gr ra.toNat)] else [])) ∧
    (s.runs c 1 false ⟨[], []⟩ = true → x.lock = true →
      Answers (exec (.zUnlk c (.sn 0 4 0)) s) fun t => s.Ends t c 1 { x.unlock with pc := x.pc + 1 } ∧ s.keepsMem t)

/-- R272, R289, R300, R307: branches, jumps and calls go to their target when their condition holds and to the next instruction when not, a far
target in a bank above 0x06 being marked for the fault of its fetch (R286); a call pushes the return pair and RET pops it, on the stack of the context's level. -/
def Obligations.ControlFlow : Prop :=
  ∀ (s : State) (c : CtxRef),
    let x := s.ctxOf c
    let l := stkReg x.priv
    let sp := x.sr (l 1)
    let odd := sp.toNat % 2 = 1
    (∀ (cond : BitVec 4) (disp : BitVec 8), cond ≠ 15 → s.runs c 1 false ⟨[], []⟩ = true →
      Answers (exec (.zBcc c (.sb cond disp)) s) fun t => s.keepsMem t ∧
        if condTrue cond.toNat x.flags then s.Ends t c 2 { x with pc := x.pc + disp.signExtend 16 }
        else s.Ends t c 1 { x with pc := x.pc + 1 }) ∧
    (∀ (far call : Bool) (cls tb : BitVec 3) (m : BitVec 4) (off : Half) (taken : Bool), (far = false → tb = 0) →
      ljTaken x cls.toNat m.toNat = some taken →
      let f : ZFmt := .lj ((if call then 32 else 0) ||| (if far then 16 else 0) ||| m.setWidth 6) cls tb off
      let y := { x with cb := if far then BitVec.ofNat 8 tb.toNat else x.cb, pc := off, farBad := far && decide (6 < tb.toNat) }
      s.runs c 2 false ⟨if cls = 3 then [(26, 1)] else [], []⟩ = true →
      (call = false → Answers (exec (.zJmp c f) s) fun t => s.keepsMem t ∧
        if taken then s.Ends t c 2 y else s.Ends t c 1 { x with pc := x.pc + 2 }) ∧
      (call = true → x.lock = false → (taken = true → x.stackValid x.priv = true ∧ x.pushRoom x.priv 2 = true) →
        Answers (exec (.zCall c f) s) fun t =>
          if taken then
            s.Ends t c (if odd then 4 else 3) (y.setSr (l 1) (sp - 2)) ∧
            s.Stores t c [(x.stackWord x.priv (sp - 2).toNat, x.pc + 2), (x.stackWord x.priv ((sp - 2).toNat + 1), x.cb.setWidth 16)]
          else s.Ends t c 1 { x with pc := x.pc + 2 } ∧ s.keepsMem t)) ∧
    (s.runs c 1 false ⟨[], []⟩ = true → x.lock = false → x.stackValid x.priv = true → x.popRoom x.priv 2 = true →
      s.clean c (x.sr (l 0)).toNat sp.toNat 2 → (s.peek (ctxKey c / 64) (x.stackWord x.priv (sp.toNat + 1))).toNat ≤ 6 →
      Answers (exec (.zRet c (.sn 0 2 0)) s) fun t => s.keepsMem t ∧
        s.Ends t c (if odd then 4 else 3) ({ x with
          pc := s.peek (ctxKey c / 64) (x.stackWord x.priv sp.toNat),
          cb := (s.peek (ctxKey c / 64) (x.stackWord x.priv (sp.toNat + 1))).setWidth 8 }.setSr (l 1) (sp + 2)))

/-- R273 to R275, R280, R312: every system register read and written as its number and the level of the context allow, the flags of a result of the
same cycle staying in CPF and the reserved bits of a window descriptor zero; SETBK, SRM, EI and DI. -/
def Obligations.SystemRegisters : Prop :=
  ∀ (s : State) (c : CtxRef),
    let x := s.ctxOf c
    let p := x.priv
    let next (y : Ctx) : Ctx := { y with pc := x.pc + 2 }
    (∀ (ra : BitVec 5) (n : BitVec 16), n.toNat < 256 → s.runs c 2 false ⟨[], [(ra.toNat, 1)]⟩ = true →
      let held := (8 ≤ n.toNat ∧ n.toNat ≤ 0x13) ∨ n = 0x18 ∨ n = 0x19 ∨ (0x20 ≤ n.toNat ∧ n.toNat ≤ 0x3F)
      Answers (exec (.zMfs c (.lri 0 ra false n)) s) fun t =>
        (t.ctxOf c).flags = x.flags ∧ s.Retires t c 2 1 [ra.toNat] ∧
        (n = 0 → (t.ctxOf c).gr ra.toNat = x.sw) ∧
        (n = 1 → (t.ctxOf c).gr ra.toNat = x.cb ++ x.bk) ∧
        (n = 2 → (t.ctxOf c).gr ra.toNat = x.ceil.setWidth 16) ∧
        (n = 3 → (t.ctxOf c).gr ra.toNat = BitVec.ofNat 16 (8 * c.eng.val + c.ctx.val)) ∧
        (n = 0x1A → (t.ctxOf c).gr ra.toNat = 0x000F ||| (s.blk.straps.setWidth 16 <<< 4)) ∧
        (held → (t.ctxOf c).gr ra.toNat = x.sr n.toNat) ∧
        (¬ held → n ≠ 0x1A → 4 ≤ n.toNat → (t.ctxOf c).gr ra.toNat = 0)) ∧
    (∀ (ra : BitVec 5) (n : BitVec 16), s.runs c 2 false ⟨[(ra.toNat, 1)], []⟩ = true → n.toNat < 256 →
      x.lock = false ∨ n.toNat < 8 ∨ 0x13 < n.toNat →
      let v := x.gr ra.toNat
      let gives (y : Ctx) : Prop := Answers (exec (.zMts c (.lri 1 ra false n)) s) fun t => s.Ends t c 1 (next y) ∧ s.keepsMem t
      let faults (cause : Nat) : Prop :=
        exec (.zMts c (.lri 1 ra false n)) s = .next ((s.fixed c 2 ⟨[(ra.toNat, 1)], []⟩).fault (ctxKey c) ⟨cause, 0, none⟩)
      (n = 0 → p ≠ 0 ∨ v.getLsbD 15 = x.sw.getLsbD 15 → gives { x with sw := (x.sw &&& 0x7000) ||| (v &&& 0x8C0F) }) ∧
      (n = 1 → gives { x with bk := v.setWidth 8 }) ∧
      (n = 2 ∨ n = 3 ∨ n = 0x19 ∨ n = 0x1A → gives x) ∧
      (n = 9 → p = 0 → if (x.sr 10).toNat ≤ v.toNat ∧ v.toNat ≤ (x.sr 11).toNat then gives (x.setSr 9 v) else faults 0x0A) ∧
      ((n = 8 ∨ n = 10 ∨ n = 11 ∨ 0x20 ≤ n.toNat ∧ n.toNat ≤ 0x3F) → p = 0 → faults 0x02) ∧
      ((8 ≤ n.toNat ∧ n.toNat ≤ 11 ∨ 0x20 ≤ n.toNat ∧ n.toNat ≤ 0x3F) → p ≠ 0 →
        gives (x.setSr n.toNat (if 0x20 ≤ n.toNat ∧ n.toNat % 4 = 3 then v &&& 0xF800 else v))) ∧
      (0x0C ≤ n.toNat → n.toNat ≤ 0x13 → if p = 2 then gives (x.setSr n.toNat v) else faults 0x02) ∧
      (n = 0x18 → gives (x.setSr 0x18 ((v &&& 0xF800) ||| (if x.cpfHw.1 = s.blk.now then x.cpfHw.2.setWidth 16 <<< 11 else 0) |||
        (x.sr 0x18 &&& 0x001F)))) ∧
      ((4 ≤ n.toNat ∧ n.toNat ≤ 7) ∨ (0x14 ≤ n.toNat ∧ n.toNat ≤ 0x17) ∨ (0x1B ≤ n.toNat ∧ n.toNat ≤ 0x1F) ∨ 0x40 ≤ n.toNat → faults 0x01)) ∧
    (s.runs c 2 false ⟨[], []⟩ = true →
      let does (i : Instr) (y : Ctx) : Prop := Answers (exec i s) fun t => s.Ends t c 1 (next y) ∧ s.keepsMem t
      (∀ b : Byte, does (.zSetbk c (.lri 2 0 false (b.setWidth 16))) { x with bk := b }) ∧
      (∀ m : BitVec 2, does (.zSrm c (.lri 3 0 false (m.setWidth 16))) { x with sw := (x.sw &&& 0xF3FF) ||| (m.setWidth 16 <<< 10) }) ∧
      (p ≠ 0 → does (.zEi c (.lri 4 0 false 0)) { x with sw := x.sw ||| 0x8000 }) ∧
      (p ≠ 0 → does (.zDi c (.lri 5 0 false 0)) { x with sw := x.sw &&& 0x7FFF }) ∧
      (p = 0 → exec (.zEi c (.lri 4 0 false 0)) s = .next ((s.fixed c 2 ⟨[], []⟩).fault (ctxKey c) ⟨0x02, 0, none⟩) ∧
        exec (.zDi c (.lri 5 0 false 0)) s = .next ((s.fixed c 2 ⟨[], []⟩).fault (ctxKey c) ⟨0x02, 0, none⟩)))

/-- R301, R436: YIELD and END retire and give up the engine: the context is READY, or IDLE; a supervisor that yields with no other READY context of
its engine sets the idle flag, and END clears it. -/
def Obligations.GivingUpTheEngine : Prop :=
  ∀ (s : State) (c : CtxRef), s.runs c 1 false ⟨[], []⟩ = true →
    let x := s.ctxOf c
    let k := ctxKey c
    let sup := k = s.blk.supervisor (k / 64)
    let alone := ∀ j, j / 8 = k / 8 → j ≠ k → (s.blk.ctx j).st ≠ .ready
    (x.lock = false → Answers (exec (.zYield c (.sn 0 1 0)) s) fun t =>
      s.Ends t c 1 { x with pc := x.pc + 1 } ∧ s.keepsMem t ∧ ((t.ctxOf c).st = .ready ∨ (t.ctxOf c).st = .run) ∧
      (sup → alone → (pget t.blk.idle (k / 64)).isSome)) ∧
    (x.lock = false → Answers (exec (.zEnd c (.sn 0 3 0)) s) fun t =>
      s.Ends t c 1 { x with pc := x.pc + 1 } ∧ s.keepsMem t ∧ (t.ctxOf c).st = .idle ∧ (sup → pget t.blk.idle (k / 64) = none))

/-- R270, R331, R335, R336, R337: TRAP and a fault enter their handler: the frame lies on the stack of the level entered, the state is saved in the
shadow bank, and control is at the vector of the bay. An encoding that is illegal raises ILLEGAL where no interrupt of the engine is served (R333). -/
def Obligations.Entries : Prop :=
  ∀ (s : State) (c : CtxRef),
    let x := s.ctxOf c
    let k := ctxKey c
    let fits (y : Ctx) (l : Nat) : Prop := y.stackValid l = true ∧ y.pushRoom l 8 = true
    let cyc (l : Nat) : Nat := if (x.sr (stkReg l 1)).toNat % 2 = 1 then 16 else 12
    (∀ n : Byte, s.runs c 2 false ⟨[], []⟩ = true → x.lock = false →
      let l := max 1 x.priv
      let y := { x with pc := x.pc + 2, attempt := 0 }
      fits x l → Answers (exec (.zTrap c (.lri 6 0 false (n.setWidth 16))) s) fun t =>
        s.Ends t c (cyc l) (s.blk.entered k y l 2 0x70 n.toNat) ∧ s.Stores t c (entryFrame y l 1 0x70 n.toNat (0, 0))) ∧
    (∀ disp : Byte, s.runs c 1 false ⟨[], []⟩ = true → s.blk.served c.eng.val = none → x.df = false →
      let bad := exec (.zBcc c (.sb 15 disp)) s
      let l := if x.priv = 2 then 2 else 1
      let y := x.unlock
      (x.mayFault → Answers bad fun t => s.FaultTaken t c 0x01 0 (0, 0)) ∧
      (fits x l → fits x 2 → x.isOpen = false → x.fdepth ≠ 0 → Answers bad fun t => ∃ u, t.blk = u.blk.eaEvt k 0x05 ∧ t.mem = u.mem ∧
        t.pending = u.pending ∧ s.Enters u c (cyc 2) { (s.blk.entered k y 2 3 0x32 0x01).deeper y with df := true } ∧
        s.Stores u c (entryFrame y 2 3 0x32 0x01 (0, 0))))

/-- R341: RTE restores PC, CB, BK and SW from the frame at the stack pointer of its level, and from a gate's frame the stack registers that it
saved, from another DF and FDEPTH; an instruction that an entry abandoned goes on with the attempts it had (R214). -/
def Obligations.ReturnFromException : Prop :=
  ∀ (s : State) (c : CtxRef), s.runs c 2 false ⟨[], []⟩ = true →
    let x := s.ctxOf c
    let l := x.priv
    let sp := x.sr (stkReg l 1)
    let w (i : Nat) : Half := s.peek (ctxKey c / 64) (x.stackWord l (sp.toNat + i))
    let gate := (w 3).toNat / 16384 = 2
    x.lock = false → l ≠ 0 → x.stackValid l = true → x.popRoom l 8 = true → s.clean c (x.sr (stkReg l 0)).toNat sp.toNat 8 →
    w 2 &&& 0x03F0 = 0 → (w 2).toNat / 8192 % 4 ≤ x.ceil.toNat → (w 1).toNat / 256 ≤ 6 →
    (if gate then w 3 &&& 0x3C00 = 0 else w 3 &&& 0x3F00 = 0 ∧ w 6 = 0 ∧ w 7 &&& 0xFE00 = 0) →
    let y := { x with pc := w 0, cb := (w 1).extractLsb' 8 8, bk := (w 1).setWidth 8, sw := w 2 }.setSr (stkReg l 1) (sp + 8)
    let back := x.kept.find? fun p => p.1 == y.cb && p.2.1 == y.pc
    Answers (exec (.zRte c (.lri 8 0 false 0)) s) fun t => s.keepsMem t ∧ (∀ p, back = some p → (t.ctxOf c).attempt = p.2.2 ∧
        (t.ctxOf c).pc = w 0 ∧ (t.ctxOf c).sw = w 2 ∧ (t.ctxOf c).kept = x.kept.erase p) ∧
      (back = none → s.Ends t c (if sp.toNat % 2 = 1 then 14 else 10) (if gate then
        (((y.setSr (stkReg l 0) (w 4)).setSr (stkReg l 1) (w 5)).setSr (stkReg l 2) (w 6)).setSr (stkReg l 3) (w 7)
      else { y with df := (w 7).getLsbD 8, fdepth := (w 7).setWidth 8 }))

/-- R342 to R347: a gate whose checks pass. CALL enters its level on the slice of its area with the gate frame pushed; CREATE sets its target up and
makes it READY; CLEAR leaves its target IDLE with its registers zero. -/
def Obligations.Gates : Prop :=
  ∀ (s : State) (c : CtxRef) (ra : BitVec 5) (n : BitVec 16),
    let x := s.ctxOf c
    let k := ctxKey c
    let b := k / 64
    let at_ := s.blk.fld (F.EA_GATE_CFG_BASE b) * 8 + 8 * n.toNat
    let e := gateEntry ((List.range 8).map fun i => s.peek b (at_ + i))
    let f : ZFmt := .lri 7 ra false n
    s.runs c 2 false ⟨[(ra.toNat, 1)], []⟩ = true → x.lock = false → n.toNat < 1024 → n.toNat < s.blk.fld (F.EA_GATE_CFG_COUNT b) →
    at_ + 8 ≤ 0x70000 → (∀ i, i < 8 → pget s.blk.bmErr (bmKey b (at_ + i)) = none) → e.ok = true →
    (∀ i, i ∈ x.places (ra.toNat + 1) e.nargs → s.blk.pendingReg k i = false) → s.blk.gateCheck k x e ra.toNat = none →
    let cyc := 20 + (if e.kind = 2 then 0 else 3 * e.ptrs.length)
    (e.kind = 0 →
      let l := e.level
      let lo := BitVec.ofNat 16 (e.sbase + e.stride * (k % 64))
      let hi := lo + BitVec.ofNat 16 e.stride
      let old (i : Nat) : Half := x.sr (stkReg l i)
      let same := old 0 = BitVec.ofNat 16 e.sbank ∧ old 2 = lo ∧ old 3 = hi
      let sp := if same then old 1 else hi
      let y := if same then x else (((x.setSr (stkReg l 0) (BitVec.ofNat 16 e.sbank)).setSr (stkReg l 1) hi).setSr (stkReg l 2) lo).setSr (stkReg l 3) hi
      y.stackValid l = true → y.pushRoom l 8 = true → Answers (exec (.zCallGate c f) s) fun t =>
        s.Ends t c (cyc + if sp.toNat % 2 = 1 then 4 else 0) { (y.setSr (stkReg l 1) (sp - 8)) with
          sw := (x.sw &&& 0x9FFF) ||| BitVec.ofNat 16 (8192 * l), cb := e.ecb, pc := e.epc, bk := e.ebk } ∧
        s.Stores t c ([x.pc + 2, x.cb ++ x.bk, x.sw, 0x8000 ||| n, old 0, old 1, old 2, old 3].mapIdx
          fun i v => (bayWord e.sbank ((sp - 8).toNat + i), v))) ∧
    ((e.kind = 1 ∨ e.kind = 2) → ∀ tg, x.gateTarget k ra.toNat = some tg →
      let rest (t : State) : Prop :=
        Ctx.alike { t.ctxOf c with gErr := x.gErr, attempt := x.attempt, tripled := x.tripled } { x with pc := x.pc + 2 } ∧
        (∀ j, j ≠ k → j ≠ tg → (t.blk.ctx j).alike (s.blk.ctx j)) ∧ s.blk.near t.blk ∧ s.keepsMem t ∧ t.pending = s.pending ∧
        s.blk.keepsRegs t.blk [F.EA_RETRY_CNT_off b] ∧ max (s.blk.eng c.eng.val).free s.blk.now + cyc ≤ (t.blk.eng c.eng.val).free
      (e.kind = 1 → rising 0 x.sys = true → Answers (exec (.zCreateGate c f) s) fun t => rest t ∧
        let y := t.blk.ctx tg
        (y.st = .ready ∨ y.st = .run) ∧ y.pc = e.epc ∧ y.cb = e.ecb ∧ y.bk = e.ebk ∧ y.sw = 0x8000 ||| BitVec.ofNat 16 (8192 * e.level) ∧
        y.ceil.toNat = e.ceil ∧ y.wclass.toNat = e.wclass ∧ y.fdepth = 0 ∧ y.df = false ∧ y.tripled = false ∧ y.lock = false ∧
        (∀ i, i + 1 < e.nargs → tget (fun _ => 0) y.g i = x.gr (ra.toNat + 2 + i)) ∧
        (∀ i, 0x20 ≤ i → i ≤ 0x3F → y.sr i = x.sr i) ∧
        y.sr (stkReg e.level 0) = BitVec.ofNat 16 e.sbank ∧ y.sr (stkReg e.level 2) = BitVec.ofNat 16 (e.sbase + e.stride * (tg % 64)) ∧
        y.sr (stkReg e.level 1) = y.sr (stkReg e.level 3) ∧ y.sr (stkReg e.level 3) = y.sr (stkReg e.level 2) + BitVec.ofNat 16 e.stride ∧
        (e.level ≠ 0 → ∀ i, i < 4 → y.sr (stkReg 0 i) = 0)) ∧
      (e.kind = 2 → Answers (exec (.zClearGate c f) s) fun t => rest t ∧
        let y := t.blk.ctx tg
        y.st = .idle ∧ (∀ i, tget (fun _ => 0) y.g i = 0) ∧ (∀ i, i ≠ 0x18 → i ≠ 0x19 → y.sr i = 0) ∧ y.cause = 0 ∧ y.fdepth = 0 ∧
        y.df = false ∧ y.tripled = false ∧ y.lock = false ∧ y.resv = none))

/-- R315 to R318, R314: one element of each string instruction, the advance of its counters, and its completion by a match or by exhaustion;
FILLS over any number of words; a count of zero does nothing. -/
def Obligations.Strings : Prop :=
  ∀ (s : State) (c : CtxRef) (f : ZFmt) (ra : BitVec 5) (o : Nat) (stop : Option Nat),
    let x := s.ctxOf c
    let b := ctxKey c / 64
    let sb := (x.gr 27).toNat % 256
    let so := (x.gr 28).toNat
    let db := (x.gr 29).toNat % 256
    let d0 := (x.gr 30).toNat
    let src := swapped o (s.peek b (bayWord sb so))
    let can (more : List (Nat × Nat)) : Prop := x.lock = false ∧ s.runs c (fmtLen f) true ⟨(26, 5) :: more, [(26, 5)]⟩ = true
    let one (more : List (Nat × Nat)) : Prop := can more ∧ x.gr 26 = 1 ∧ stop ≠ some 0
    let from_ : Prop := sb ≤ 7 ∧ s.clean c sb so 1
    let done (y : Ctx) : Ctx := { y with pc := x.pc + BitVec.ofNat 16 (fmtLen f) }
    let flags (y : Ctx) (n z v : Bool) (cy : Bool) : Ctx := y.setFlags ⟨n, z, cy, v⟩
    let none_ (i : Instr) (more : List (Nat × Nat)) (y : Ctx) : Prop :=
      can more → x.gr 26 = 0 → Answers (exec i s) fun t => s.Ends t c 1 (done y) ∧ s.keepsMem t
    (StrForm 0x08 0 0b00000111 ra o f → ra = 0 →
      none_ (.zMovs c f stop) [] x ∧
      (one [] → from_ → db ≤ 7 → Answers (exec (.zMovs c f stop) s) fun t =>
        s.Ends t c (1 + wordCost sb so + wordCost db d0) (done (advanced o true true x)) ∧ s.Stores t c [(bayWord db d0, src)])) ∧
    (StrForm 0x09 1 0b00000110 ra o f →
      none_ (.zFills c f stop) [(ra.toNat, 1)] x ∧
      (can [(ra.toNat, 1)] → stop = none → db ≤ 7 → o.testBit 1 = false → Answers (exec (.zFills c f stop) s) fun t =>
        s.Stores t c ((List.range (x.gr 26).toNat).map fun i => (bayWord db (d0 + i), swapped o (if ra = 26 then x.gr 26 - BitVec.ofNat 16 i else
          if ra = 30 then x.gr 30 + BitVec.ofNat 16 i else x.gr ra.toNat))) ∧
        (t.ctxOf c).gr 26 = 0 ∧ (t.ctxOf c).gr 30 = x.gr 30 + x.gr 26 ∧ (t.ctxOf c).sw = x.sw ∧
        (∀ i, i ≠ x.gi 26 → i ≠ x.gi 30 → tget (fun _ => 0) (t.ctxOf c).g i = tget (fun _ => 0) x.g i) ∧
        (t.ctxOf c).pc = x.pc + BitVec.ofNat 16 (fmtLen f) ∧ t.pending = s.pending ∧
        max (s.blk.eng c.eng.val).free s.blk.now + 1 + ((List.range (x.gr 26).toNat).map fun i => wordCost db (d0 + i)).sum ≤
          (t.blk.eng c.eng.val).free)) ∧
    (StrForm 0x0A 2 0b00001111 ra o f → (o.testBit 3 = false → ra = 0) →
      let more := if o.testBit 3 then [(ra.toNat, 1)] else []
      none_ (.zCmps c f stop) more (flags x false true false true) ∧
      (one more → from_ → db ≤ 7 → s.clean c db d0 1 →
        let m := if o.testBit 3 then x.gr ra.toNat else 0xFFFF
        let p := (src &&& m).toNat
        let q := (s.peek b (bayWord db d0) &&& m).toNat
        Answers (exec (.zCmps c f stop) s) fun t => s.keepsMem t ∧
          (p = q → s.Ends t c (1 + wordCost sb so + wordCost db d0) (done (flags (advanced o true true x) false true false true))) ∧
          (p ≠ q → ∃ fl, DiffFlags 16 p q 0 fl ∧ s.Ends t c (1 + wordCost sb so + wordCost db d0) (done (x.setFlags fl))))) ∧
    (StrForm 0x0B 3 0b00011101 ra o f →
      let more := if o.testBit 3 then [(ra.toNat, 2)] else [(ra.toNat, 1)]
      none_ (.zScns c f stop) more (flags x false false false x.flags.c) ∧
      (one more → from_ →
        let m := if o.testBit 3 then x.gr (ra.toNat + 1) else 0xFFFF
        let hit := if o.testBit 4 then src &&& m ≠ x.gr ra.toNat &&& m else src &&& m = x.gr ra.toNat &&& m
        Answers (exec (.zScns c f stop) s) fun t => s.keepsMem t ∧
          (hit → s.Ends t c (1 + wordCost sb so) (done (flags x false true false x.flags.c))) ∧
          (¬ hit → s.Ends t c (1 + wordCost sb so) (done (flags (advanced o true false x) false false false x.flags.c))))) ∧
    ((StrForm 0x0C 8 0b11100101 ra o f ∨ (o % 32 = 0 ∧ o < 256 ∧ ra.toNat < 16 ∧ f = .sn 6 (BitVec.ofNat 4 (o / 32)) (BitVec.ofNat 4 ra.toNat))) →
      (∀ r, f ≠ .sn 5 8 r) →
      none_ (.zCrcs c f stop) [(ra.toNat, 2)] x ∧
      (one [(ra.toNat, 2)] → from_ →
        let y := advanced o true false (x.put ra.toNat 2 (foldWord (o / 32) (x.val ra.toNat 2) src.toNat false))
        y.gr 26 = 0 → Answers (exec (.zCrcs c f stop) s) fun t => s.keepsMem t ∧ s.Ends t c (1 + wordCost sb so) (done y)))

/-- R203, R311, R388 to R390, R400: a coprocessor instruction reads its operands, enters the port and retires in one cycle; its result is due after
its unit's latency from the cycle in which the unit is free, where no operation that the unit takes after it has entered before it; a socket's is not
due at a known cycle. -/
def Sys2Proof.Claims.CoprocessorDispatch : Prop :=
  ∀ (s : State) (c : CtxRef) (ra rb rc : BitVec 5),
    let x := s.ctxOf c
    let k := ctxKey c
    let b := k / 64
    let at_ := max (s.blk.eng c.eng.val).free s.blk.now
    let quadOk (r : BitVec 5) (n : Nat) : Prop := n = 4 → r.toNat % 4 = 0
    let does (i : Instr) (unit op nd na nb : Nat) (begins : Nat → Option Nat → Prop) : Prop :=
      s.runs c 2 false ⟨[(rb.toNat, na), (rc.toNat, nb)], [(ra.toNat, nd)]⟩ = true → x.lock = false → s.blk.portUse c.eng.val < 4 →
      quadOk ra nd → quadOk rb na → quadOk rc nb → (na = 0 → rb = 0) → (nb = 0 → rc = 0) →
      Answers (exec i s) fun t => ∃ start d, begins start d ∧ s.keepsMem t ∧ t.blk.opNo = s.blk.opNo + 1 ∧
        t.blk.cops = pset s.blk.cops s.blk.opNo ⟨k, unit, op, x.places ra.toNat nd, BitVec.ofNat 64 (x.val rb.toNat na),
          BitVec.ofNat 64 (x.val rc.toNat nb), start, d, none⟩ ∧
        s.Ends { t with blk := { t.blk with cops := s.blk.cops, fu := s.blk.fu, opNo := s.blk.opNo } } c 1 { x with pc := x.pc + 2 }
    (∀ r, r ∈ copRows → ∀ md, md < 4 → (r.any = false → md = 0) →
      let op := 64 * md + r.fn
      let fu := 16 * b + (unitOf r.unit r.fn).1
      let busy (y : FuUse) : Prop := y ∈ s.blk.fu ∧ y.fu = fu ∧ s.blk.now < y.free
      (∀ y, busy y → y.at_ < at_ ∨ (y.at_ = at_ ∧ y.slot ≤ s.blk.slotOf c.eng.val)) →
      does (r.ins c (.lcp (BitVec.ofNat 3 r.unit) (BitVec.ofNat 8 op) ra false rb rc false)) r.unit op r.nd r.na r.nb fun start d =>
        at_ ≤ start ∧ (∀ y, busy y → y.free ≤ start) ∧ (start = at_ ∨ ∃ y, busy y ∧ y.free = start) ∧
        ∃ l, Latency r.unit r.fn (x.val rb.toNat r.na) (x.val rc.toNat r.nb) l ∧ d = some (start + l)) ∧
    (∀ (unit : BitVec 3) (op : BitVec 8), 4 ≤ unit.toNat → s.blk.straps.getLsbD (unit.toNat - 4) = true →
      let words (n : Nat) : Nat := if n = 3 then 0 else 2 ^ n
      does (.zSocketOp c (.lcp unit op ra false rb rc false)) unit.toNat op.toNat (words (op.toNat / 64)) (words (op.toNat / 16 % 4))
        (words (op.toNat / 16 % 4)) fun start d => start = at_ ∧ d = none)

/-- R196, R388, R391 to R393, R396 to R398, R401: a result is written in its cycle, products and quotients exact; a context that cannot take it finds
it held; a socket that has not answered at the end of a cycle 4096 cycles on gives zero with IV and raises ERR_CODE 0x07. -/
def Sys2Proof.Claims.CoprocessorResults : Prop :=
  ∀ (s : State) (dt id : Nat) (ans : BitVec 64) (fl : BitVec 5) (par : Bool) (op : CopOp), op.held = none → op.dst.Nodup → (∀ i, i ∈ op.dst → i < 64) → op.dst.length ≤ 4 →
    let may (u : State) : Prop := u.blk.holds op.ctx = false
    let same (u t : State) : Prop := t.mem = u.mem
    (∀ due, op.unit < 4 → op.due = some due →
      let r := copMeans op.unit op.op op.a.toNat op.b.toNat
      (∃ row, row ∈ copRows ∧ row.unit = op.unit ∧ row.fn = op.op % 32 ∧ row.nd = op.dst.length ∧ op.a.toNat < 2 ^ (16 * row.na) ∧
        op.b.toNat < 2 ^ (16 * row.nb)) →
      Happens (.coprocessorResult dt id ans fl par) s dt fun u t => pget u.blk.cops id = some op → due ≤ u.blk.now →
        same u t ∧ (may u → u.blk.Result t.blk id op r.1 (r.2.getD 0) r.2.isSome) ∧
        (¬ may u → ∃ iv, t.blk = { u.blk with
          cops := pset u.blk.cops id { op with held := some (BitVec.ofNat 64 r.1, BitVec.ofNat 5 (r.2.getD 0), r.2.isSome, iv, par) } })) ∧
    (4 ≤ op.unit → op.due = none →
      (Happens (.coprocessorResult dt id ans fl par) s dt fun u t => pget u.blk.cops id = some op → op.start ≤ u.blk.now →
        u.blk.now ≤ op.start + 4096 →
        same u t ∧ (may u → u.blk.Result t.blk id op ans.toNat fl.toNat true) ∧
        (¬ may u → t.blk = { u.blk with cops := pset u.blk.cops id { op with held := some (ans, fl, true, false, par) } })) ∧
      (Happens (.socketTimeout dt id) s dt fun u t => t = { u with blk := u.blk.atDusk (.socket id) }) ∧
      (∀ u : Blk, pget u.cops id = some op → op.start + 4096 ≤ u.now → u.holds op.ctx = false →
        (u.eaEvt op.ctx 0x07).Result (u.duskOne (.socket id)) id op 0 16 true))

/-- R395 to R398 in the tables' rows: bit patterns of results with their flags, in round to nearest even. -/
def Sys2Proof.Claims.FloatingPointTables : Prop :=
  let s := 1; let l := 0x7F7FFFFF; let inf := 0x7F800000; let neg := 0x80000000; let dn := 0x7FC00000; let one := 0x3F800000
  let q (p : Nat) := 0x7FC00000 + p
  let n (p : Nat) := 0x7F800000 + p
  let rows : List (Nat × Nat × (Nat × Nat) × (Nat × Nat) × (Nat × Nat) × (Nat × Nat)) :=
    [(s, s, (2, 0), (0, 0), (0, 3), (one, 0)), (l, l, (inf, 5), (0, 0), (inf, 5), (one, 0)),
     (l, s, (l, 1), (l, 1), (0x34FFFFFF, 0), (inf, 5)), (s, l, (l, 1), (neg + l, 1), (0x34FFFFFF, 0), (0, 3)),
     (s, 0, (s, 0), (s, 0), (0, 0), (inf, 8)), (l, 0, (l, 0), (l, 0), (0, 0), (inf, 8)), (0, s, (s, 0), (neg + s, 0), (0, 0), (0, 0)),
     (0, 0, (0, 0), (0, 0), (0, 0), (dn, 16)), (neg, 0, (0, 0), (neg, 0), (neg, 0), (dn, 16)),
     (l, inf, (inf, 0), (neg + inf, 0), (inf, 0), (0, 0)), (inf, l, (inf, 0), (inf, 0), (inf, 0), (inf, 0)),
     (inf, inf, (inf, 0), (dn, 16), (inf, 0), (dn, 16)), (inf, 0, (inf, 0), (inf, 0), (dn, 16), (inf, 0)),
     (0, inf, (inf, 0), (neg + inf, 0), (dn, 16), (0, 0)), (q 1, l, (q 1, 0), (q 1, 0), (q 1, 0), (q 1, 0)),
     (l, q 2, (q 2, 0), (q 2, 0), (q 2, 0), (q 2, 0)), (q 1, q 2, (q 1, 0), (q 1, 0), (q 1, 0), (q 1, 0)),
     (n 1, q 2, (q 1, 16), (q 1, 16), (q 1, 16), (q 1, 16)), (l, n 5, (q 5, 16), (q 5, 16), (q 5, 16), (q 5, 16)),
     (q 1, n 5, (q 1, 16), (q 1, 16), (q 1, 16), (q 1, 16))]
  (∀ r, r ∈ rows → f32.add 0 r.1 r.2.1 = r.2.2.1 ∧ f32.sub 0 r.1 r.2.1 = r.2.2.2.1 ∧ f32.mul 0 r.1 r.2.1 = r.2.2.2.2.1 ∧
    f32.div 0 r.1 r.2.1 = r.2.2.2.2.2) ∧
  (∀ r, r ∈ [(s, s, (0, 0), s, s), (l, s, (2, 0), s, l), (s, l, (1, 0), s, l), (neg, 0, (0, 0), neg, 0), (0, neg, (0, 0), neg, 0),
      (l, inf, (1, 0), l, inf), (neg + inf, neg + l, (1, 0), neg + inf, neg + l), (q 1, l, (3, 0), l, l), (l, n 5, (3, 16), l, l),
      (q 1, q 2, (3, 0), q 1, q 1), (n 1, q 2, (3, 16), q 1, q 1)] →
    f32.cmp r.1 r.2.1 = r.2.2.1 ∧ f32.minMax false r.1 r.2.1 = (r.2.2.2.1, r.2.2.1.2) ∧ f32.minMax true r.1 r.2.1 = (r.2.2.2.2, r.2.2.1.2)) ∧
  convert f32 f64 0 s = (0x36A0000000000000, 0) ∧ convert f32 f64 0 l = (0x47EFFFFFE0000000, 0) ∧ convert f32 f64 0 (n 5) = (0x7FF8000000000005, 16) ∧
  convert f64 f32 0 0x7FEFFFFFFFFFFFFF = (inf, 5) ∧ convert f64 f32 0 1 = (0, 3) ∧ convert f64 f32 0 0x47EFFFFFE0000000 = (l, 0) ∧
  convert f64 f32 0 0x36A0000000000000 = (s, 0) ∧ convert f64 f32 0 0x7FF8000000400001 = (q 1, 0) ∧
  fromInt 0x80000000 = (0xC1E0000000000000, 0) ∧ toInt 0 0x41DFFFFFFFC00000 = (0x7FFFFFFF, 0) ∧ toInt 0 0x41E0000000000000 = (0x7FFFFFFF, 16) ∧
  toInt 0 0xC1E0000000000000 = (0x80000000, 0) ∧ toInt 0 0x4004000000000000 = (2, 1) ∧ toInt 0 0xBFE0000000000000 = (0, 1) ∧
  toInt 0 0x7FEFFFFFFFFFFFFF = (0x7FFFFFFF, 16) ∧ toInt 0 0x7FF8000000000000 = (0x80000000, 16) ∧ toInt 0 1 = (0, 1)

/-- R394, R396: sums, differences, products and quotients of finite data, where finite, are the exact results rounded once in the mode named, and NX
says that rounding changed them. -/
def Sys2Proof.Claims.FloatingPointRounding : Prop :=
  ∀ (f : FFmt) (mode x y : Nat), f = f32 ∨ f = f64 → mode < 4 → f.finite x → f.finite y →
    let one := 2 ^ (-f.qmin).toNat
    let good (r : Nat × Nat) (num : Int) (den : Nat) : Prop :=
      f.finite r.1 → f.Rounded mode num den r.1 ∧ (r.2 % 2 = 1 ↔ f.units r.1 * den ≠ num)
    good (f.add mode x y) (f.units x + f.units y) 1 ∧
    good (f.sub mode x y) (f.units x - f.units y) 1 ∧
    good (f.mul mode x y) (f.units x * f.units y) one ∧
    (f.units y ≠ 0 → good (f.div mode x y) (f.units x * one * (f.units y).sign) (f.units y).natAbs)

/-- R291 to R294, R310: DMV and DMVM issue their command and retire: it stands in the data mover's queue and its condition is false; where no command
of the context waits for its turn, it starts. A copy within bay memory, whose lines are read and written when it completes. -/
def Sys2Proof.Claims.DataMoverCopies : Prop :=
  ∀ (s : State) (c : CtxRef) (ra : BitVec 5),
    let x := s.ctxOf c
    let k := ctxKey c
    let issues (i : Instr) (cmd : BitVec 64) (cyc : Nat) : Prop :=
      let d := dmCmd cmd
      let id := s.blk.opNo
      s.blk.settled → d.op = 2 → d.opt = 0 → d.pbank ≤ 7 → (d.cls = 0 ∨ x.priv ≠ 0) → d.bline + d.n ≤ 0x4000 →
      2048 * d.pbank + d.pline + d.n ≤ 0x4000 → (d.tag = 7 ∨ pget x.tags d.tag = none) → s.blk.moverUse c.eng.val < 8 →
      (∀ y, y ∈ s.blk.dms → y.2.ctx = k → y.2.started = true) →
      Answers (exec i s) fun t => s.keepsMem t ∧ t.blk.opNo = id + 1 ∧ t.blk.dms = pset s.blk.dms id ⟨k, cmd, [], d.cls, false, none, true⟩ ∧
        s.Ends { t with blk := { t.blk with dms := s.blk.dms, opNo := id } } c cyc
          { x with tags := if d.tag = 7 then x.tags else pset x.tags d.tag (), pc := x.pc + 2 }
    x.lock = false →
    (s.runs c 2 false ⟨[(ra.toNat, 4)], []⟩ = true → ra.toNat % 4 = 0 →
      issues (.zDmv c (.lrrr 0 ra false 0 0 0)) (BitVec.ofNat 64 (x.val ra.toNat 4)) 3) ∧
    (s.runs c 2 false ⟨[(ra.toNat, 1)], []⟩ = true →
      let bank := x.bk.toNat
      let off := (x.gr ra.toNat).toNat
      bank ≤ 7 → off % 4 = 0 → s.clean c bank off 4 →
      issues (.zDmvm c (.lrrr 1 0 false ra 0 0)) (BitVec.ofNat 64 (s.memVal c bank off 4)) (if wordCost bank off = 2 then 5 else 3))

/-- R293, R417: a data-mover command completes: the lines of a read lie in bay memory, a failed one as zeros; a copy has moved its lines; DMS
records what happened. -/
def Sys2Proof.Claims.DataMoverCompletes : Prop :=
  ∀ (s : State) (dt id : Nat) (op : DmOp), op.started = true →
    let d := dmCmd op.cmd
    let b := op.ctx / 64
    let ends (post : State → State → Prop) : Prop :=
      Happens (.dataMoverComplete dt id) s dt fun u t => pget u.blk.dms id = some op → u.blk.holds op.ctx = false → u.blk.moverRuns b = true → post u t
    (d.op = 0 → ends fun u t => ∀ l, u.blk.dmOuts id d.n = some l →
      u.linesPut t b d.bline (l.map fun r => (goodLine r).getD 0) ∧
      u.blk.DmEnded t.blk id op (if l.all fun r => (goodLine r).isSome then 0 else 1)) ∧
    (d.op = 1 → ends fun u t => ∀ l, u.blk.dmOuts id d.n = some l → u.keepsMem t ∧
      u.blk.DmEnded t.blk id op (if op.bad then 1 else if l.all fun r => r == .wrote then 0 else 2)) ∧
    (d.op = 2 →
      let src := 2048 * (d.pbank % 8) + d.pline
      (src + d.n ≤ d.bline ∨ d.bline + d.n ≤ src) →
      ends fun u t => (∀ w, 32 * src ≤ w → w < 32 * (src + d.n) → pget u.blk.bmErr (bmKey b w) = none) →
        u.linesPut t b d.bline ((List.range d.n).map fun i => u.lineAt b (src + i)) ∧ u.blk.DmEnded t.blk id op 0) ∧
    (d.op = 3 → ∀ r, op.tier = some r → r.phase = .finished → ends fun u t => u.keepsMem t ∧
      t.blk.tierRes = pset u.blk.tierRes op.ctx (r.result, r.value) ∧
      u.blk.DmEnded { t.blk with tierRes := u.blk.tierRes } id op (if r.result ≠ 0 then 3 else if r.refused then 2 else 0))

/-- R206, R283, R334: a pool-window access completes: the destination takes its words and the instruction ends; a bad line raises POOL_DATA, or is
deferred where an interrupt has retired the load, and raises it before the next instruction, where no interrupt of the engine is served (R333). -/
def Obligations.PoolWindowAccesses : Prop :=
  ∀ (s : State) (dt id : Nat) (op : PoolOp) (r : JobOut), op.up = [] → op.fin = .go →
    let k := op.ctx
    let done (u : State) : Prop :=
      pget u.blk.pools id = some op ∧ u.blk.gotOf (.pool id) = some r ∧ u.blk.td.step = none ∧ u.blk.holds k = false
    let gone (u : State) : State :=
      { u with blk := { u.blk with pools := pdel u.blk.pools id, got := u.blk.got.filter fun x => x.1 != .pool id } }
    let ends (post : State → State → Prop) : Prop :=
      Happens (.poolWindowComplete dt id) s dt fun u t => done u → u.keepsMem t ∧ post (gone u) t
    let frame (u t : State) : Prop :=
      (∀ j, j ≠ k → (t.blk.ctx j).awaits (u.blk.ctx j)) ∧ u.blk.near t.blk ∧ u.blk.keepsRegs t.blk [F.EA_RETRY_CNT_off (k / 64)]
    let next (y x : Ctx) : Prop :=
      Ctx.alike { y with g := x.g, gErr := x.gErr, attempt := x.attempt, tripled := x.tripled, u := x.u }
        { x.countLock with pc := x.pc + BitVec.ofNat 16 op.len } ∧ (y.st = .ready ∨ y.st = .run)
    let places (y x : Ctx) (d : Line) : Prop := y.holdsAt op.dst (lineVal d op.word).toNat ∧
      ∀ i, i ∉ op.dst → tget (fun _ => 0) y.g i = tget (fun _ => 0) x.g i
    op.dst.Nodup → (∀ i, i ∈ op.dst → i < 64) → op.dst.length ≤ 4 → op.len ≠ 0 →
    (op.load = true → op.retired = false → ∀ d, goodLine r = some d →
      ends fun u t => frame u t ∧ next (t.blk.ctx k) (u.blk.ctx k) ∧ places (t.blk.ctx k) (u.blk.ctx k) d) ∧
    (op.load = false → op.retired = false → ends fun u t => frame u t ∧ next (t.blk.ctx k) (u.blk.ctx k) ∧ (t.blk.ctx k).g = (u.blk.ctx k).g) ∧
    (op.load = true → op.retired = true → ∀ d, goodLine r = some d → ends fun u t => frame u t ∧ places (t.blk.ctx k) (u.blk.ctx k) d ∧
      (t.blk.ctx k).pc = (u.blk.ctx k).pc) ∧
    (op.load = true → op.retired = true → goodLine r = none → ends fun u t => frame u t ∧
      (t.blk.ctx k).awaits { u.blk.ctx k with defer := true }) ∧
    (∀ c : CtxRef, ctxKey c = k → op.load = true → op.retired = false → goodLine r = none →
      Happens (.poolWindowComplete dt id) s dt fun u t => done u → (u.ctxOf c).mayFault → (gone u).blk.served c.eng.val = none →
        (gone u).FaultTaken t c 0x09 0 op.at_) ∧
    (∀ c : CtxRef,
      Happens (.deferredPoolData dt c) s dt fun u t => (u.ctxOf c).mayFault → (u.ctxOf c).defer = true → (u.ctxOf c).st = .run →
        u.blk.executes c.eng.val = true → u.blk.served c.eng.val = none →
        ({ u with blk := u.blk.onCtx (ctxKey c) fun x => { x with defer := false } }).FaultTaken t c 0x09 0x01 (0, 0))

/-- R200, R283, R291 to R293: an access to a pool-window bank stands with the data mover and its context waits for it, its PC at the instruction; a
data-mover command that names pool lines stands in the queue with them. -/
def Obligations.AccessesBegin : Prop :=
  ∀ (s : State) (c : CtxRef) (ra rb n : Nat) (d : Half),
    let x := s.ctxOf c
    let k := ctxKey c
    let bank := x.bk.toNat
    let off := (x.gr rb + d).toNat
    let id := s.blk.opNo
    let waits (i : Instr) (f : ZFmt) (load : Bool) : Prop :=
      s.runs c (fmtLen f) false (if load then ⟨[(rb, 1)], [(ra, n)]⟩ else ⟨[(rb, 1), (ra, n)], []⟩) = true → s.blk.settled → x.lock = false →
      0x10 ≤ bank → bank ≤ 0x7F → (n = 2 → off % 2 = 0) → (n = 4 → off % 4 = 0 ∧ ra % 4 = 0) → ∀ a cls, x.pool bank off (!load) = .ok (a, cls) →
      Answers (exec i s) fun t => s.keepsMem t ∧ (t.ctxOf c).st = .wait ∧ (t.ctxOf c).waitFor = some .pool ∧ (t.ctxOf c).pc = x.pc ∧
        (t.ctxOf c).g = x.g ∧ t.blk.opNo = id + 1 ∧
        pget t.blk.pools id = some ⟨k, load, if load then x.places ra n else [], [], a.toNat / 2 % 32, a, false, fmtLen f, (bank, off), .go⟩
    (∀ (a b d4 : BitVec 4), n = 1 → ra = a.toNat → rb = b.toNat → d = d4.setWidth 16 →
      waits (.zLd c (.sm a b d4)) (.sm a b d4) true ∧ waits (.zSt c (.sm a b d4)) (.sm a b d4) false) ∧
    (∀ (a b : BitVec 5) (d11 : BitVec 11), ra = a.toNat → rb = b.toNat → d = d11.signExtend 16 →
      let lm (m : BitVec 6) : ZFmt := .lm m a false b d11
      (n = 1 → waits (.zLdw c (lm 0)) (lm 0) true ∧ waits (.zStw c (lm 1)) (lm 1) false) ∧
      (n = 2 → waits (.zLdp c (lm 2)) (lm 2) true ∧ waits (.zStp c (lm 3)) (lm 3) false) ∧
      (n = 4 → waits (.zLdq c (lm 4)) (lm 4) true ∧ waits (.zStq c (lm 5)) (lm 5) false)) ∧
    (∀ (r : BitVec 5) (cmd : BitVec 64) (lines : List PAddr) (cls : Nat), cmd = BitVec.ofNat 64 (x.val r.toNat 4) → r.toNat % 4 = 0 →
      s.runs c 2 false ⟨[(r.toNat, 4)], []⟩ = true → s.blk.settled → x.lock = false → x.dmCheck (dmCmd cmd) = .ok (lines, cls) →
      ((dmCmd cmd).tag = 7 ∨ pget x.tags (dmCmd cmd).tag = none) → s.blk.moverUse c.eng.val < 8 →
      Answers (exec (.zDmv c (.lrrr 0 r false 0 0 0)) s) fun t => (∀ a, memByte t.mem a = memByte s.mem a) ∧ (t.ctxOf c).pc = x.pc + 2 ∧
        (t.ctxOf c).g = x.g ∧ (t.ctxOf c).tags = (if (dmCmd cmd).tag = 7 then x.tags else pset x.tags (dmCmd cmd).tag ()) ∧
        ∃ bad st, pget t.blk.dms id = some ⟨k, cmd, lines, cls, bad, none, st⟩ ∧
          ((∀ y, y ∈ s.blk.dms → y.2.ctx = k → y.2.started = true) → st = decide ((dmCmd cmd).op ≠ 3)))

/-- R8: every command that is a register write does exactly what REGISTER_WRITE of its register does with the bit that the command names. -/
def Obligations.RowsAreRegisterWrites : Prop :=
  ∀ (i : Instr) (s : State) (req : Req) (off : Nat) (v : Word), writeOf i = some (req, off, v) → s.blk.settled →
    exec i s = exec (.registerWrite req (BitVec.ofNat 22 off) 32 v) s

/-- R520, R527, R531: a register write of a path that is closed is answered with an error and recorded in BLK_ACCERR; one that the page lock refuses
sets LOCKREF; neither changes anything else but the record of the cycle's updates. -/
def Sys2Proof.Claims.RefusedWrites : Prop :=
  ∀ (i : Instr) (s : State) (req : Req) (off : Nat) (v : Word) (p : Page), writeOf i = some (req, off, v) → s.blk.settled →
    s.blk.phase = .running → pageOf off = some p →
    let table := p.kind = .segTable ∨ p.kind = .slotTable ∨ p.kind = .patchWin
    (s.blk.pathClosed req = true → Answers (exec i s) fun t => t.mem = s.mem ∧ t.pending = s.pending ∧
      { t.blk with regs := s.blk.regs, winRsp := s.blk.winRsp, fresh := s.blk.fresh } = s.blk ∧ t.blk.winRsp = some ⟨req, 0, true⟩ ∧
      s.blk.keepsRegs t.blk [F.BLK_ACCERR_off, p.base + 8] ∧
      (¬ table → t.blk.bit (F.PAGE_STAT_ACCERR p.base) = true) ∧
      (if s.blk.bit F.BLK_ACCERR_VALID then t.blk.rd F.BLK_ACCERR_off = s.blk.rd F.BLK_ACCERR_off
       else t.blk.fld F.BLK_ACCERR_VALID = 1 ∧ t.blk.fld F.BLK_ACCERR_PATH = pathCode req ∧ t.blk.fld F.BLK_ACCERR_WR = 1 ∧
         t.blk.fld F.BLK_ACCERR_CAUSE = 2 ∧ t.blk.fld F.BLK_ACCERR_OFFSET = off)) ∧
    (s.blk.pathClosed req = false → s.blk.lockedOut req p.base = true → ¬ table → Answers (exec i s) fun t =>
      t.mem = s.mem ∧ t.pending = s.pending ∧
      { t.blk with regs := s.blk.regs, winRsp := s.blk.winRsp, fresh := s.blk.fresh } = s.blk ∧ t.blk.winRsp = some ⟨req, 0, false⟩ ∧
      s.blk.keepsRegs t.blk [p.base + 8] ∧ t.blk.rd (p.base + 8) = (F.PAGE_STAT_LOCKREF p.base).put (s.blk.rd (p.base + 8)) 1)

/-- R8 to R12, R517, R519: a register write by access codes, a W1C bit that hardware sets in the same cycle staying set; an access that is refused; a
read in the normal view, which clears RC fields, and in the alias view, which clears none: both return RC fields without the updates of the cycle, which
act on the cleared fields; the pair that a low register captures. -/
def Sys2Proof.Claims.RegisterAccess : Prop :=
  ∀ (s : State) (req : Req) (off : Nat) (v : Word), off < 0x200000 →
    let o22 : BitVec 22 := BitVec.ofNat 22 off
    let ali : BitVec 22 := BitVec.ofNat 22 (0x200000 + off)
    (∀ p r, pageOf off = some p → regRow off = some r → off % 4 = 0 →
      let o := off - p.base
      ((p.kind = .blk ∧ 0x20 ≤ o ∧ o ≠ 0x28 ∧ o ≠ 0x34) ∨ (p.kind = .cs ∧ 0x20 ≤ o ∧ o ≠ 0x24) ∨ (p.kind = .sv ∧ 0x20 < o) ∨
        (p.kind = .sieve ∧ 0x20 < o)) → s.blk.settled →
      Performs (.registerWrite req o22 32 v) s req off fun u t => u.onlyRegs t [off] ∧
        ∀ i, i < 32 → (t.rd off).getLsbD i =
          if r.w1c.testBit i ∧ v.getLsbD i then r.w1s.testBit i || (u.hwBits off).getLsbD i
          else if r.w1s.testBit i ∧ v.getLsbD i then true else if r.rw.testBit i then v.getLsbD i else (u.rd off).getLsbD i) ∧
    (s.blk.phase = .running →
      (∀ w, w ≠ 32 ∨ off % 4 ≠ 0 →
        exec (.registerWrite req o22 w v) s = .next { s with blk := s.blk.accErr req true 0 off } ∧
        exec (.captureRead req o22 w) s = .next { s with blk := s.blk.accErr req false 0 off }) ∧
      (off % 4 = 0 → pageOf off = none →
        exec (.registerWrite req o22 32 v) s = .next { s with blk := s.blk.accErr req true 1 off } ∧
        exec (.captureRead req o22 32) s = .next { s with blk := s.blk.accErr req false 1 off }) ∧
      (off % 4 = 0 → (pageOf off).isSome → exec (.registerWrite req ali 32 v) s = .next { s with blk := { s.blk with winRsp := some ⟨req, 0, false⟩ } }) ∧
      (∀ p r, pageOf off = some p → regRow off = some r → off % 4 = 0 → 0x20 ≤ off - p.base →
        p.kind = .sc ∨ p.kind = .tw ∨ p.kind = .sv ∨ p.kind = .mu →
        let rc := BitVec.ofNat 32 r.rc
        let upd := (pget s.blk.freshNow.hw off).getD (s.blk.rd off, 0)
        let rsp := some ⟨req, (s.blk.rd off &&& ~~~rc) ||| (upd.1 &&& rc), false⟩
        exec (.captureRead req ali 32) s = .next { s with blk := { s.blk with winRsp := rsp } } ∧
        Answers (exec (.captureRead req o22 32) s) fun t => t.mem = s.mem ∧ t.pending = s.pending ∧ t.blk.winRsp = rsp ∧
          s.blk.onlyRegs { t.blk with winRsp := s.blk.winRsp } [off] ∧ t.blk.rd off = (s.blk.rd off &&& ~~~rc) ||| (upd.2 &&& rc)) ∧
      (let count := s.blk.cycles
       Answers (exec (.captureRead req (BitVec.ofNat 22 F.BLK_CYC_LO_off) 32) s) fun t =>
         t.blk.winRsp = some ⟨req, BitVec.ofNat 32 count, false⟩ ∧
         ∀ u : State, u.blk.phase = .running → u.blk.caps = t.blk.caps →
           Answers (exec (.captureRead req (BitVec.ofNat 22 F.BLK_CYC_HI_off) 32) u) fun w =>
             w.blk.winRsp = some ⟨req, BitVec.ofNat 32 (count / 2 ^ 32), false⟩))

/-- R425, R426, R428, R523, R524: what the raise of an event source with an error code does: the page's EVT_PEND bit, COUNT, CODE and ERR_INFO as
ERRLAST and INFOHOLD allow, and EV_PEND two cycles on unless the page masks the source. -/
def Obligations.Raises : Prop :=
  ∀ (s : Blk) (n code info : Nat), n < 250 → code < 256 → info < 2 ^ 32 → s.fld F.EV_GCTL_STORM = 0 →
    let page := (srcPage n).1
    let bit := n - (srcPage n).2
    let t := s.raise n (some (code, info))
    let news := s.bit (F.PAGE_CTRL_ERRLAST page) = true ∨ s.fld (F.ERR_CODE_CODE page) = 0
    t.rbit (page + 0xC) bit = true ∧
    t.fld (F.ERR_CODE_COUNT page) = min 255 (s.fld (F.ERR_CODE_COUNT page) + 1) ∧
    (news → t.fld (F.ERR_CODE_CODE page) = code) ∧ (¬ news → t.fld (F.ERR_CODE_CODE page) = s.fld (F.ERR_CODE_CODE page)) ∧
    (news → s.bit (F.PAGE_STAT_INFOHOLD page) = false → t.rd (page + 0x18) = BitVec.ofNat 32 info) ∧
    (news → s.bit (F.PAGE_STAT_INFOHOLD page) = true → t.fld (F.ERR_CODE_NOINFO page) = 1 ∧ t.rd (page + 0x18) = s.rd (page + 0x18)) ∧
    (¬ news → t.rd (page + 0x18) = s.rd (page + 0x18)) ∧
    t.ev.due = s.ev.due ++ (if s.rbit (page + 0x10) bit then [] else [(false, n, s.now)]) ∧
    { t with regs := s.regs, ev := s.ev, fresh := s.fresh } = s ∧ s.keepsRegs t [page + 0xC, page + 0x14, page + 0x18] ∧
    (s.rbit (page + 0x10) bit = false → ∀ w : Blk, w.ev.due = t.ev.due → w.ev.frozen = false → s.now + 2 ≤ w.now →
      w.evDue.rbit (F.EV_PEND_off (n / 32)) (n % 32) = true)

/-- R524 to R528, R530: the common registers of a page: a test raise, a claim of the page, its release and a refused claim, the reads of
ERR_CODE, which return the code without the updates of the cycle and keep its ERR_INFO, and of ERR_INFO, and the mailbox attention bit. -/
def Obligations.PageHeaders : Prop :=
  ∀ (s : State) (req : Req) (p : Page) (v : Word),
    let page : BitVec 22 := BitVec.ofNat 22 p.base
    let lock := p.base + 0x1C
    let held := s.blk.fld (F.PAGE_LOCK_KIND p.base)
    let names (k i : Nat) : Prop := (F.PAGE_LOCK_KIND p.base).get v = k ∧ (F.PAGE_LOCK_ID p.base).get v = i
    let takes (u t : Blk) : Prop := u.onlyRegs t [lock] ∧ t.fld (F.PAGE_LOCK_KIND p.base) = (F.PAGE_LOCK_KIND p.base).get v ∧
      t.fld (F.PAGE_LOCK_ID p.base) = if (F.PAGE_LOCK_KIND p.base).get v = 1 then (F.PAGE_LOCK_ID p.base).get v else 0
    pageOf p.base = some p → p.kind ≠ .segTable → p.kind ≠ .slotTable → p.kind ≠ .patchWin → s.blk.settled →
    (Performs (.testRaise req page v) s req (p.base + 4) fun u t => ∃ w, u.onlyRegs w [p.base + 4] ∧ w.rbit (p.base + 4) 15 = false ∧
      let i := (F.PAGE_CTRL_TIDX p.base).get v
      t = if p.kind.srcMask.testBit i then w.raise (p.firstSrc + i) (some (0xFF, 0)) else w) ∧
    (∀ k i, lockName req = some (k, i) → held = 0 → names k i → Performs (.pageLockWrite req page v) s req lock takes) ∧
    ((F.PAGE_LOCK_KIND p.base).get v = 0 → Performs (.pageLockWrite req page v) s req lock takes) ∧
    (req = .monitor → Performs (.pageLockWrite req page v) s req lock takes) ∧
    (∀ k i, lockName req = some (k, i) → (F.PAGE_LOCK_KIND p.base).get v ≠ 0 → (held ≠ 0 ∨ ¬ names k i) →
      Performs (.pageLockWrite req page v) s req lock fun u t => t = u.hwSet (F.PAGE_STAT_LOCKREF p.base)) ∧
    (s.blk.phase = .running →
      Answers (exec (.errCodeRead req page) s) (fun t => let u := s.blk.wakeFor p
        let upd := s.blk.freshOf (p.base + 0x14)
        let info := (s.blk.freshOf (p.base + 0x18)).1
        let code := (F.ERR_CODE_CODE p.base).get upd.1
        t.mem = s.mem ∧ t.pending = s.pending ∧ t.blk.winRsp = some ⟨req, (s.blk.rd (p.base + 0x14) &&& ~~~0xFF01FF) ||| (upd.1 &&& 0xFF01FF), false⟩ ∧
        { t.blk with regs := u.regs, winRsp := u.winRsp, fresh := u.fresh } = u ∧ u.keepsRegs t.blk [p.base + 8, p.base + 0x14, p.base + 0x18] ∧
        t.blk.rd (p.base + 0x14) = (s.blk.rd (p.base + 0x14) &&& ~~~0xFF01FF) ||| (upd.2 &&& 0xFF01FF) ∧
        (code = 0 → t.blk.rd (p.base + 8) = s.blk.rd (p.base + 8) ∧ t.blk.rd (p.base + 0x18) = s.blk.rd (p.base + 0x18)) ∧
        (code ≠ 0 → t.blk.rd (p.base + 8) = s.blk.rd (p.base + 8) ||| 8 ∧ t.blk.rd (p.base + 0x18) = info)) ∧
      Answers (exec (.errInfoRead req page) s) (fun t => let u := s.blk.wakeFor p
        t.mem = s.mem ∧ t.pending = s.pending ∧ t.blk = { u.clr1 (F.PAGE_STAT_INFOHOLD p.base) with
          winRsp := some ⟨req, s.blk.rd (p.base + 0x18), false⟩ })) ∧
    (Performs (.attnSet req v) s req F.BLK_ATTN_SET_off fun u t => t = u.hwSet F.BLK_ATTN_SW)

/-- R155, R387, R487, R532, R540, R546 to R549, R553: an assertion of BLK_RST_N and a loss of lock put the block in reset, where nothing is held but
the test port, the blown fuses, the PLL and the pins; the release, or the lock that comes after it, samples the pins and starts the block and its cycle
count. -/
def Sys2Proof.Claims.ResetAndLock : Prop :=
  ∀ (s : State) (dt : Nat) (role blank : Bool) (straps : BitVec 4) (pin : TwPins),
    let s' := s.pass dt
    let u := s'.blk
    let inReset (t : State) : Prop := t.mem = [] ∧ t.pending = s.pending ∧ t.blk.phase = .held ∧ t.blk.live = false ∧
      (∀ off, t.blk.rd off = regReset off) ∧ (∀ d, (t.blk.pass d).cycles = 0) ∧ t.blk.tw = { Twin.reset with failOut := true } ∧
      t.blk.tap = u.tap ∧ t.blk.burnt = u.burnt ∧ t.blk.now = u.now ∧ t.blk.pins.padIn = u.pins.padIn ∧ t.blk.pins.dir = 0 ∧ t.blk.pins.out = 0 ∧
      { t.blk with now := 0, phase := .running, pll := true, lockLost := false, cyc := ⟨0, 0, true⟩, tap := Tap.reset, burnt := 0,
                   pins := Pins.reset, tw := Twin.reset } = Blk.reset
    let started (p : Pins) (t : State) : Prop := t.mem = s'.mem ∧ t.pending = s.pending ∧ t.blk.phase = .running ∧ t.blk.relAt = u.now ∧
      (∀ d, { t.blk with now := u.now + d }.cycles = d % 2 ^ 48) ∧ t.blk.straps = p.strap ∧
      t.blk.rd F.TW_STAT_off = (((u.setBit F.TW_STAT_SIDE p.role).setBit F.TW_STAT_PRES p.tw.pres).setBit F.TW_STAT_PFAIL p.tw.fail).rd F.TW_STAT_off ∧
      t.blk.rd F.TD_DBG_STAT_off = (if p.blank then u.setFld F.TD_DBG_STAT_LEVEL 3 else u).rd F.TD_DBG_STAT_off ∧
      t.blk.tw = { u.tw with failOut := false, pin := p.tw } ∧
      u.keepsRegs t.blk [F.TW_STAT_off, F.TD_DBG_STAT_off] ∧ t.blk.pwr = { u.pwr with bndAt := u.now } ∧
      { t.blk with phase := u.phase, relAt := u.relAt, cyc := u.cyc, straps := u.straps, tw := u.tw, regs := u.regs, pwr := u.pwr, pll := u.pll,
                   pins := u.pins, tap := u.tap } = u
    let release : Instr := .resetRelease dt role straps pin blank
    (Answers (exec (.resetAssert dt) s) fun t => inReset t ∧ t.blk.pins.rstN = false ∧ t.blk.lockLost = false ∧ t.blk.pll = u.pll) ∧
    (u.phase = .running → Answers (exec (.pllLockLoss dt) s) fun t => inReset t ∧ t.blk.pins.rstN = u.pins.rstN ∧ t.blk.lockLost = true ∧
      t.blk.pll = false) ∧
    (u.phase = .held → exec (.pllLockLoss dt) s = .next { s' with blk := { u with pll := false } }) ∧
    (u.phase = .held → u.pins.rstN = false → Answers (exec release s) fun t =>
      t.blk.pins = { u.pins with rstN := true, role := role, strap := straps, tw := pin, blank := blank } ∧
      (t.blk.tap.acts ≠ .extest ∧ t.blk.tap.acts ≠ .clamp ∧ t.blk.tap.acts ≠ .highz) ∧ t.blk.tap.bound = u.tap.bound ∧ t.blk.tap.out = u.tap.out ∧
      (u.pll = true → u.lockLost = false → started t.blk.pins t) ∧
      ((u.pll = false ∨ u.lockLost = true) → t.blk.phase = .held ∧ t.mem = s'.mem ∧ t.pending = s.pending ∧
        { t.blk with pins := u.pins, tap := u.tap } = u)) ∧
    (u.pins.rstN = true → exec release s = .next s') ∧
    (u.phase = .held → u.pins.rstN = true → u.lockLost = false → Answers (exec (.pllLock dt) s) fun t => started u.pins t ∧ t.blk.pll = true ∧
      t.blk.pins = u.pins ∧ t.blk.tap = u.tap) ∧
    ((u.phase = .running ∨ u.pins.rstN = false ∨ u.lockLost = true) → exec (.pllLock dt) s = .next { s' with blk := { u with pll := true } })

/-- R553 to R555: the test port's instructions: what each shifts out and leaves in its registers; EXTEST, CLAMP and HIGHZ act only while BLK_RST_N is
asserted, and SAMPLE captures the balls and the block's own outputs. -/
def Sys2Proof.Claims.TestPort : Prop :=
  ∀ (s : State) (balls shift : BitVec 412) (code : BitVec 5),
    let does (i : Instr) (ins : TapIns) (post : Tap → Prop) : Prop := Answers (exec i s) fun t => t.blk.tap.acts = ins ∧ post t.blk.tap ∧
      { t with blk := { t.blk with tap := s.blk.tap } } = s
    let low := s.blk.pins.rstN = false
    let keeps (p : Tap) : Prop := p.bound = s.blk.tap.bound
    does .tapReset .idcode keeps ∧
    does .tapIdcode .idcode (fun p => p.out = 0x1A256C2B ∧ keeps p) ∧
    does (.tapSamplePreload balls shift) .sample (fun p => p.bound = shift ∧ ∀ i, i < 412 →
      p.out.getLsbD i = (s.blk.boundOut i).getD (balls.getLsbD i)) ∧
    (low → does .tapExtest .extest (fun p => p.out = s.blk.tap.bound ∧ keeps p) ∧ does .tapClamp .clamp keeps ∧ does .tapHighz .highz keeps) ∧
    (¬ low → does .tapExtest .bypass keeps ∧ does .tapClamp .bypass keeps ∧ does .tapHighz .bypass keeps) ∧
    ((code = 0 ∨ 5 < code.toNat) → does (.tapBypass code) .bypass (fun p => p.out = 0 ∧ keeps p)) ∧
    (1 ≤ code.toNat → code.toNat ≤ 5 → exec (.tapBypass code) s = .next s)

/-- R33, R35 to R37, R40, R42, R43, R49 to R52, R572: an edge on the tracker's inputs: ignored in OFF, a tick fault where it comes too soon or with
another, else accepted: position, compare hits, direction, retraction, missing index, period and speed, retransmission. -/
def Sys2Proof.Claims.TimebaseEdges : Prop :=
  ∀ (s : State) (dt : Nat) (a b bLevel : Bool),
    let k := (s.pass dt).blk
    let st := k.tbState
    let does (post : Blk → Prop) : Prop := Happens (.tbStepEdge dt a b bLevel) s dt fun u t => u.keepsMem t ∧
      { t.blk with tb := k.tb, regs := k.regs, fresh := k.fresh, ev := k.ev } = k ∧ post t.blk
    let soon : Bool := k.tb.lastEdge.any fun c => decide (k.now - c < k.fld F.SC_TB_TIMING_MINSP)
    let both : Prop := k.fld F.SC_TB_CTRL_MODE = 1 ∧ a = true ∧ b = true
    ((st = 0 ∨ (k.tbSees a b bLevel = none ∧ ¬ both)) → does fun t => t = k) ∧
    (st ≠ 0 → (both ∨ ((k.tbSees a b bLevel).isSome ∧ soon = true)) → does fun t => t.tb = k.tb ∧
      k.tells t 22 (some (1, 0)) [F.SC_TB_FAULTS_off] ∧ t.fld F.SC_TB_FAULTS_TICKFLT = min 0xFFFF (k.fld F.SC_TB_FAULTS_TICKFLT + 1) ∧
      t.fld F.SC_TB_FAULTS_DRIFTCNT = k.fld F.SC_TB_FAULTS_DRIFTCNT ∧ t.fld F.SC_TB_FAULTS_RETRACT = k.fld F.SC_TB_FAULTS_RETRACT) ∧
    (∀ down, st ≠ 0 → st < 5 → k.tbSees a b bLevel = some down → soon = false → does fun t =>
      let counts := st = 2 ∨ st = 3
      let p := k.tb.pos + 1
      let missed := down = false ∧ st = 2 ∧ p.extractLsb' 0 20 = 0x80000#20 ∧ k.tb.idxSeen = false
      let period := k.tb.perOpen = true ∧ k.tb.lastDown = down ∧ st ≠ 4
      t.tb.lastEdge = some k.now ∧ t.tb.lastDown = down ∧ t.tb.lossFrom = k.now ∧ t.fld F.SC_TB_STAT_DIR = down.toNat ∧
      t.tb.pos = (if counts then (if down then k.tb.pos - 1 else p) else k.tb.pos) ∧
      (∀ n, n < 8 → t.tb.due.getLsbD n = (k.tb.due.getLsbD n ||
        (decide counts && !down && k.cmpArmed n && k.cmpOf n == p))) ∧
      t.fld F.SC_TB_FAULTS_RETRACT = (if counts ∧ down = true ∧ k.tb.pos = k.cmpOf 0 - 4 then min 255 (k.fld F.SC_TB_FAULTS_RETRACT + 1)
        else k.fld F.SC_TB_FAULTS_RETRACT) ∧
      (missed → t.tbState = 3 ∧ t.fld F.SC_TB_DRIFT_MISS = 1 ∧ t.fld F.SC_TB_DRIFT_DRIFT = 0 ∧
        t.fld F.SC_TB_FAULTS_DRIFTCNT = min 255 (k.fld F.SC_TB_FAULTS_DRIFTCNT + 1) ∧
        k.tells t 23 (some (3, 0)) [F.SC_TB_STAT_off, F.SC_TB_DRIFT_off, F.SC_TB_FAULTS_off]) ∧
      (¬ missed → t.tbState = st ∧ t.ev = k.ev ∧ k.keepsRegs t [F.SC_TB_STAT_off, F.SC_TB_FAULTS_off]) ∧
      t.tb.cmpVal = k.tb.cmpVal ∧ t.tb.frame = k.tb.frame ∧ t.tb.slot = k.tb.slot ∧
      (∀ c, k.tb.lastEdge = some c → period → t.tb.periods = (min (k.now - c) 65535 :: k.tb.periods).take 256 ∧
        t.tb.nPeriods = min (k.tb.nPeriods + 1) 256 ∧
        (let w := k.fld F.SC_TB_CTRL_SPWIN
         let sum := (t.tb.periods.take (2 ^ w)).foldl (· + ·) 0
         t.tb.spNext = (if 2 ^ w ≤ t.tb.nPeriods then some (k.now, sum * 2 ^ 16 / 2 ^ w) else k.tb.spNext) ∧
         (2 ^ w ≤ t.tb.nPeriods → ∀ y : Blk, y.tb.spNext = t.tb.spNext → k.now < y.now →
           y.speedDue.fld F.SC_TB_SPEED_SPEED = sum * 2 ^ 16 / 2 ^ w % 2 ^ 32 ∧ y.speedDue.fld F.SC_TB_STAT_SPVALID = 1))) ∧
      ((k.tb.lastEdge = none ∨ ¬ period) → t.tb.periods = k.tb.periods ∧ t.tb.nPeriods = k.tb.nPeriods ∧ t.tb.spNext = k.tb.spNext) ∧
      (counts → k.fld F.SC_TB_CTRL_OUTEN = 1 → k.fld F.SC_TB_CTRL_MODE = 0 → (.a, k.now + 6) ∈ t.tb.pulses ∧
        t.tb.outB = k.tbLevelB ∧ t.tb.outBNext = some (k.now, down == k.bit F.SC_TB_CTRL_DIRPOL) ∧
        ∀ y : Blk, y.tb = t.tb → y.tbLevelB = if k.now < y.now then down == k.bit F.SC_TB_CTRL_DIRPOL else k.tbLevelB) ∧
      (counts → k.fld F.SC_TB_CTRL_OUTEN = 1 → k.fld F.SC_TB_CTRL_MODE = 1 → (if down then TbOut.b else .a, k.now + 6) ∈ t.tb.pulses ∧
        t.tb.outB = k.tb.outB ∧ t.tb.outBNext = k.tb.outBNext) ∧
      (¬ counts ∨ k.fld F.SC_TB_CTRL_OUTEN = 0 → t.tb.pulses = k.tb.pulses ∧ t.tb.outB = k.tb.outB ∧ t.tb.outBNext = k.tb.outBNext))

/-- R43, R46, R52, R53, R55, R572: LOSS cycles without an accepted edge lead to HOLDOVER, whose accumulator makes internal steps; a hit of a claimed
compare channel advances or disarms it and tells its owner. -/
def Sys2Proof.Claims.HoldoverAndCompareHits : Prop :=
  ∀ (s : State) (dt : Nat) (n : Fin 8),
    let k := (s.pass dt).blk
    let does (i : Instr) (post : Blk → Prop) : Prop := Happens i s dt fun u t => u.keepsMem t ∧ post t.blk
    let period := if k.fld F.SC_TB_STAT_SPVALID = 1 then k.fld F.SC_TB_SPEED_SPEED else 0x200000
    let acc := k.tb.acc + (k.now - k.tb.accAt) * 2 ^ 16
    let spc := k.rd (F.SC_CMP_SPC_off n)
    (Expires (.tbLossTimeout dt) s dt .loss fun u t =>
      let lost := (u.tbState = 2 ∨ u.tbState = 3) ∧ u.lossNow ≤ u.now - u.tb.lossFrom
      ((∀ c v, u.tb.lossWas = some (c, v) → c ≠ u.now) → u.lossNow = u.fld F.SC_TB_TIMING_LOSS) ∧
      (lost → t.tbState = 4 ∧ u.tells t 24 (some (4, 0)) [F.SC_TB_STAT_off] ∧
        t.tb = { u.tb with acc := 0, accAt := u.now, perOpen := false, outB := false, outBNext := none, pulses := [] } ∧
        { t with tb := u.tb, regs := u.regs, fresh := u.fresh, ev := u.ev } = u) ∧
      (¬ lost → t = u)) ∧
    (k.tbState = 4 → period ≤ acc → does (.holdoverStep dt) fun t => t.tb.pos = k.tb.pos + 1 ∧ t.tb.acc = acc - period ∧ t.tb.accAt = k.now ∧
      (∀ m, m < 8 → t.tb.due.getLsbD m = (k.tb.due.getLsbD m || (k.cmpArmed m && k.cmpOf m == k.tb.pos + 1))) ∧
      { t with tb := k.tb } = k ∧ t.tb.frame = k.tb.frame ∧ t.tb.slot = k.tb.slot ∧ t.tb.cmpVal = k.tb.cmpVal) ∧
    ((k.tbState ≠ 4 ∨ acc < period) → does (.holdoverStep dt) fun t => t = k) ∧
    (2 ≤ n.val → k.tb.due.getLsbD n = true → does (.compareHit dt n) fun t =>
      t.cmpOf n = k.cmpOf n + spc.setWidth 48 ∧ (∀ m, m ≠ n.val → t.cmpOf m = k.cmpOf m) ∧ t.tb.due.getLsbD n = false ∧
      (∀ m, m ≠ n.val → t.tb.due.getLsbD m = k.tb.due.getLsbD m) ∧
      t.fld (F.SC_CMP_STAT_HIT n) = 1 ∧ t.fld (F.SC_CMP_STAT_ARMED n) = (if spc = 0 then 0 else k.fld (F.SC_CMP_STAT_ARMED n)) ∧
      (k.fld (F.SC_CMP_OWN_KIND n) = 1 → k.tells t (if n.val < 4 then 30 else if n.val < 6 then 31 else 32) none [F.SC_CMP_STAT_off n] ∧
        t.peTrig = k.peTrig) ∧
      (k.fld (F.SC_CMP_OWN_KIND n) = 2 → k.keepsRegs t [F.SC_CMP_STAT_off n] ∧ t.ev = k.ev ∧ (pget t.peTrig (k.fld (F.SC_CMP_OWN_ID n))).isSome ∧
        ∀ e, e ≠ k.fld (F.SC_CMP_OWN_ID n) → pget t.peTrig e = pget k.peTrig e) ∧
      { t with tb := k.tb, regs := k.regs, fresh := k.fresh, ev := k.ev, peTrig := k.peTrig } = k) ∧
    ((n.val < 2 ∨ k.tb.due.getLsbD n = false) → does (.compareHit dt n) fun t => t = k)

/-- R25, R37, R44, R45, R47, R48: an index edge: the latched position, the acquisition load, the drift check, the realignment, and its
retransmission. A load starts a frame: the actions of R25 come in its cycle. -/
def Sys2Proof.Claims.IndexEdges : Prop :=
  ∀ (s : State) (dt : Nat),
    let k := (s.pass dt).blk
    let p := k.tb.pos
    let near : BitVec 48 := BitVec.ofNat 48 ((p.toNat + 2 ^ 19) / 2 ^ 20 * 2 ^ 20)
    let drift := BitVec.ofNat 20 (p - near).toNat
    let realign := k.fld F.SC_TB_CTRL_REALIGN = 1
    let does (post : Blk → Prop) : Prop := Happens (.indexEdge dt) s dt fun u t => t.mem = u.mem ∧ post t.blk
    let latched (t : Blk) : Prop := t.rd F.SC_TB_IDX_LO_off = p.setWidth 32 ∧ t.fld F.SC_TB_IDX_HI_IDX = p.toNat / 2 ^ 32
    let checked (t : Blk) : Prop := t.fld F.SC_TB_DRIFT_MISS = 0 ∧ t.fld F.SC_TB_DRIFT_DRIFT = drift.toNat ∧
      t.fld F.SC_TB_FAULTS_DRIFTCNT = (if drift = 0 then k.fld F.SC_TB_FAULTS_DRIFTCNT else min 255 (k.fld F.SC_TB_FAULTS_DRIFTCNT + 1))
    let outs (w t : Blk) : Prop := t = if w.fld F.SC_TB_CTRL_OUTEN = 1 ∧ (w.tbState = 2 ∨ w.tbState = 3)
      then { w with tb := { w.tb with pulses := (.idx, w.now + 6) :: w.tb.pulses.filter fun x => decide (w.now < x.2 + 4) } } else w
    let check := [F.SC_TB_IDX_LO_off, F.SC_TB_IDX_HI_off, F.SC_TB_DRIFT_off, F.SC_TB_FAULTS_off]
    let loads (q : BitVec 48) (re : Bool) : Prop := does fun t => ∃ w, outs (w.frameActions k.tb.slot.toNat) t ∧ latched w ∧
      w.tb.pos = q ∧ w.cmpOf 0 = q + 4 ∧ w.cmpOf 1 = q + 4096 ∧ (∀ n, 2 ≤ n → w.cmpOf n = k.cmpOf n) ∧
      w.tb.frame = q.extractLsb' 12 36 ∧ w.tb.slot = 0 ∧ w.tbState = 2 ∧ w.tb.lossFrom = k.now ∧
      w.tb.due = k.tb.due &&& 0xFC ∧ w.fld (F.SC_CMP_STAT_ARMED 0) = 1 ∧ w.fld (F.SC_CMP_STAT_ARMED 1) = 1 ∧
      w.fld (if re then F.SC_TB_CTRL_REALIGN else F.SC_TB_CTRL_ACQ) = 0 ∧
      (∀ n, 2 ≤ n → n < 8 → w.fld (F.SC_CMP_STAT_LATE n) =
        if re = true ∧ k.fld (F.SC_CMP_STAT_ARMED n) = 1 ∧ k.cmpOf n < q then 1 else k.fld (F.SC_CMP_STAT_LATE n)) ∧
      (re = true ∧ k.tbState = 2 → checked w) ∧
      k.tells w 25 none ([F.SC_TB_STAT_off, F.SC_TB_CTRL_off] ++ check ++ (List.range 8).map F.SC_CMP_STAT_off) ∧
      { w with tb := k.tb, regs := k.regs, fresh := k.fresh, ev := k.ev } = k
    (k.tbState = 0 → does fun t => t = k) ∧
    (k.tbState = 1 → loads (BitVec.ofNat 48 (k.fld F.SC_TB_EPOCH_LD_EPOCH * 2 ^ 20)) false) ∧
    (k.tbState = 4 → loads near true) ∧
    (k.tbState = 3 → realign → loads near true) ∧
    (k.tbState = 2 → realign → p.extractLsb' 0 20 ≠ 0 → loads near true) ∧
    (k.tbState = 2 → realign → p.extractLsb' 0 20 = 0 → does fun t => ∃ w, outs w t ∧ latched w ∧ w.fld F.SC_TB_CTRL_REALIGN = 0 ∧
      k.keepsRegs w [F.SC_TB_IDX_LO_off, F.SC_TB_IDX_HI_off, F.SC_TB_CTRL_off] ∧ { w with tb := k.tb, regs := k.regs, fresh := k.fresh } = k ∧ w.tb.pos = p) ∧
    ((k.tbState = 3 ∨ (k.tbState = 2 ∧ p.extractLsb' 0 20 = 0)) → ¬ realign → does fun t => ∃ w, outs w t ∧ latched w ∧ checked w ∧
      w.tbState = k.tbState ∧ k.keepsRegs w check ∧ { w with tb := k.tb, regs := k.regs, fresh := k.fresh } = k ∧ w.tb = { k.tb with idxSeen := true }) ∧
    (k.tbState = 2 → ¬ realign → p.extractLsb' 0 20 ≠ 0 → does fun t => ∃ w, outs w t ∧ latched w ∧ checked w ∧ w.tbState = 3 ∧
      k.tells w 23 (some (2, 0)) (F.SC_TB_STAT_off :: check) ∧ { w with regs := k.regs, fresh := k.fresh, ev := k.ev, tb := k.tb } = k ∧
      w.tb = { k.tb with idxSeen := true })

/-- R43, R45, R51, R54, R56, R58, R572, R573: writes of SC_TB_CTRL and SC_TB_TIMING, whose LOSS is in force from the next cycle. Each of TB_ENABLE, TB_ACQ and TB_REALIGN_REQUEST is a write of the
whole register, with the bit that it names written 1. -/
def Sys2Proof.Claims.TimebaseControl : Prop :=
  ∀ (s : State) (req : Req) (v : Word),
    let ctrl (i : Instr) (v : Word) : Prop := Performs i s req F.SC_TB_CTRL_off fun u t =>
      let en := F.SC_TB_CTRL_EN.get v
      let acq := en = 1 ∧ F.SC_TB_CTRL_ACQ.get v = 1 ∧ u.tbState = 0
      t.fld F.SC_TB_CTRL_EN = en ∧ t.fld F.SC_TB_CTRL_MODE = F.SC_TB_CTRL_MODE.get v ∧
      t.fld F.SC_TB_CTRL_DIRPOL = F.SC_TB_CTRL_DIRPOL.get v ∧ t.fld F.SC_TB_CTRL_OUTEN = F.SC_TB_CTRL_OUTEN.get v ∧
      t.fld F.SC_TB_CTRL_SPWIN = min (F.SC_TB_CTRL_SPWIN.get v) 8 ∧
      t.fld F.SC_TB_CTRL_ACQ = (if en = 0 then 0 else if acq then 1 else u.fld F.SC_TB_CTRL_ACQ) ∧
      t.fld F.SC_TB_CTRL_REALIGN = (if en = 0 then 0 else if F.SC_TB_CTRL_REALIGN.get v = 1 then 1 else u.fld F.SC_TB_CTRL_REALIGN) ∧
      t.tbState = (if en = 0 then 0 else if acq then 1 else u.tbState) ∧
      t.fld F.SC_TB_STAT_SPVALID = (if en = 0 then 0 else u.fld F.SC_TB_STAT_SPVALID) ∧
      t.rd F.SC_TB_SPEED_off = (if en = 0 then 0x200000 else u.rd F.SC_TB_SPEED_off) ∧
      t.tb.pos = u.tb.pos ∧ t.tb.frame = u.tb.frame ∧ t.tb.slot = u.tb.slot ∧ t.tb.cmpVal = u.tb.cmpVal ∧
      (en = 0 → t.tb.lastEdge = none ∧ t.tb.spNext = none) ∧ (en = 1 → t.tb.lastEdge = u.tb.lastEdge) ∧
      ((en = 0 ∨ u.fld F.SC_TB_CTRL_EN = 0) → t.tb.nPeriods = 0 ∧ t.tb.periods = []) ∧
      ((en = 0 ∨ F.SC_TB_CTRL_OUTEN.get v = 0 ∨ (t.tbState ≠ 2 ∧ t.tbState ≠ 3)) → t.tb.outB = false ∧ t.tb.outBNext = none ∧ t.tb.pulses = []) ∧
      u.keepsRegs t [F.SC_TB_CTRL_off, F.SC_TB_STAT_off, F.SC_TB_SPEED_off] ∧ { t with regs := u.regs, tb := u.tb } = u
    ctrl (.tbEnable req v) v ∧ ctrl (.tbAcq req v) (v ||| 0x20) ∧ ctrl (.tbRealignRequest req v) (v ||| 0x40) ∧
    Performs (.tbTimingWrite req v) s req F.SC_TB_TIMING_off fun u t =>
      let loss := max (v.toNat / 2 ^ 16) 64
      t.fld F.SC_TB_TIMING_LOSS = loss ∧ t.fld F.SC_TB_TIMING_MINSP = max (v.toNat % 256) 4 ∧ u.keepsRegs t [F.SC_TB_TIMING_off] ∧
      { t with regs := u.regs, tb := u.tb } = u ∧ t.tb = { u.tb with lossWas := t.tb.lossWas } ∧ t.lossNow = u.lossNow ∧
      ∀ y : Blk, y.tb.lossWas = t.tb.lossWas → u.now < y.now →
        let z := y.lossDue
        let late := (y.tbState = 2 ∨ y.tbState = 3) ∧ y.fld F.SC_TB_TIMING_LOSS ≤ u.now + 1 - y.tb.lossFrom
        z.tb.lossWas = none ∧ z.now = y.now ∧ z.tbState = (if late then 4 else y.tbState) ∧
        (late → y.tells z 24 (some (4, 0)) [F.SC_TB_STAT_off] ∧ z.tb.acc = 0 ∧ z.tb.accAt = u.now + 1) ∧
        (¬ late → z = { y with tb := { y.tb with lossWas := none } })

/-- R53, R54: the ownership of the compare channels, their staging word, the compare value loaded as one, the arming and LATE. -/
def Sys2Proof.Claims.CompareRegisters : Prop :=
  ∀ (s : State) (req : Req) (n : Fin 8) (v : Word),
    let stat := F.SC_CMP_STAT_off n
    let own := F.SC_CMP_OWN_off n
    let cur (u : Blk) := u.fld (F.SC_CMP_OWN_KIND n)
    let named := v.toNat % 32
    let mayWrite (u : Blk) : Prop := 2 ≤ n.val ∧ cur u ≠ 0
    Performs (.cmpOwnWrite req n v) s req own (fun u t =>
      let k := v.toNat / 64 % 4
      let frees := 2 ≤ n.val ∧ k = 0 ∧ cur u ≠ 0 ∧ named = u.fld (F.SC_CMP_OWN_ID n)
      let claims := 2 ≤ n.val ∧ cur u = 0 ∧ (k = 1 ∨ k = 2)
      (claims → u.onlyRegs t [own] ∧ cur t = k ∧ t.fld (F.SC_CMP_OWN_ID n) = named) ∧
      (frees → cur t = 0 ∧ t.fld (F.SC_CMP_OWN_ID n) = 0 ∧ t.fld (F.SC_CMP_STAT_ARMED n) = 0 ∧ t.fld (F.SC_CMP_STAT_LATE n) = 0 ∧
        t.fld (F.SC_CMP_STAT_HIT n) = u.fld (F.SC_CMP_STAT_HIT n) ∧ u.keepsRegs t [own, stat] ∧
        t.tb.due.getLsbD n = false ∧ t.tb.cmpVal = u.tb.cmpVal ∧ { t with regs := u.regs, tb := { t.tb with due := u.tb.due } } = u) ∧
      (2 ≤ n.val → cur u = 0 → k = 0 → t = u) ∧
      (¬ claims → ¬ frees → ¬ (2 ≤ n.val ∧ cur u = 0 ∧ k = 0) → u.onlyRegs t [stat] ∧ t.rd stat = (u.set1 (F.SC_CMP_STAT_CONFLICT n)).rd stat)) ∧
    Performs (.cmpLoWrite req n v) s req (F.SC_CMP_LO_off n) (fun u t =>
      (mayWrite u → (∀ m, tget (fun _ => 0) t.tb.cmpStage m = if m = n.val then v else tget (fun _ => 0) u.tb.cmpStage m) ∧
        { t with tb := { t.tb with cmpStage := u.tb.cmpStage } } = u) ∧ (¬ mayWrite u → t = u)) ∧
    Performs (.cmpHiWrite req n v) s req (F.SC_CMP_HI_off n) (fun u t =>
      (mayWrite u → (∀ m, t.cmpOf m = if m = n.val then v.setWidth 16 ++ tget (fun _ => 0) u.tb.cmpStage n else u.cmpOf m) ∧
        t.fld (F.SC_CMP_STAT_ARMED n) = 1 ∧ t.fld (F.SC_CMP_STAT_LATE n) = (decide (t.cmpOf n ≤ u.tb.pos)).toNat ∧
        t.fld (F.SC_CMP_STAT_HIT n) = u.fld (F.SC_CMP_STAT_HIT n) ∧
        u.keepsRegs t [stat] ∧ { t with regs := u.regs, tb := { t.tb with cmpVal := u.tb.cmpVal } } = u) ∧ (¬ mayWrite u → t = u))

/-- R25, R41, R42, R52, R176, R428: a slot boundary and a frame boundary: compare values, frame and slot index; the actions of R25 in their order. -/
def Sys2Proof.Claims.Boundaries : Prop :=
  ∀ (s : State) (dt : Nat),
    let k := (s.pass dt).blk
    let hit0 := k.tb.due.getLsbD 0 = true
    let hit1 := k.tb.due.getLsbD 1 = true
    (hit0 → ¬ hit1 → Settles (.slotBoundary dt) s dt fun _ w =>
      let paired := k.twState = 2 ∨ k.twState = 3 ∨ k.twState = 4 ∨ k.twState = 6
      w.cmpOf 0 = k.cmpOf 0 + 4 ∧ (∀ n, n ≠ 0 → w.cmpOf n = k.cmpOf n) ∧ w.tb.due = k.tb.due &&& 0xFE ∧
      w.tb.slot = k.tb.slot + 1 ∧ w.tb.frame = k.tb.frame ∧ w.tb.slotAt = k.tb.dueAt ∧ w.tb.pos = k.tb.pos ∧ w.fld (F.SC_CMP_STAT_HIT 0) = 1 ∧
      w.tw.slotNo = k.tw.slotNo + 1 ∧ w.tw.hbSeen = false ∧
      w.fld F.TW_CNT_HBMISS_COUNT = (if paired ∧ k.tb.slot.toNat % 2 ≠ k.fld F.TW_STAT_SIDE ∧ k.tw.hbSeen = false
        then min (2 ^ F.TW_CNT_HBMISS_COUNT.w - 1) (k.fld F.TW_CNT_HBMISS_COUNT + 1) else k.fld F.TW_CNT_HBMISS_COUNT) ∧
      k.sends w (if paired ∧ w.tb.slot.toNat % 4 = 0 then [.keep] else []) ∧
      k.keepsRegs w [F.TW_CNT_HBMISS_COUNT.off, F.SC_CMP_STAT_off 0] ∧ { w with tb := k.tb, tw := k.tw, regs := k.regs, fresh := k.fresh } = k) ∧
    ((¬ hit0 ∨ hit1) → Happens (.slotBoundary dt) s dt fun u t => t = u) ∧
    (hit1 → Happens (.frameBoundary dt) s dt fun u t => t.mem = u.mem ∧ ∃ w : Blk,
      w.cmpOf 1 = k.cmpOf 1 + 4096 ∧ w.cmpOf 0 = (if hit0 then k.cmpOf 0 + 4 else k.cmpOf 0) ∧ (∀ n, 2 ≤ n → w.cmpOf n = k.cmpOf n) ∧
      w.tb.frame = (k.cmpOf 1).extractLsb' 12 36 ∧ w.tb.slot = 0 ∧ w.tb.slotAt = k.tb.dueAt ∧ w.tb.bndAt = k.tb.dueAt ∧ w.tb.due = k.tb.due &&& 0xFC ∧
      w.tb.pos = k.tb.pos ∧ w.fld (F.SC_CMP_STAT_HIT 1) = 1 ∧ (hit0 → w.fld (F.SC_CMP_STAT_HIT 0) = 1) ∧
      k.keepsRegs w (F.SC_CMP_STAT_off 1 :: if hit0 then [F.SC_CMP_STAT_off 0] else []) ∧
      { w with tb := k.tb, regs := k.regs, fresh := k.fresh } = k ∧
      (let a := { w with ev := { w.ev with storm := [] } }.twSlot k.tb.slot.toNat
       let b := (List.range 32).foldl (fun s c => s.retireStep c) a.tableSwitch
       let c := b.reloadBudgets.powerFrame.twFrame
       let d := ((List.range 32).foldl (fun s b => (s.subFrame b).swapStep b) c).patchFrame
       t.blk = d.gatesMoved.boundaryJobs.settle)) ∧
    (¬ hit1 → Happens (.frameBoundary dt) s dt fun u t => t = u)

/-- R64, R70, R71, R73, R74, R75, R574: arming a table switch, the end of the check of the shadow copy, the cancelling of a switch, which comes too late
in the cycle of the target's boundary, and writes of the slot tables and budget sets. -/
def Sys2Proof.Claims.TableSwitching : Prop :=
  ∀ (s : State) (dt : Nat) (req : Req) (v : Word) (parity : Bool) (off : BitVec 22),
    let state (u : Blk) : Nat := u.fld F.SC_TBL_STAT_STATE
    let ctl := [F.SC_TBL_CTRL_off, F.SC_TBL_STAT_off]
    let stands (t : Blk) (n : Nat) : Prop := state t = n ∧ t.fld F.SC_TBL_CTRL_ARM = if n = 0 then 0 else 1
    let due (u : Blk) : Prop := state u = 1 ∧ u.sched.checkAt + 1040 ≤ u.now
    let o := off.toNat
    let area : Option Nat := if 0x120000 ≤ o ∧ o < 0x128000 ∨ 0x6400 ≤ o ∧ o < 0x6600 then some 0
      else if 0x128000 ≤ o ∧ o < 0x130000 ∨ 0x6600 ≤ o ∧ o < 0x6800 then some 1 else none
    let checked (par : Bool) (k t : Blk) : Prop :=
      let shadow := 1 - k.fld F.SC_TBL_STAT_ACT
      let sum := crc32c (k.windowBytes (0x120000 + 0x8000 * shadow) 8192 ++ k.windowBytes (0x6400 + 0x200 * shadow) 128)
      let badSum := sum ≠ k.rd F.SC_TBL_SUM_off
      let badPar := par = true ∨ ∃ b, b ∈ k.sched.badParity ∧ 0x120000 + 0x8000 * shadow ≤ b ∧ b < 0x128000 + 0x8000 * shadow
      let frame : FrameIx := if k.tb.due.getLsbD 1 then (k.cmpOf 1).extractLsb' 12 36 else k.tb.frame
      let target : FrameIx := if k.fld F.SC_TBL_CTRL_NEXT = 1 then frame + 1
        else BitVec.ofNat 36 (k.fld F.SC_TBL_TGT_HI_TGT * 2 ^ 32 + k.fld F.SC_TBL_TGT_LO_TGT)
      let late := target ≤ frame
      t.rd F.SC_TBL_CALC_off = sum ∧ (badSum → t.fld F.SC_TBL_STAT_SUMERR = 1) ∧
      (badPar → t.fld F.SC_TBL_STAT_PARERR = 1) ∧ (late → t.fld F.SC_TBL_STAT_LATE = 1) ∧
      (¬ badSum → t.fld F.SC_TBL_STAT_SUMERR = k.fld F.SC_TBL_STAT_SUMERR) ∧ (¬ badPar → t.fld F.SC_TBL_STAT_PARERR = k.fld F.SC_TBL_STAT_PARERR) ∧
      (¬ late → t.fld F.SC_TBL_STAT_LATE = k.fld F.SC_TBL_STAT_LATE) ∧
      (¬ badSum → ¬ badPar → ¬ late → stands t 2 ∧ t.sched = { k.sched with target := target, armedAt := k.now, byNext := k.fld F.SC_TBL_CTRL_NEXT != 0 } ∧
        k.keepsRegs t (F.SC_TBL_CALC_off :: ctl) ∧ { t with regs := k.regs, sched := k.sched } = k) ∧
      (badSum ∨ badPar ∨ late → stands t 0 ∧ t.sched = k.sched ∧
        k.tells t 27 (some (if badSum then 0x10 else if late then 0x11 else 0x12, 0)) (F.SC_TBL_CALC_off :: ctl) ∧ k.alikeButRegs t)
    let written (arm cancel : Nat) (u t : Blk) : Prop :=
      t.fld F.SC_TBL_CTRL_NEXT = F.SC_TBL_CTRL_NEXT.get v ∧ u.keepsRegs t ctl ∧ { t with regs := u.regs, sched := u.sched } = u ∧
      (state u = 0 → arm = 1 → stands t 1 ∧ t.sched = { u.sched with checkAt := u.now }) ∧
      (state u = 0 → arm = 0 → state t = 0 ∧ t.sched = u.sched) ∧
      (1 ≤ state u → cancel = 0 → state t = state u ∧ t.sched = u.sched) ∧
      (let tooLate := state u = 2 ∧ u.tb.due.getLsbD 1 = true ∧ u.sched.target ≤ (u.cmpOf 1).extractLsb' 12 36 ∧ u.sched.armedAt ≠ u.now
       (1 ≤ state u → cancel = 1 → tooLate → state t = state u ∧ t.sched = u.sched) ∧
       (1 ≤ state u → cancel = 1 → ¬ tooLate → stands t 0 ∧ t.sched = { u.sched with
         cancelAt := if state u ≠ 2 then u.sched.cancelAt else if u.sched.armedAt = u.now then none else some u.now }))
    let judged (arm cancel : Nat) (u t : Blk) : Prop :=
      (¬ due u → written arm cancel u t) ∧ (due u → ∃ w, checked false u w ∧ written arm cancel w t)
    Performs (.tableArm req v) s req F.SC_TBL_CTRL_off (judged 1 (F.SC_TBL_CTRL_CANCEL.get v)) ∧
    Performs (.tableCancel req v) s req F.SC_TBL_CTRL_off (judged (F.SC_TBL_CTRL_ARM.get v) 1) ∧
    (Happens (.tableCheckComplete dt parity) s dt fun u t => u.keepsMem t ∧
      (¬ due u.blk → t = u) ∧ (due u.blk → checked parity u.blk t.blk)) ∧
    (∀ c, area = some c → o % 4 = 0 → Performs (.slotTableWrite req off v) s req o fun u t =>
      (state u = 0 → c ≠ u.fld F.SC_TBL_STAT_ACT → t.rd o = v ∧ u.keepsRegs t [o] ∧
        (∀ b, b ∈ t.sched.badParity ↔ b ∈ u.sched.badParity ∧ b / 4 ≠ o / 4) ∧ { t with regs := u.regs, sched := u.sched } = u) ∧
      ((state u ≠ 0 ∨ c = u.fld F.SC_TBL_STAT_ACT) → u.onlyRegs t [F.SC_TBL_STAT_off] ∧ t.rd F.SC_TBL_STAT_off = (u.set1 F.SC_TBL_STAT_WREF).rd F.SC_TBL_STAT_off)) ∧
    (∀ c, area = some c → o % 4 ≠ 0 → s.blk.phase = .running →
      exec (.slotTableWrite req off v) s = .next { s with blk := s.blk.accErr req true 0 o })

/-- R25, R69, R70, R76: the table switch and the reload of the budgets at a frame boundary. -/
def Sys2Proof.Claims.FrameTables : Prop :=
  ∀ (s : Blk),
    (let armed := s.fld F.SC_TBL_STAT_STATE = 2
     let here := s.sched.armedAt = s.tb.bndAt
     let back := s.sched.cancelAt = some s.tb.bndAt
     let t := s.tableSwitch
     let ctl := [F.SC_TBL_CTRL_off, F.SC_TBL_STAT_off]
     ((armed ∧ ¬ here) ∨ (¬ armed ∧ back) → s.sched.target ≤ s.tb.frame →
      t.fld F.SC_TBL_STAT_ACT = 1 - s.fld F.SC_TBL_STAT_ACT ∧ t.fld F.SC_TBL_STAT_STATE = 0 ∧ t.fld F.SC_TBL_CTRL_ARM = 0 ∧
      t.rd F.SC_TBL_SWF_LO_off = BitVec.ofNat 32 s.tb.frame.toNat ∧ t.fld F.SC_TBL_SWF_HI_SWF = s.tb.frame.toNat / 2 ^ 32 ∧
      s.tells t 26 none [F.SC_TBL_CTRL_off, F.SC_TBL_STAT_off, F.SC_TBL_SWF_LO_off, F.SC_TBL_SWF_HI_off] ∧
      t.sched = { s.sched with cancelAt := none } ∧ s.alikeButRegs { t with sched := s.sched }) ∧
     (armed → here → s.sched.target ≤ s.tb.frame → s.sched.byNext = true → s.tb.frame + 1 ≠ 0 →
      t = { s with sched := { s.sched with target := s.tb.frame + 1 } }) ∧
     (armed → here → s.sched.target ≤ s.tb.frame → (s.sched.byNext = false ∨ s.tb.frame + 1 = 0) → ¬ back →
      t.fld F.SC_TBL_STAT_STATE = 0 ∧ t.fld F.SC_TBL_CTRL_ARM = 0 ∧ t.fld F.SC_TBL_STAT_LATE = 1 ∧ t.fld F.SC_TBL_STAT_ACT = s.fld F.SC_TBL_STAT_ACT ∧
      s.tells t 27 (some (0x11, 0)) ctl ∧ s.alikeButRegs t) ∧
     ((¬ armed ∧ ¬ back) ∨ s.tb.frame < s.sched.target → t = s)) ∧
    (let t := s.reloadBudgets
     let act := s.fld F.SC_TBL_STAT_ACT
     { t with regs := s.regs } = s ∧
     ∀ (ch : Chan) (o : Nat), 1 ≤ o → o ≤ 7 →
       let n := s.fld (budgetFld act o ch)
       t.fld (liveFld o ch) = n ∧ t.fld (zmapFld o ch) = (if n = 0 then 1 else 0)) ∧
    (∀ (ch : Chan) (o : Nat), 1 ≤ o → o ≤ 7 →
       let n := s.fld (liveFld o ch)
       let t := s.charge o ch
       ((n = 0 ∨ n = 0xFFFF) → t = s) ∧
       (1 < n → n < 0xFFFF → s.onlyRegs t [(liveFld o ch).off] ∧ t.fld (liveFld o ch) = n - 1) ∧
       (n = 1 → t.fld (liveFld o ch) = 0 ∧ t.fld (zmapFld o ch) = 1 ∧
         s.tells t (if o = 1 then 28 else 29) none [(liveFld o ch).off, (zmapFld o ch).off]))

/-- R17, R80 to R83, R86, R88 to R96, R98 to R101, R108, R114, R160: an M2S message: no credit, a full ledger, or an entry with its captured words,
check value and count; the lookup's error, or the entry's first decision, which is made at the end of the cycle, port by port and in each port in the
order of acceptance. -/
def Obligations.MemoryRequests : Prop :=
  ∀ (s : State) (dt : Nat) (p : Port) (m : M2S) (op : MemOp) (pois : Bool) (data : Line) (mask : BitVec 64),
    let k := (s.pass dt).blk
    let cmd : Instr := match op with
      | .rd => .memRd dt p m
      | .wr => .memWr dt p m pois data
      | .ptl => .memWrPtl dt p m pois data mask
    let credit := k.fld (F.HP_CTRL_EN p) = 1 ∧ k.fld F.TW_CTRL_LEAVE = 0
    let isFree (j : Nat) : Prop := (k.ent p (j % 8192)).st = .free
    let full (w : Blk) : Prop := k.onlyRegs w [F.HP_STAT_off p] ∧ w.rd (F.HP_STAT_off p) = (k.set1 (F.HP_STAT_LEDFULL p)).rd (F.HP_STAT_off p)
    let does := Settles cmd s dt
    let a : PAddr := BitVec.ofNat 48 (m.addr.toNat / 64 * 64)
    let seg := m.addr.toNat / 2 ^ 36
    let w0 := k.segWord0 seg 0
    let w1 := k.segWord0 seg 1
    let w2 := k.segWord0 seg 2
    let data : Line := if op = .rd then 0 else data
    let mask : BitVec 64 := match op with | .rd => 0 | .wr => BitVec.allOnes 64 | .ptl => mask
    let pois := op != .rd && pois
    let bad := k.segEcc0 seg = true ∨ m.ecc ≠ []
    let invalid := segValid w0 w1 w2 = false
    let closed := w0.getLsbD (20 + p.val) = false
    let bell := op = .ptl ∧ segCMDSEG w0 = true ∧ m.addr.toNat % 2 ^ 36 < 2 ^ 26 ∧ m.addr.toNat / 64 % 2 ^ 14 = 0 ∧ k.fld (F.HP_CTRL_CMDEN p) = 1
    let fails (c : Nat) : Prop := (1 ≤ c ∧ c ≤ 4) ∧ (c = 3 → bad) ∧ (c = 1 → ¬ bad ∧ invalid) ∧ (c = 2 → ¬ bad ∧ ¬ invalid ∧ closed) ∧
      (c = 4 → ¬ bad ∧ ¬ invalid ∧ ¬ closed ∧ bell)
    let cls := wordFld w0 24 2 + 1
    let cnt := if op = .rd then F.HP_CNT_RD_COUNT p else F.HP_CNT_WR_COUNT p
    let shared := (k.twState = 2 ∨ k.twState = 3 ∨ k.twState = 4 ∨ k.twState = 6) ∧ (segMIRR w0 = true ∨ cls = 1)
    let base : Led := { Led.blank with
      st := .opn, op := op, cls := cls, mirr := segMIRR w0, pois := pois, mval := if op = .rd then 0 else m.mta.getD 0, tag := m.tag,
      bay := if segREMOTE w0 then seg % 32 else lineChan w0 w1 w2 a % 32, stamp := BitVec.ofNat 20 k.us, addr := a,
      chk := match op with | .rd => 0 | .wr => mint data a (segKEYGEN w0) | .ptl => mint (maskLine data mask) a (segKEYGEN w0),
      w0 := w0, w1 := w1, w2 := w2, data := data, mask := mask, seq := k.seqNo, acc := k.now, wait := true }
    let took (v : Blk) : Prop := v.seqNo = k.seqNo + 1 ∧ v.fld cnt = min (2 ^ cnt.w - 1) (k.fld cnt + 1) ∧ k.keepsRegs v [cnt.off] ∧
      (∀ n, (pget v.segBad n).isSome ↔ ((pget k.segBad n).isSome ∨ ∃ j, j ∈ m.ecc ∧ n = 4 * seg + j.val)) ∧
      { v with led := k.led, seqNo := k.seqNo, segBad := k.segBad, regs := k.regs, fresh := k.fresh, tw := k.tw } = k
    let others (w : Blk) (i : Nat) : Prop := ∀ n, n ≠ ledKey p i → tget (fun _ => Led.blank) w.led n = tget (fun _ => Led.blank) k.led n
    (¬ credit → does fun _ w => w = k) ∧
    (credit → (∀ j, ¬ isFree j) → does fun _ w => full w) ∧
    (credit → (∃ j, isFree j) → op ≠ .rd → 1024 ≤ k.wrBufs p → does fun _ w => full w) ∧
    (∀ d, d < 8192 → (∀ j, j < d → ¬ isFree (m.hint.val + j)) → isFree (m.hint.val + d) → credit → (op = .rd ∨ k.wrBufs p < 1024) →
      let i := (m.hint.val + d) % 8192
      (∀ c, fails c → does fun _ w => w.ent p i = { base with st := .resp, wait := false, rsp := some ⟨op == .rd, 0, op == .rd, 0, w.devLoad p⟩ } ∧ others w i ∧
        w.seqNo = k.seqNo + 1 ∧ w.fld cnt = min (2 ^ cnt.w - 1) (k.fld cnt + 1) ∧ w.tw = k.tw ∧ w.jobs = k.jobs ∧ w.mu = k.mu ∧
        k.tells w (35 + 2 * p.val) (some (c, i * 2 ^ 16 + seg)) [cnt.off]) ∧
      ((∀ c, ¬ fails c) → does fun _ w => took w ∧ others w i ∧ w.ent p i = { base with copied := decide shared } ∧
        k.sends w (if shared then [.lcpy ⟨p, Fin.ofNat 8192 i, op, BitVec.ofNat 3 cls, segMIRR w0, m.tag, a, pois, m.mta.getD 0, base.chk, data, mask⟩]
          else []))) ∧
    (∀ (v : Blk) (i : Nat), v.decides (v.route p i) p i) ∧
    (∀ v : Blk, ∃ l : List (Nat × Led), (∀ x, x ∈ l ↔ x ∈ v.led ∧ x.1 / 8192 < 4 ∧ x.2.wait = true ∧ x.2.st = .opn) ∧
      l.Pairwise (fun x y => x.1 / 8192 < y.1 / 8192 ∨ (x.1 / 8192 = y.1 / 8192 ∧ x.2.seq ≤ y.2.seq)) ∧
      v.decideAll = l.foldl (fun b x => b.route (x.1 / 8192) (x.1 % 8192)) (l.foldl Blk.renumber v))

/-- R85, R95 to R97, R102, R104, R105, R108, R110, R114, R115, R160: a HELD entry's release, the hand-over of a response, the two transaction limits,
the ledger scan, and the registers that capture an entry and set the limit. -/
def Sys2Proof.Claims.LedgerProgress : Prop :=
  ∀ (s : State) (dt : Nat) (req : Req) (p : Port) (idx : Fin 8192) (v : Word),
    let k := (s.pass dt).blk
    let i := idx.val
    let e := k.ent p i
    let stands (x : Led) : Prop := x.st ≠ .free ∧ x.st ≠ .resp
    let others (u w : Blk) : Prop := ∀ n, n ≠ ledKey p i → tget (fun _ => Led.blank) w.led n = tget (fun _ => Led.blank) u.led n
    let live := k.twState = 2 ∨ k.twState = 3 ∨ k.twState = 4 ∨ k.twState = 6
    let waits := k.conflicts e.addr (e.op != .rd) e.seq = true
    let seg (x : Led) : Nat := x.addr.toNat / 2 ^ 36
    (e.st = .held → ¬ waits → Settles (.heldRelease dt p idx) s dt fun u w =>
      w = u.setEnt p i { e with st := .opn, wait := true, acc := u.now - 2 }) ∧
    ((e.st ≠ .held ∨ waits) → Settles (.heldRelease dt p idx) s dt fun u w => w = u) ∧
    (∀ r, e.st = .resp → e.rsp = some r → k.twState ≠ 7 → e.flip = none → k.s2mFull p = false → Settles (.responseHandover dt p idx) s dt fun u w =>
      w.s2m = u.s2m ++ [⟨p, e.tag, r⟩] ∧ (w.ent p i).st = .free ∧ others u w ∧
      w.fld (F.HP_CNT_POIS_COUNT p) = (if r.pois then min (2 ^ (F.HP_CNT_POIS_COUNT p).w - 1) (u.fld (F.HP_CNT_POIS_COUNT p) + 1)
        else u.fld (F.HP_CNT_POIS_COUNT p)) ∧ u.keepsRegs w [(F.HP_CNT_POIS_COUNT p).off] ∧
      u.sends w (if e.copied = true ∧ live then [.lfree p idx] else []) ∧
      { w with s2m := u.s2m, led := u.led, regs := u.regs, fresh := u.fresh, tw := u.tw } = u) ∧
    (∀ r, e.st = .resp → e.rsp = some r → k.twState ≠ 7 → e.flip ≠ none → Settles (.responseHandover dt p idx) s dt fun u w =>
      w.s2m = u.s2m ∧ (w.ent p i).st = .free ∧ others u w ∧ u.tells w (34 + 2 * p.val) (some (0x20, i * 2 ^ 16)) [] ∧
      u.sends w (if e.copied = true ∧ live then [.lfree p idx] else [])) ∧
    ((e.st ≠ .resp ∨ e.rsp = none ∨ k.twState = 7 ∨ (e.flip = none ∧ k.s2mFull p = true)) →
      Settles (.responseHandover dt p idx) s dt fun u w => w = u) ∧
    (Expires (.txnLimitExpiry dt p idx) s dt (.txn p i) fun u w =>
      let x := u.ent p i
      let out := stands x ∧ x.tout = false ∧ u.fld (F.HP_TXN_LIMIT_LIMIT p) + 1 ≤ (u.us + 2 ^ 20 - x.stamp.toNat) % 2 ^ 20
      let cnt := F.HP_CNT_TOUT_COUNT p
      let told (y : Blk) : Prop := y.ent p i = { x with tout := true } ∧ others u y ∧
        u.tells y (34 + 2 * p.val) (some (0x21, i * 2 ^ 16 + seg x)) [cnt.off] ∧ y.fld cnt = min (2 ^ cnt.w - 1) (u.fld cnt + 1) ∧
        { y with led := u.led, regs := u.regs, fresh := u.fresh, ev := u.ev } = u
      let decided := ∃ c, (∃ d m, x.got = some (c, .rd (.line d m false)) ∧ c + 6 ≤ u.now ∧ mint d x.addr (segKEYGEN x.w0) = m.extractLsb' 8 24) ∨
        (x.got = some (c, .rd .listed) ∧ c + 5 ≤ u.now ∧ x.mirr = false)
      (out → ∃ y, told y ∧ (x.st = .held → w = y.toEngine p i .held) ∧
        (x.st = .direct → decided → w = y) ∧
        (x.st = .direct → ¬ decided → w.ent p i = { x with tout := true, st := .engine, path := true, own := true } ∧
          ∃ j, pget w.jobs u.jobNo = some j ∧ j.owner = .led p i ∧ j.phase = (if x.op = .rd then .read else .write)) ∧
        (x.st = .twin → w = y.setEnt p i { x with tout := true, st := .engine }) ∧ (x.st = .engine → w = y.edge x.bay) ∧ (x.st = .opn → w = y)) ∧
      (¬ out → w = u)) ∧
    (Expires (.txnFail dt p idx) s dt (.txnFail p i) fun u w =>
      let x := u.ent p i
      let lost := stands x ∧ x.tout = true ∧ x.failing = false ∧
        2 * u.fld (F.HP_TXN_LIMIT_LIMIT p) + 1 ≤ (u.us + 2 ^ 20 - x.stamp.toNat) % 2 ^ 20
      let marked := u.setEnt p i { x with failing := true }
      (lost → x.own = true → w = marked) ∧
      (lost → x.own = false → u.jobOf (.led p i) = none → (w.ent p i).st = .resp ∧ others u w ∧
        (pwf u.led = true → (w.ent p i).rsp = some ⟨x.op == .rd, 0, x.op == .rd, 0, w.devLoad p⟩) ∧
        u.tells w (34 + 2 * p.val) (some (0x22, i * 2 ^ 16 + seg x)) []) ∧
      (∀ id j, lost → x.own = false → u.jobOf (.led p i) = some (id, j) →
        (j.op = .rd → w = marked.finish id (.bad 0x22)) ∧
        (j.op ≠ .rd → (j.phase = .held ∨ j.phase = .boundary) → w = marked.setJob id { j with bad := true, phase := .held }) ∧
        (j.op ≠ .rd → j.phase ≠ .held → j.phase ≠ .boundary →
          let bad := { j with bad := true, phase := .held, media := false, gen := none, loc := none, rmt := none }
          w = ((marked.stagedOnly id).addJob bad).go u.jobNo bad)) ∧
      (¬ lost → w = u)) ∧
    (∀ ce bits, idx ∉ ce → stands e → k.jobOf (.led p i) = none → Settles (.ledgerScan dt p ce [(idx, bits)]) s dt fun u w =>
      (w.ent p i).st = .free ∧ others u w ∧ u.tells w (34 + 2 * p.val) (some (0x20, i * 2 ^ 16)) [] ∧ w.s2m = u.s2m ∧
      u.sends w (if e.copied = true ∧ live then [.lfree p idx] else [])) ∧
    (∀ ce bits, idx ∉ ce → ¬ stands e → Settles (.ledgerScan dt p ce [(idx, bits)]) s dt fun u w => w = u.setEnt p i { e with flip := some bits }) ∧
    (∀ (ce : List (Fin 8192)) (ue : List (Fin 8192 × BitVec 128)), (∀ j, j ∈ ue → j.1 ∈ ce) →
      Settles (.ledgerScan dt p ce ue) s dt fun u w => w = u) ∧
    Writes (.ledgerCapture req p v) s req (F.HP_LED_IDX_off p) (fun u w =>
      let n := (F.HP_LED_IDX_IDX p).get v
      let b := (u.ent p n).bits ^^^ (u.ent p n).flip.getD 0
      w.fld (F.HP_LED_IDX_IDX p) = n ∧ (∀ j, j < 4 → w.rd (F.HP_LED_DATA_off p j) = b.extractLsb' (32 * j) 32) ∧
      u.onlyRegs w (F.HP_LED_IDX_off p :: (List.range 4).map (F.HP_LED_DATA_off p))) ∧
    Writes (.txnLimitWrite req p v) s req (F.HP_TXN_LIMIT_off p) (fun u w => u.onlyRegs w [F.HP_TXN_LIMIT_off p] ∧
      w.fld (F.HP_TXN_LIMIT_LIMIT p) = max 10 ((F.HP_TXN_LIMIT_LIMIT p).get v))

/-- R94: the 128 bits of a ledger entry. -/
def Sys2Proof.Claims.LedgerEntryBits : Prop :=
  ∀ (e : Led), e.cls < 8 → e.bay < 32 →
    let b := e.bits
    let opc : Nat := match e.op with | .rd => 0 | .wr => 1 | .ptl => 2
    (b.extractLsb' 124 4).toNat = e.st.code ∧ (b.extractLsb' 122 2).toNat = opc ∧ (b.extractLsb' 119 3).toNat = e.cls ∧
    b.getLsbD 118 = e.path ∧ b.getLsbD 117 = e.mirr ∧ b.getLsbD 116 = e.mled ∧ b.getLsbD 115 = e.pois ∧ b.extractLsb' 113 2 = e.mval ∧
    b.getLsbD 112 = e.dbell ∧ (b.extractLsb' 107 5).toNat = e.bay ∧ b.extractLsb' 91 16 = e.tag ∧ b.extractLsb' 71 20 = e.stamp ∧
    b.extractLsb' 29 42 = e.addr.extractLsb' 6 42 ∧ b.extractLsb' 5 24 = e.chk ∧ b.getLsbD 4 = e.tout ∧ b.extractLsb' 0 4 = 0

/-- R89, R95, R96, R102, R103, R108, R110, R135: what ends an entry: the answer of its Direct Path command and the end of its engine access, each with
its response, its event, and for a write to a doorbell line the posted work. -/
def Sys2Proof.Claims.LedgerEnds : Prop :=
  ∀ (s : Blk) (p : Port) (i : Nat),
    let e := s.ent p i
    let seg := e.addr.toNat / 2 ^ 36
    let answered (t : Blk) (r : Rsp) : Prop := (t.ent p i).st = .resp ∧ (t.ent p i).rsp = some r ∧
      ∀ n, n ≠ ledKey p i → tget (fun _ => Led.blank) t.led n = tget (fun _ => Led.blank) s.led n
    let data (t : Blk) (d : Line) (m : Word) : Prop := answered t ⟨true, d, m.getLsbD 1, m.extractLsb' 2 2, t.devLoad p⟩
    let lost (t : Blk) : Prop := answered t ⟨e.op == .rd, 0, e.op == .rd, 0, t.devLoad p⟩
    let done (t : Blk) : Prop := answered t ⟨false, 0, false, 0, t.devLoad p⟩
    let told (t : Blk) (n code : Nat) (but : List Nat) : Prop := s.tells t (n + 2 * p.val) (some (code, i * 2 ^ 16 + seg)) but
    let bell := e.op = .wr ∧ segCMDSEG e.w0 = true ∧ e.addr.toNat % 2 ^ 36 < 2 ^ 26 ∧ e.addr.toNat / 64 % 2 ^ 14 = 0 ∧ s.fld (F.HP_CTRL_CMDEN p) = 1
    let posts (t : Blk) : Prop := t.bells = if bell then s.bells ++ [⟨seg % 32, p, i, seg, e.addr.toNat / 2 ^ 20 % 64, e.data⟩] else s.bells
    let cnt := F.HP_CNT_DP_COUNT p
    let counted (t : Blk) : Prop := t.fld cnt = min (2 ^ cnt.w - 1) (s.fld cnt + 1)
    i < 8192 → pwf s.led = true → e.st ≠ .free → e.st ≠ .resp →
    (∀ d m, data (s.ledDone p i (.line d m)) d m ∧ (s.ledDone p i (.line d m)).regs = s.regs) ∧
    (∀ code, code < 256 → code ≠ 0x20 → lost (s.ledDone p i (.bad code)) ∧ told (s.ledDone p i (.bad code)) (if code = 0x22 then 34 else 35) code []) ∧
    (done (s.ledDone p i .wrote) ∧ posts (s.ledDone p i .wrote) ∧ (s.ledDone p i .wrote).regs = s.regs) ∧
    (lost (s.ledDone p i .refused) ∧ told (s.ledDone p i .refused) 34 0x23 [] ∧ (s.ledDone p i .refused).bells = s.bells) ∧
    (lost (s.ledDone p i .failed) ∧ told (s.ledDone p i .failed) 34 0x22 []) ∧
    (e.st = .direct → e.own = false →
      (∀ d m, mint d e.addr (segKEYGEN e.w0) = m.extractLsb' 8 24 → data (s.dpRead p i (.line d m false)) d m ∧ counted (s.dpRead p i (.line d m false))) ∧
      (e.mirr = false → (let t := s.dpRead p i .listed; answered t ⟨true, 0, true, 0, t.devLoad p⟩ ∧ counted t)) ∧
      (∀ o, (o = .bad ∨ (o = .listed ∧ e.mirr = true) ∨ ∃ d m, o = .line d m true ∨ (o = .line d m false ∧ mint d e.addr (segKEYGEN e.w0) ≠ m.extractLsb' 8 24)) →
        s.jobOf (.led p i) = none → ∃ j, (s.toEngine p i .read).jobOf (.led p i) = some (s.jobNo, j) ∧
          s.dpRead p i o = (s.toEngine p i .read).jobGot s.jobNo j o) ∧
      (let t := s.dpWrite p i .acked; done t ∧ posts t ∧ counted t) ∧
      (let t := s.dpWrite p i .refused; done t ∧ counted t ∧ told t 34 0x23 [cnt.off] ∧ t.bells = s.bells))

/-- R88, R90, R157, R181, R566: a write of a segment-table word, restricted while the entry is valid, with fresh check bits, and the recomputation of
TW_SEGSUM that a mirrored segment's change of VALID starts; its end. -/
def Sys2Proof.Claims.SegmentTable : Prop :=
  ∀ (s : State) (dt : Nat) (req : Req) (seg : BitVec 12) (word : Fin 4) (v : Word),
    let g := seg.toNat
    let off := 0x100000 + 16 * g + 4 * word.val
    let tagged (u : Blk) : Prop := ∃ n, n < 4 ∧ (pget u.segBad (4 * g + n)).isSome
    let locked (u : Blk) : Prop := (u.segWord g 0).getLsbD 31 = true ∧ ¬ tagged u
    let fields : Word := match word.val with
      | 0 => 0xFFFFFF00
      | 1 => 0x03FF071F
      | 2 => 0x000F00FF
      | _ => 0
    let may : Word := if word.val = 0 then 0x83F00000 else 0
    let new := v &&& fields
    let old (u : Blk) := u.rd off
    let stat := (List.range 4).map fun p => F.HP_STAT_off p
    Writes (.segmentTableWrite req seg word v) s req off (fun u w => ∃ x : Blk,
      (locked u → x.rd off = (old u &&& ~~~may) ||| (new &&& may) ∧ x.segBad = u.segBad ∧ u.keepsRegs x (off :: stat) ∧
        ∀ p, p < 4 → x.fld (F.HP_STAT_SEGREF p) = if (new ^^^ old u) &&& ~~~may = 0 then u.fld (F.HP_STAT_SEGREF p) else 1) ∧
      (¬ locked u → x.rd off = new ∧ pget x.segBad (4 * g + word.val) = none ∧
        (∀ n, n ≠ 4 * g + word.val → pget x.segBad n = pget u.segBad n) ∧ u.keepsRegs x [off]) ∧
      { x with regs := u.regs, fresh := u.fresh, segBad := u.segBad } = u ∧
      (let sums := (x.segWord g 0).getLsbD 29 = true ∧ (x.segWord g 0).getLsbD 31 ≠ (u.segWord g 0).getLsbD 31
       (¬ sums → w = x) ∧
       (sums → u.tw.sumAt = none → w = { x with tw := { x.tw with sumAt := some u.now } }) ∧
       (sums → u.tw.sumAt ≠ none → w = { x with tw := { x.tw with sumWait := true } }))) ∧
    (let k := (s.pass dt).blk
     let done := ∃ t, k.tw.sumAt = some t ∧ t + 4096 ≤ k.now
     (¬ done → Settles (.segsumComputeDone dt) s dt fun u w => w = u) ∧
     (done → Settles (.segsumComputeDone dt) s dt fun u w => ∃ x : Blk, x.rd F.TW_SEGSUM_off = u.segSum ∧ u.keepsRegs x [F.TW_SEGSUM_off] ∧
       x.tw = { u.tw with sumAt := if u.tw.sumWait then some u.now else none, sumWait := false } ∧ { x with regs := u.regs, tw := u.tw } = u ∧
       (let linking := u.twState = 1 ∧ u.tw.helloTx = none
        (¬ linking → w = x) ∧
        (linking → w.tw.txNo = x.tw.txNo + 1 ∧ w.tw.tx = x.tw.tx ++ [(x.tw.txNo, .hello x.helloNow)] ∧
          (x.tw.helloRx = none → w.tw.helloTx = some x.helloNow ∧ w.regs = x.regs) ∧
          (∀ part, x.tw.helloRx = some part → helloCheck x.helloNow part = none → w.tw.agreedAt = some (if u.now = u.tb.slotAt then u.tw.slotNo else u.tw.slotNo + 1) ∧ w.regs = x.regs) ∧
          (∀ part c, x.tw.helloRx = some part → helloCheck x.helloNow part = some c → w.twState = 0 ∧ w.tw.helloTx = none ∧ w.tw.helloRx = none ∧
            x.tells w 10 (some (c, 0)) [F.TW_STAT_off])))))

/-- R21, R116, R117, R146: the place of a line on its channel, the inverse walk of a share, and the channel's lines that stay apart: distinct lines of
a segment have distinct places. -/
def Sys2Proof.Claims.LinePlacement : Prop :=
  ∀ (w1 w2 : Word) (seg : Nat), segCHLOG w1 ≤ 5 → segCHBASE w1 % 2 ^ segCHLOG w1 = 0 → seg < 4096 →
    let n := segCHLOG w1
    (∀ a : PAddr, segCHBASE w1 ≤ (linePlace w1 w2 a).1 ∧ (linePlace w1 w2 a).1 < segCHBASE w1 + 2 ^ n ∧
      shareBase w2 ≤ (linePlace w1 w2 a).2 ∧ (linePlace w1 w2 a).2 < shareBase w2 + shareSize w1) ∧
    (∀ a b : PAddr, a.toNat / 2 ^ 36 = b.toNat / 2 ^ 36 → linePlace w1 w2 a = linePlace w1 w2 b → a.toNat / 64 = b.toNat / 64) ∧
    (∀ a b : PAddr, a.toNat / 2 ^ 36 = b.toNat / 2 ^ 36 → pagePlace w1 a = pagePlace w1 b → a.toNat / 4096 = b.toNat / 4096) ∧
    (∀ ch u, segCHBASE w1 ≤ ch → ch < segCHBASE w1 + 2 ^ n → u < shareSize w1 →
      linePlace w1 w2 (shareAddr w1 seg ch u) = (ch, shareBase w2 + u) ∧ (shareAddr w1 seg ch u).toNat / 2 ^ 36 = seg)

/-- R120 to R122, R124, R125, R129 to R132, R135, R575: the beats of a codeword, and what the codec makes of it: a line of the poison list and a fenced channel, the clean line, the
corrected one, the uncorrectable one with its counts, and the location that it starts. -/
def Sys2Proof.Claims.CodecOutcomes : Prop :=
  ∀ (s : Blk) (c : Chan) (cl : Nat) (cw : Codeword), cl < 2 ^ 33 →
    let n := s.mapIdx c cl
    let m := s.marked c cl
    let r := s.codec c cl cw
    let t := r.1
    let ce := F.MU_CE_CNT_COUNT c
    let ue := F.MU_UE_CNT_COUNT c
    let clRegs := [F.MU_ERR_CL_LO_off c, F.MU_ERR_CL_HI_off c, ue.off]
    let plus1 (f : Fld) : Nat := min (2 ^ f.w - 1) (s.fld f + 1)
    let info : Nat := m.getD 15 * 2 ^ 28 + n * 2 ^ 24
    let reported (code : Nat) (but : List Nat) : Prop := t.rd (F.MU_ERR_CL_LO_off c) = BitVec.ofNat 32 cl ∧
      t.fld (F.MU_ERR_CL_HI_CL c) = cl / 2 ^ 32 ∧ t.fld ue = plus1 ue ∧ s.tells t (187 + 2 * c.val) (some (code, info)) (clRegs ++ but)
    let good (x : Codeword) (fixed unk : Bool) : Prop := r.2 = (.line (x.extractLsb' 0 512) (x.extractLsb' 512 32) fixed, unk)
    let bit0 (x : Codeword) := x.getLsbD 512
    let frame : Prop := { t with regs := s.regs, fresh := s.fresh, ev := s.ev, mu := s.mu } = s
    (∀ i b, i < 40 → b < 16 → let beat := 4 * (i % 4) + b / 4
      (beatOf (toBeats cw) (beat / 2)).getLsbD (40 * (beat % 2) + 4 * (i / 4) + b % 4) = cw.getLsbD (16 * i + b)) ∧ ofBeats (toBeats cw) = cw ∧
    frame ∧
    (decode cw m = .clean → (bit0 cw = false → good cw false false ∧ t = s) ∧ (bit0 cw = true → r.2 = (.bad, false) ∧ reported 5 [])) ∧
    (∀ x k, decode cw m = .fixed x k →
      let counts := m = none ∨ k ≠ 0
      let thr := s.fld (F.MU_CE_THR_THR c)
      (bit0 x = false → good x true (decide counts)) ∧ (bit0 x = true → r.2 = (.bad, decide counts)) ∧
      t.fld ce = (if counts then plus1 ce else s.fld ce) ∧
      (bit0 x = true → t.fld ue = plus1 ue) ∧
      (bit0 x = false → ¬ counts → t = s) ∧
      (bit0 x = false → counts → (thr = 0 ∨ thr ≠ plus1 ce) → s.onlyRegs t [ce.off]) ∧
      (bit0 x = false → counts → thr ≠ 0 → thr = plus1 ce → s.tells t (186 + 2 * c.val) none [ce.off])) ∧
    (decode cw m = .failed → r.2 = (.bad, false) ∧ t.fld ue = plus1 ue ∧
      (m = none → reported 1 [] ∧ (s.bit (F.MU_CTRL_LOCEN c) = false → t.mu = s.mu) ∧
        (s.bit (F.MU_CTRL_LOCEN c) = true → t.slice c = { s.slice c with loc := (s.slice c).loc ++ [(s.now, cl, cw)] })) ∧
      (m ≠ none → t.mu = s.mu ∧ t.fld (F.MU_DFM_UECNT c n) = min 15 (s.fld (F.MU_DFM_UECNT c n) + 1) ∧
        (s.fld (F.MU_DFM_UECNT c n) ≠ 14 → reported 1 [F.MU_DFM_off c n]) ∧
        (s.fld (F.MU_DFM_UECNT c n) = 14 → t.fld (F.MU_DFM_DOUBLE c n) = 1 ∧
          t.fld (F.ERR_CODE_COUNT (srcPage (187 + 2 * c.val)).1) = min 255 (s.fld (F.ERR_CODE_COUNT (srcPage (187 + 2 * c.val)).1) + 2))))

/-- R66, R98, R102, R118, R119, R126, R129, R131, R133 to R137, R142, R154, R569: what the channel controller brings: the last beat of a line read, an
acknowledgement, an error with its one reissue, and the result of a first-failure location. -/
def Sys2Proof.Claims.MediaEvents : Prop :=
  ∀ (s : State) (dt : Nat) (c : Chan) (tag : BitVec 6) (beats : LineBeats) (r : MReq),
    let k := (s.pass dt).blk
    let x := k.slice c
    let id := tag.toNat
    let cw := ofBeats beats
    let v := k.setSlice c { x with out := pdel x.out id, sent := pdel x.sent id }
    let fenced := k.fld (F.MU_CTRL_FENCE c) = 1
    let shut := k.fld (F.MU_RET_CTRL_RETIRED c) = 1 ∨ fenced
    let listed := ∃ p, p ∈ x.pl ∧ p.2 = r.cl
    let read := Settles (.channelReadComplete dt c tag beats) s dt
    let ack := Settles (.channelWriteAck dt c tag) s dt
    let err := Settles (.channelControllerError dt c tag) s dt
    (pget x.out id = none → (read fun u w => w = u) ∧ (ack fun u w => w = u) ∧ (err fun u w => w = u)) ∧
    (pget x.out id = some r →
      (r.wr = true → read fun u w => w = u) ∧ (r.wr = false → ack fun u w => w = u) ∧
      (r.wr = false → r.purp ≠ .scrub →
        (fenced → read fun _ w => w = v.rdAns c r .bad) ∧
        (¬ fenced → listed → read fun _ w => w = v.rdAns c r .listed) ∧
        (¬ fenced → ¬ listed → read fun _ w => w = (v.codec c r.cl cw).1.rdAns c r (v.codec c r.cl cw).2.1)) ∧
      (r.wr = false → r.purp = .scrub → ¬ fenced → ¬ listed → read fun _ w =>
        let y := (v.codec c r.cl cw).1
        (∀ d m, (v.codec c r.cl cw).2 = (.line d m true, true) → r.stale = false →
          w = y.setSlice c { y.slice c with scrub := { (y.slice c).scrub with wb := (y.slice c).scrub.wb ++ [(r.cl, d, m)] } }) ∧
        ((∀ d m, (v.codec c r.cl cw).2 ≠ (.line d m true, true)) ∨ r.stale = true → w = y)) ∧
      (r.wr = false → r.purp = .scrub → (fenced ∨ listed) → read fun _ w => w = v) ∧
      (r.wr = true → ack fun _ w => ∃ y, w = y.wrAns c r .acked ∧ (¬ listed → y = v) ∧
        (listed → y.slice c = { v.slice c with pl := x.pl.filter fun p => p.2 != r.cl } ∧
          y.fld (F.MU_STAT_PLUSE c) = (x.pl.filter fun p => p.2 != r.cl).length % 2 ^ (F.MU_STAT_PLUSE c).w ∧ k.keepsRegs y [F.MU_STAT_off c])) ∧
      (shut → err fun _ w => w = v.shutAns c r) ∧
      (r.again = false → ¬ shut → (r.stale = false ∨ r.purp ≠ .scrubWb) → err fun _ w => (w.slice c).out = (v.slice c).out ∧
        (w.slice c).queue = { r with again := true, enter := k.now } :: x.queue ∧ { w with mu := k.mu } = k) ∧
      (r.again = false → ¬ shut → r.stale = true → r.purp = .scrubWb → err fun _ w => w = v) ∧
      (r.again = true → ¬ shut → r.wr = true → err fun _ w => w = v.refuse c r) ∧
      (r.again = true → ¬ shut → r.wr = false → r.cl < 2 ^ 33 → err fun _ w => ∃ y, w = y.rdAns c r .bad ∧
        y.rd (F.MU_ERR_CL_LO_off c) = BitVec.ofNat 32 r.cl ∧
        y.fld (F.MU_UE_CNT_COUNT c) = min (2 ^ (F.MU_UE_CNT_COUNT c).w - 1) (k.fld (F.MU_UE_CNT_COUNT c) + 1) ∧
        v.tells y (187 + 2 * c.val) (some (8, (k.marked c r.cl).getD 15 * 2 ^ 28 + k.mapIdx c r.cl * 2 ^ 24))
          [F.MU_ERR_CL_LO_off c, F.MU_ERR_CL_HI_off c, F.MU_UE_CNT_off c])) ∧
    (x.loc = [] → Settles (.firstFailureLocation dt c) s dt fun u w => w = u) ∧
    (∀ t cl z rest, x.loc = (t, cl, z) :: rest →
      let n := k.mapIdx c cl
      let dfm := F.MU_DFM_off c n
      let y := k.setSlice c { x with loc := rest }
      let taken := k.bit0 (F.MU_DFM_VALID c n) = true ∨ x.marked = some (k.now, n)
      (k.now < t + 38 → Settles (.firstFailureLocation dt c) s dt fun u w => w = u) ∧
      (t + 38 ≤ k.now → (taken ∨ (fittingDevices z).length ≠ 1) → Settles (.firstFailureLocation dt c) s dt fun _ w => w = y) ∧
      (∀ d, t + 38 ≤ k.now → ¬ taken → fittingDevices z = [d] → cl < 2 ^ 33 →
        Settles (.firstFailureLocation dt c) s dt fun _ w => w.fld (F.MU_DFM_VALID c n) = 1 ∧ w.fld (F.MU_DFM_DEV c n) = d ∧
          w.fld (F.MU_DFM_SRC c n) = 0 ∧ w.fld (F.MU_DFM_UECNT c n) = 0 ∧ w.slice c = { x with loc := rest, marked := some (k.now, n) } ∧
          w.rd (F.MU_STAT_off c) = (if (pget k.freshNow.sw dfm).isSome then k.set1 (F.MU_STAT_DFMREF c) else k).rd (F.MU_STAT_off c) ∧
          k.tells w (187 + 2 * c.val) (some (2, d * 2 ^ 28 + n * 2 ^ 24))
            [dfm, F.MU_STAT_off c, F.MU_ERR_CL_LO_off c, F.MU_ERR_CL_HI_off c]))

/-- R27, R28, R62, R64 to R67, R118, R119, R135 to R137, R141, R569: what a channel queue takes and what an issue window issues, under the lowest free
command tag. -/
def Sys2Proof.Claims.IssueWindows : Prop :=
  ∀ (s : State) (dt : Nat) (c : Chan) (accept : Nat) (parity : Bool),
    let k := (s.pass dt).blk
    let act := k.fld F.SC_TBL_STAT_ACT
    let slot := k.tb.slot.toNat
    let at_ := 0x120000 + 0x8000 * act + 32 * slot + c.val
    let bad := parity = true ∨ at_ ∈ k.sched.badParity
    let byte := k.fld ⟨at_ / 4 * 4, 8 * (at_ % 4), 8⟩
    let owner := byte / 32
    let lim := if byte / 8 % 4 = 0 then 4 else byte / 8 % 4
    let n := min lim accept
    let opens := 2 ≤ k.tbState ∧ k.tb.slotAt ≤ k.now ∧ (k.now - k.tb.slotAt) % 8 = 0 ∧ (k.slice c).winAt ≠ some k.now
    let v := k.setSlice c { k.slice c with winAt := some k.now }
    let open_ := k.fld (F.MU_CTRL_EN c) = 1 ∧ k.fld (F.MU_RET_CTRL_RETIRED c) = 0
    let does := Settles (.issueWindow dt c accept parity) s dt
    let gate := v.gateOpen (owner - 1)
    (¬ opens → does fun u w => w = u) ∧
    (opens → ¬ bad → (¬ open_ ∨ owner = 0) → owner ≠ 4 → does fun _ w => w = v) ∧
    (opens → ¬ bad → ¬ open_ → owner = 4 → does fun _ w => w = v.walkStep c) ∧
    (opens → ¬ bad → open_ → (owner = 1 ∨ owner = 2 ∨ owner = 3 ∨ owner = 6) → does fun _ w => w = v.issueQ c gate (fun r => r.cls == owner) n) ∧
    (opens → ¬ bad → open_ → owner = 4 → does fun _ w => w = (v.issueQ c gate (fun r => r.cls == 4) n).walkStep c) ∧
    (opens → ¬ bad → open_ → owner = 5 → does fun _ w => w = v.issueS c (if byte % 8 ≤ 2 then byte % 8 else 0) gate n) ∧
    (opens → ¬ bad → open_ → owner = 7 → does fun _ w => w = if byte % 8 = 1 then v.issueX c gate n else v) ∧
    (opens → bad → does fun _ w => at_ ∈ w.sched.badParity ∧ w.mu = v.mu ∧ w.jobs = k.jobs ∧
      (parity = true ∨ k.now = k.tb.slotAt → v.tells w 33 (some (0x20, act * 2 ^ 16 + slot * 2 ^ 6 + c.val)) []) ∧
      (parity = false → k.now ≠ k.tb.slotAt → w = v)) ∧
    (∀ (u : Blk) (p : MReq → Bool) (g : Bool) (j : Nat),
      let q := (u.slice c).queue
      (u.issueQ c g p 0 = u) ∧
      ((∀ r, r ∈ q → p r = false) → u.issueQ c g p (j + 1) = u) ∧
      (∀ l r l', q = l ++ r :: l' → (∀ y, y ∈ l → p y = false) → p r = true →
        let may := g = true ∧ u.fld (liveFld r.cls c) ≠ 0 ∧ (∃ t, t < 64 ∧ pget (u.slice c).out t = none) ∧ r.enter < u.now
        (may → u.issueQ c g p (j + 1) = ((u.setSlice c { u.slice c with queue := l ++ l' }).issue c r).issueQ c g p j) ∧
        (¬ may → u.issueQ c g p (j + 1) = u))) ∧
    (∀ (u : Blk) (r : MReq) (t : Nat), r.cls < 8 → r.wr = false → r.q = false → t < 64 →
      let y := (u.charge r.cls c).spend (r.cls - 1)
      let z := y.slice c
      pget z.out t = none → (∀ i, i < t → pget z.out i ≠ none) →
      u.issue c r = y.setSlice c { z with out := pset z.out t r, sent := pset z.sent t ⟨false, y.ddrAddr c r.cl, BitVec.ofNat 6 t, none⟩ })

/-- R98, R118, R134 to R136, R569: a line command comes to a channel queue: answered at once on a retired or fenced channel and beyond the populated
capacity, else queued in its order; a refused write and the poison list. -/
def Sys2Proof.Claims.ChannelQueue : Prop :=
  ∀ (s : Blk) (c : Chan) (r : MReq), (∃ id, r.purp = .job id) → r.cl < 2 ^ 33 → r.q = false →
    let x := s.slice c
    let retired := s.fld (F.MU_RET_CTRL_RETIRED c) = 1
    let fenced := s.fld (F.MU_CTRL_FENCE c) = 1
    let past := s.capacity c ≤ r.cl
    let listed := ∃ p, p ∈ x.pl ∧ p.2 = r.cl
    let regs := [F.MU_ERR_CL_LO_off c, F.MU_ERR_CL_HI_off c, F.MU_UE_CNT_off c]
    let info := 15 * 2 ^ 28 + s.mapIdx c r.cl * 2 ^ 24
    let t := s.enqueue c r
    let u := s.refuse c r
    let enlisted (y : Blk) : Prop := (listed → (y.slice c).pl = x.pl) ∧
      (¬ listed → (∀ i, i < 64 → pget x.pl i = none → (∀ j, j < i → pget x.pl j ≠ none) → (y.slice c).pl = pset x.pl i r.cl)) ∧
      ((∀ i, i < 64 → pget x.pl i ≠ none) → (y.slice c).pl = x.pl)
    (¬ retired → ¬ fenced → ¬ past → (t.slice c).queue = insertReq r x.queue ∧ t = s.setSlice c { x with queue := (t.slice c).queue }) ∧
    (retired → t = { s with ans := s.ans ++ [if r.wr then .wr r .acked else .rd r .bad] }) ∧
    (¬ retired → ¬ fenced → past → t.ans = s.ans ++ [if r.wr then .wr r .refused else .rd r .bad] ∧
      s.tells t (187 + 2 * c.val) (some (7, info)) regs ∧ t.mu = s.mu ∧
      t.fld (F.MU_UE_CNT_COUNT c) = if r.wr then s.fld (F.MU_UE_CNT_COUNT c)
        else min (2 ^ (F.MU_UE_CNT_COUNT c).w - 1) (s.fld (F.MU_UE_CNT_COUNT c) + 1)) ∧
    (¬ retired → fenced → r.wr = false → t = { s with ans := s.ans ++ [.rd r .bad] }) ∧
    (¬ retired → fenced → r.wr = true → t.ans = s.ans ++ [.wr r .refused] ∧ t.ev = s.ev ∧ (past → t.mu = s.mu) ∧ (¬ past → enlisted t)) ∧
    (x.pl.length < 64 ∨ listed ∨ fenced → u.ans = s.ans ++ [.wr r .refused] ∧ enlisted u ∧ u.ev = s.ev ∧ (u.slice c).queue = x.queue) ∧
    (64 ≤ x.pl.length → ¬ listed → ¬ fenced → x.queue = [] → u.ans = s.ans ++ [.wr r .refused] ∧ u.fld (F.MU_CTRL_FENCE c) = 1 ∧
      (u.slice c).pl = x.pl ∧ s.tells u (187 + 2 * c.val) (some (6, info)) (F.MU_CTRL_off c :: regs))

/-- R119, R133, R136 to R138, R151 to R153, R568, R570: the registers of a slice: geometry, map entries, the poison list's capture and removal, the
fence, the maintenance run and the request of a retirement. -/
def Obligations.MediaRegisters : Prop :=
  ∀ (s : State) (req : Req) (c : Chan) (n : Fin 16) (v : Word),
    let ctrl := F.MU_CTRL_off c
    let stat := F.MU_STAT_off c
    let dfm := F.MU_DFM_off c n
    let sets (u w : Blk) (f : Fld) : Prop := u.onlyRegs w [f.off] ∧ w.rd f.off = (u.set1 f).rd f.off
    Writes (.muGeomWrite req c v) s req (F.MU_GEOM_off c) (fun u w =>
      (u.fld (F.MU_CTRL_EN c) = 1 → sets u w (F.MU_STAT_CFGREF c)) ∧
      (u.fld (F.MU_CTRL_EN c) = 0 → u.onlyRegs w [F.MU_GEOM_off c] ∧
        w.fld (F.MU_GEOM_ROWBITS c) = min 17 (max 14 ((F.MU_GEOM_ROWBITS c).get v)) ∧
        w.fld (F.MU_GEOM_RANKLOG c) = min 2 ((F.MU_GEOM_RANKLOG c).get v) ∧ w.fld (F.MU_GEOM_DIMMLOG c) = (F.MU_GEOM_DIMMLOG c).get v)) ∧
    Writes (.dfmWrite req c n v) s req dfm (fun u w =>
      let dev := (F.MU_DFM_DEV c n).get v
      let valid := (F.MU_DFM_VALID c n).get v
      let refused := 9 < dev ∨ (u.slice c).marked = some (u.now, n.val)
      (refused → sets u w (F.MU_STAT_DFMREF c)) ∧
      (¬ refused → u.onlyRegs w [dfm] ∧ w.fld (F.MU_DFM_SRC c n) = 1 ∧ w.fld (F.MU_DFM_VALID c n) = valid ∧
        (valid = 1 → w.fld (F.MU_DFM_DEV c n) = dev ∧ w.fld (F.MU_DFM_UECNT c n) = u.fld (F.MU_DFM_UECNT c n) ∧
          w.fld (F.MU_DFM_DOUBLE c n) = u.fld (F.MU_DFM_DOUBLE c n)) ∧
        (valid = 0 → w.fld (F.MU_DFM_DEV c n) = 0 ∧ w.fld (F.MU_DFM_UECNT c n) = 0 ∧ w.fld (F.MU_DFM_DOUBLE c n) = 0))) ∧
    Writes (.poisonListCapture req c v) s req (F.MU_PL_IDX_off c) (fun u w =>
      let i := (F.MU_PL_IDX_IDX c).get v
      let e := pget (u.slice c).pl i
      w.fld (F.MU_PL_IDX_IDX c) = i ∧ w.fld (F.MU_PL_HI_VALID c) = e.isSome.toNat ∧
      (∀ cl, e = some cl → cl < 2 ^ 33 → w.rd (F.MU_PL_LO_off c) = BitVec.ofNat 32 cl ∧ w.fld (F.MU_PL_HI_CL c) = cl / 2 ^ 32) ∧
      u.keepsRegs w [F.MU_PL_IDX_off c, F.MU_PL_LO_off c, F.MU_PL_HI_off c] ∧
      w.slice c = { u.slice c with plCap := some (i, e) } ∧ { w with regs := u.regs, fresh := u.fresh, mu := u.mu } = u) ∧
    Writes (.poisonListRemove req c v) s req (F.MU_PL_HI_off c) (fun u w =>
      let one := (F.MU_PL_HI_VALID c).get v = 1
      (¬ one → w = u) ∧ ((u.slice c).plCap = none → w = u) ∧
      (∀ i e, one → (u.slice c).plCap = some (i, e) → pget (u.slice c).pl i ≠ e → sets u w (F.MU_STAT_DFMREF c)) ∧
      (∀ i e, one → (u.slice c).plCap = some (i, e) → pget (u.slice c).pl i = e → pget (w.slice c).pl i = none ∧
        (∀ j, j ≠ i → pget (w.slice c).pl j = pget (u.slice c).pl j) ∧ w.fld (F.MU_PL_HI_VALID c) = 0 ∧
        w.fld (F.MU_STAT_PLUSE c) = (w.slice c).pl.length % 2 ^ (F.MU_STAT_PLUSE c).w ∧
        u.keepsRegs w [F.MU_PL_HI_off c, stat] ∧ { w with regs := u.regs, fresh := u.fresh, mu := u.mu } = u)) ∧
    (let fields (u w : Blk) : Prop := w.fld (F.MU_CTRL_EN c) = (F.MU_CTRL_EN c).get v ∧ w.fld (F.MU_CTRL_LOCEN c) = (F.MU_CTRL_LOCEN c).get v ∧
       w.fld (F.MU_CTRL_SCREN c) = (F.MU_CTRL_SCREN c).get v ∧ u.keepsRegs w [ctrl] ∧
       (u.fld (F.MU_CTRL_SCREN c) = 0 → (F.MU_CTRL_SCREN c).get v = 1 → (w.slice c).scrub.turn = 0)
     Writes (.fenceClear req c v) s req ctrl (fun u w => fields u w ∧ w.fld (F.MU_CTRL_FENCE c) = 0 ∧ (w.slice c).queue = (u.slice c).queue ∧
       (w.slice c).pl = (u.slice c).pl ∧ w.ans = u.ans ∧ { w with regs := u.regs, fresh := u.fresh, mu := u.mu } = u) ∧
     Writes (.fenceSet req c v) s req ctrl (fun u w => w.fld (F.MU_CTRL_FENCE c) = 1 ∧
       ((u.fld (F.MU_CTRL_FENCE c) = 1 ∨ (u.slice c).queue = []) → fields u w ∧ (w.slice c).queue = (u.slice c).queue ∧
         (w.slice c).pl = (u.slice c).pl ∧ { w with regs := u.regs, fresh := u.fresh, mu := u.mu } = u) ∧
       (u.fld (F.MU_CTRL_FENCE c) = 0 → u.fld (F.MU_RET_CTRL_RETIRED c) = 0 → (∀ r, r ∈ (u.slice c).queue → r.wr = false ∧ r.q = false ∧ ∃ i, r.purp = .job i) →
         fields u w ∧ (w.slice c).queue = [] ∧ w.ans = u.ans ++ (u.slice c).queue.map (fun r => .rd r .bad) ∧ (w.slice c).pl = (u.slice c).pl))) ∧
    (let ctl := F.MU_MNT_CTRL_off c
     let first (u : Blk) := u.fld (F.MU_MNT_CL_HI_CL c) * 2 ^ 32 + u.fld (F.MU_MNT_CL_LO_CL c)
     let count (u : Blk) := u.fld (F.MU_MNT_CNT_CNT c)
     let refused (u : Blk) : Prop := u.fld (F.MU_MNT_CTRL_BUSY c) = 1 ∨ count u = 0 ∨ u.fld (F.MU_CTRL_EN c) = 0 ∨ u.fld (F.MU_CTRL_FENCE c) = 1 ∨
       u.fld (F.MU_RET_CTRL_RETIRED c) = 1 ∨ u.capacity c ≤ first u + count u - 1
     let quiet := (F.MU_MNT_CTRL_REFUSED c).get v = 0 ∧ (F.MU_MNT_CTRL_DONE c).get v = 0
     Writes (.mntGo req c v) s req ctl (fun u w => quiet → (F.MU_MNT_CTRL_ABORT c).get v = 0 →
       (refused u → sets u w (F.MU_MNT_CTRL_REFUSED c)) ∧
       (¬ refused u → w.fld (F.MU_MNT_CTRL_BUSY c) = 1 ∧ w.fld (F.MU_MNT_CTRL_GO c) = 1 ∧ w.fld (F.MU_MNT_LEFT_LEFT c) = count u ∧
         u.keepsRegs w [ctl, F.MU_MNT_LEFT_off c] ∧ w.slice c = { u.slice c with mnt := ⟨first u, count u, 0⟩ } ∧
         { w with regs := u.regs, fresh := u.fresh, mu := u.mu } = u)) ∧
     Writes (.mntAbort req c v) s req ctl (fun u w => quiet → (F.MU_MNT_CTRL_GO c).get v = 0 →
       (u.fld (F.MU_MNT_CTRL_BUSY c) = 0 → u.onlyRegs w []) ∧
       (u.fld (F.MU_MNT_CTRL_BUSY c) = 1 → (w.slice c).mnt = { (u.slice c).mnt with togo := 0 } ∧ { w with regs := u.regs, fresh := u.fresh, mu := u.mu } = u ∧
         ((u.slice c).mnt.out = 0 → u.keepsRegs w [ctl] ∧ w.fld (F.MU_MNT_CTRL_BUSY c) = 0 ∧ w.fld (F.MU_MNT_CTRL_GO c) = 0 ∧
           w.fld (F.MU_MNT_CTRL_DONE c) = 1) ∧
         ((u.slice c).mnt.out ≠ 0 → u.keepsRegs w [])))) ∧
    (let ctl := F.MU_RET_CTRL_off c
     let next := (F.MU_RET_CTRL_NEXT c).get v
     let frame (u : Blk) : FrameIx := if u.tb.due.getLsbD 1 then (u.cmpOf 1).extractLsb' 12 36 else u.tb.frame
     let target (u : Blk) : FrameIx := if next = 1 then frame u + 1
       else BitVec.ofNat 36 (u.fld (F.MU_RET_TGT_HI_TGT c) * 2 ^ 32 + u.fld (F.MU_RET_TGT_LO_TGT c))
     let asks (mode : Nat) (u w : Blk) : Prop := (F.MU_RET_CTRL_REFUSED c).get v = 0 →
       let refused := target u ≤ frame u ∨ mode = u.fld (F.MU_RET_CTRL_RETIRED c) ∨
         (mode = 0 ∧ (u.fld (F.MU_CTRL_EN c) = 0 ∨ u.fld (F.MU_CTRL_FENCE c) = 1))
       (u.fld (F.MU_RET_CTRL_PEND c) = 1 → u.onlyRegs w []) ∧
       (u.fld (F.MU_RET_CTRL_PEND c) = 0 → w.fld (F.MU_RET_CTRL_MODE c) = mode ∧ w.fld (F.MU_RET_CTRL_NEXT c) = next ∧
         w.fld (F.MU_RET_CTRL_RETIRED c) = u.fld (F.MU_RET_CTRL_RETIRED c) ∧
         (refused → w.fld (F.MU_RET_CTRL_REFUSED c) = 1 ∧ w.fld (F.MU_RET_CTRL_PEND c) = 0 ∧
           u.tells w (187 + 2 * c.val) (some (0x16, 15 * 2 ^ 28)) [ctl] ∧ u.alikeButRegs w) ∧
         (¬ refused → w.fld (F.MU_RET_CTRL_PEND c) = 1 ∧ w.fld (F.MU_RET_CTRL_ARM c) = 1 ∧
           w.fld (F.MU_RET_CTRL_REFUSED c) = u.fld (F.MU_RET_CTRL_REFUSED c) ∧ u.keepsRegs w [ctl] ∧
           w.slice c = { u.slice c with retTgt := target u, retAt := u.now } ∧ { w with regs := u.regs, fresh := u.fresh, mu := u.mu } = u))
     Writes (.channelRetire req c v) s req ctl (asks 1) ∧ Writes (.channelReturn req c v) s req ctl (asks 0))

/-- R6, R25, R568, R569: step 3 of a frame boundary: a pending retirement or return whose target has come; one asked for in the boundary's own cycle is
judged by the new frame index. -/
def Sys2Proof.Claims.RetirementAtBoundary : Prop :=
  ∀ (s : Blk) (c : Chan),
    let due := s.fld (F.MU_RET_CTRL_PEND c) = 1 ∧ (s.slice c).retTgt ≤ s.tb.frame
    let mode := s.fld (F.MU_RET_CTRL_MODE c)
    let here := (s.slice c).retAt = s.tb.bndAt
    let next := s.fld (F.MU_RET_CTRL_NEXT c) = 1 ∧ s.tb.frame + 1 ≠ 0
    let t := s.retireStep c
    (¬ due → t = s) ∧
    (due → here → next → t = s.setSlice c { s.slice c with retTgt := s.tb.frame + 1 }) ∧
    (due → here → ¬ next → t.fld (F.MU_RET_CTRL_PEND c) = 0 ∧ t.fld (F.MU_RET_CTRL_ARM c) = 0 ∧ t.fld (F.MU_RET_CTRL_REFUSED c) = 1 ∧
      t.fld (F.MU_RET_CTRL_RETIRED c) = s.fld (F.MU_RET_CTRL_RETIRED c) ∧
      s.tells t (187 + 2 * c.val) (some (0x16, 15 * 2 ^ 28)) [F.MU_RET_CTRL_off c] ∧ s.alikeButRegs t) ∧
    (due → ¬ here → t.fld (F.MU_RET_CTRL_RETIRED c) = mode ∧ t.fld (F.MU_RET_CTRL_PEND c) = 0 ∧ t.fld (F.MU_RET_CTRL_ARM c) = 0 ∧
      (mode = 0 → s.tells t (187 + 2 * c.val) (some (0x15, 15 * 2 ^ 28)) [F.MU_RET_CTRL_off c] ∧ t.mu = s.mu ∧ t.ans = s.ans) ∧
      (mode = 1 → (∀ r, r ∈ (s.slice c).queue → r.q = false ∧ ∃ i, r.purp = .job i) →
        s.tells t (187 + 2 * c.val) (some (0x14, 15 * 2 ^ 28)) [F.MU_RET_CTRL_off c] ∧ (t.slice c).queue = [] ∧
        t.ans = s.ans ++ (s.slice c).queue.map (fun r => if r.wr then .wr r .acked else .rd r .bad)))

/-- R110 to R113, R373 to R378, R382, R188: operator-control work on a posted doorbell; the start of a chain in its units; a line that comes to a unit;
the end of a submission with its record; SV_CTRL; the leaving of a drained chip. -/
def Obligations.Submissions : Prop :=
  ∀ (s : State) (dt : Nat) (bay : Bay) (lines : List (Option Line)) (n chain : Nat) (req : Req) (v : Word),
    let k := (s.pass dt).blk
    let work := Settles (.operatorControlWork dt bay lines) s dt
    let start := Settles (.chainStart dt n chain) s dt
    let ends := Settles (.submissionComplete dt n) s dt
    let stopped := k.rbit F.EV_BAYSTOP_off bay = true
    ((k.bells.find? fun d => d.bay == bay.val) = none ∨ stopped → work fun u w => w = u) ∧
    (∀ d, (k.bells.find? fun d => d.bay == bay.val) = some d → ¬ stopped →
      let taken : Blk := { k with bells := k.bells.erase d, idleAt := pset k.idleAt bay k.now }
      let byte (o n : Nat) : Nat := d.line.toNat / 2 ^ (8 * o) % 2 ^ (8 * n)
      let q := (pget k.cmdQ (64 * d.seg + d.q)).getD ⟨0xFFFF, false⟩
      let seq := BitVec.ofNat 16 (byte 0 2)
      let first := byte 2 2
      let count := byte 4 2
      let area := byte 8 6
      let badSeq := seq ≠ q.lastSeq + 1
      let badRun := q.running = true
      let badCnt := first = 0 ∨ 16383 < first ∨ count = 0 ∨ 1024 < count ∨ 16383 < first + count - 1
      let badRes := k.scanSeg d.port (area / 2 ^ 36) = false ∨ 2 ^ 36 < area / 64 * 64 % 2 ^ 36 + 64 * byte 16 4
      let refused (c : Nat) : Prop := (c = 0x30 ∧ badSeq) ∨ (c = 0x31 ∧ ¬ badSeq ∧ badRun) ∨ (c = 0x32 ∧ ¬ badSeq ∧ ¬ badRun ∧ badCnt) ∨
        (c = 0x33 ∧ ¬ badSeq ∧ ¬ badRun ∧ ¬ badCnt ∧ badRes)
      (seq = q.lastSeq → work fun _ w => w = taken) ∧
      (∀ c, seq ≠ q.lastSeq → refused c → d.port < 4 → work fun _ w => w.bells = taken.bells ∧
        taken.tells w (35 + 2 * d.port) (some (c, d.idx * 2 ^ 16 + d.seg)) [] ∧ taken.alikeButRegs w) ∧
      (seq ≠ q.lastSeq → (∀ c, ¬ refused c) → work fun _ w => ∃ y : Blk, w = y.svAdmit.showRun ∧
        y.svNo = k.svNo + 1 ∧ pget y.cmdQ (64 * d.seg + d.q) = some ⟨seq, true⟩ ∧
        (∀ j, j ≠ 64 * d.seg + d.q → pget y.cmdQ j = pget k.cmdQ j) ∧ { y with svNo := k.svNo, cmdQ := k.cmdQ, svSubs := k.svSubs } = taken ∧
        (∀ j, j ≠ k.svNo → pget y.svSubs j = pget k.svSubs j) ∧
        ∃ x, pget y.svSubs k.svNo = some x ∧ x.st = .queued ∧ x.bay = bay ∧ x.port = d.port ∧ x.seg = d.seg ∧ x.q = d.q ∧ x.seq = seq ∧
          x.first = first ∧ x.result.toNat = area ∧ x.reslim = byte 16 4 ∧ x.descs.length = count ∧
          (∀ i, i < count → x.descs[i]? = some ((lines.getD i none).getD 0)) ∧
          ((∃ i, i < count ∧ lines.getD i none = none) → x.fails = [(0, 0, 5)]) ∧
          ((∀ i, i < count → lines.getD i none ≠ none) →
            x.fails = if (crc32c (x.descs.flatMap (bytesLE 64))).toNat = byte 20 4 then [] else [(0, 0, 2)]))) ∧
    (∀ x c r, pget k.svSubs n = some x → x.chains[chain]? = some c → c.st = .waiting → c.ready = some r →
      let ready := k.fld F.SV_CTRL_EN = 1 ∧ x.st = .running ∧ x.fails = [] ∧
        (∀ y, y ∈ k.svSubs → ∀ e, e ∈ y.2.chains → e.st = .waiting → y.2.fails = [] → (∃ j, e.ready = some j ∧ j < r) →
          ∀ u, u ∈ e.units → u ∉ c.units) ∧
        ∀ u, u ∈ c.units → pget k.svUnits u = none ∧ k.rbit F.TD_HSTATB_off u = false ∧ k.fld (F.BM_STAT_READY u) = 1 ∧
          k.rbit F.EV_BAYSTOP_off u = false
      (ready → start fun _ w =>
        w = c.units.foldl (fun y u => ((y.setFld (F.SV_UNIT_STAT_BUSY u) 1).stir u).svSets u
              ⟨n, chain, 0, 0, 0, [], none, none, 0, (List.range c.n).map fun d => (d, SvAcc.zero)⟩ 0)
            (k.setSub n { x with chains := x.chains.set chain { c with st := .running } })) ∧
      (¬ ready → start fun u w => { w with latch := u.latch } = u ∧
        ∀ b, pget w.latch b = if b ∈ c.units ∧ k.rbit F.EV_BAYSTOP_off b = true ∧ pget k.latch b = none then some k.now else pget k.latch b)) ∧
    ((∀ x, pget k.svSubs n = some x → ∀ c, x.chains[chain]? = some c → c.st ≠ .waiting ∨ c.ready = none) → start fun u w => w = u) ∧
    (let keys := k.got.filterMap fun g => match g.1 with | .result j => (if j / 2 ^ 32 = n then some j else none) | _ => none
     (∀ x, pget k.svSubs n = some x → x.st = .results → x.lines ≤ keys.length →
       let f := x.firstFail.getD (0, 0, 1)
       let freed : Blk := { k with
          got := k.got.filter (fun g => match g.1 with | .result j => j / 2 ^ 32 != n | _ => true), svSubs := pdel k.svSubs n,
          cmdQ := pset k.cmdQ (64 * x.seg + x.q) ⟨x.seq, false⟩ }
       let record := lineOf [(0, 2, x.seq.toNat), (2, 1, f.2.2), (4, 2, x.done), (6, 2, f.1), (8, 4, x.lines), (12, 4, f.2.1), (16, 8, x.fstart.toNat),
         (24, 8, k.tb.frame.toNat)]
       let y := freed.resultWrite n x 0 record
       ends fun _ w => ∃ z, w = (z.svAdmit.showRun).stir x.bay ∧ y.alikeButRegs z ∧
         (f.2.2 = 1 → z.fld F.SV_CNT_SUB_COUNT = min (2 ^ F.SV_CNT_SUB_COUNT.w - 1) (k.fld F.SV_CNT_SUB_COUNT + 1) ∧
           y.tells z 45 none [F.SV_CNT_SUB_off]) ∧
         (f.2.2 ≠ 1 → z.fld F.SV_CNT_FAIL_COUNT = min (2 ^ F.SV_CNT_FAIL_COUNT.w - 1) (k.fld F.SV_CNT_FAIL_COUNT + 1) ∧
           y.tells z 42 (some (f.2.1 % 256, x.bay * 2 ^ 24 + f.1)) [F.SV_CNT_FAIL_off])) ∧
     ((∀ x, pget k.svSubs n = some x → x.st ≠ .results ∨ keys.length < x.lines) → ends fun u w => w = u)) ∧
    (let enabled (u y : Blk) : Prop := y.fld F.SV_CTRL_EN = F.SV_CTRL_EN.get v ∧ u.onlyRegs y [F.SV_CTRL_off]
     let aborted (u w : Blk) : Prop := ∃ y, enabled u y ∧ w = y.svAbort 0x31 ∧
       ((∀ x, x ∈ u.svSubs → x.2.st ≠ .running ∧ x.2.st ≠ .results) → w = y) ∧
       (∀ m x, u.svSubs = [(m, x)] → x.st = .results → ∃ z, pget w.svSubs m = some z ∧ z = { x with fails := x.fails ++ [(x.first, 0x31, 6)] }) ∧
       (∀ m x c, u.svSubs = [(m, x)] → x.st = .running → x.chains = [c] → c.st = .waiting →
         ∃ z, pget w.svSubs m = some z ∧ (x.first + c.lo, 0x31, 6) ∈ z.fails)
     Writes (.sieveAbort req v) s req F.SV_CTRL_off aborted ∧
     Writes (.sieveEnable req v) s req F.SV_CTRL_off fun u w =>
       (F.SV_CTRL_ABORT.get v = 0 → enabled u w) ∧ (F.SV_CTRL_ABORT.get v = 1 → aborted u w)) ∧
    (let drained := k.svRun = 0 ∧ k.fld F.TW_CTRL_LEAVE = 1 ∧ (∀ x, x ∈ k.led → x.2.st = .free ∨ x.2.st = .resp) ∧
       (∀ x, x ∈ k.jobs → x.2.phase ≠ .staged ∧ x.2.media = false) ∧ ∀ x j, x ∈ k.jobs → x.2.owner ≠ .result j
     (drained → k.settled → Happens (.leaveDrained dt) s dt fun u t => u.keepsMem t ∧ u.blk.sends t.blk [.bye] ∧
       (k.twState ≠ 7 → t.blk.twState = 7 ∧ t.blk.fld F.TW_CTRL_LEAVE = 0 ∧ t.blk.tw.failOut = true ∧
         k.tells t.blk 13 none [F.TW_STAT_off, F.TW_CTRL_off])) ∧
     (¬ drained → k.settled → Happens (.leaveDrained dt) s dt fun u t => t = u))

/-- R353, R354, R363, R373, R374, R376, R382, R476: a line that comes to a Sieve unit: held back while the unit cannot work, kept as IN set or null
bitmap, evaluated, or a failure of its descriptor. -/
def Sys2Proof.Claims.SieveLines : Prop :=
  ∀ (s : State) (dt : Nat) (bay : Bay),
    let b := bay.val
    let s' := s.pass dt
    let k := s'.blk
    let does (post : State → State → Prop) : Prop := k.live = true → Answers (exec (.sieveLine dt bay) s) fun t =>
      ∃ w, post s' w ∧ t = { w with blk := w.blk.settle } ∧ t.pending = s.pending
    let can := k.rbit F.TD_HSTATB_off b = false ∧ k.rbit F.EV_BAYSTOP_off b = false ∧ k.fld (F.BM_STAT_READY b) = 1 ∧ k.gateOpen (40 + b) = true
    ((∀ u, pget k.svUnits b = some u → u.want = none) → does fun u w => w = u) ∧
    (∀ u r, pget k.svUnits b = some u → u.want = some r →
      let ds := k.unitDescs u
      let got := k.gotOf (.sieve b u.no 0)
      let at_ := match r with | .set i _ => i | _ => u.d
      let taken := (k.dropGot (.sieve b u.no 0)).stir b
      let paid := match r with | .set _ _ => taken | _ => taken.spend (40 + b)
      ((got = none ∨ ¬ can) → does fun x w => w = x) ∧
      (∀ o, got = some o → goodLine o = none → can → does fun _ w =>
        let code := match o with
          | .line _ _ => 0x10
          | _ => if segMIRR (k.segWord (svAddr ds u r / 2 ^ 36) 0) then 0x12 else 0x11
        let slot := k.unitSlot u + at_
        ∃ y, w = { s' with blk := y.descFails u at_ code 5 } ∧ y.alikeButRegs paid ∧
          paid.tells y 43 (some (code, b * 2 ^ 24 + slot)) [F.SV_UNIT_BAD_off b] ∧
          y.fld (F.SV_UNIT_BAD_COUNT b) = min (2 ^ (F.SV_UNIT_BAD_COUNT b).w - 1) (k.fld (F.SV_UNIT_BAD_COUNT b) + 1)) ∧
      (∀ o d, got = some o → goodLine o = some d → can →
        (∀ i j, r = .set i j → does fun _ w =>
          let x := State.setLine { s' with blk := taken } b ds u i j d
          w = { x.1 with blk := if j < 7 then x.1.blk.svIssue b x.2 (.set i (j + 1)) else x.1.blk.svSets b x.2 (i + 1) }) ∧
        (∀ j, r = .nulls j → does fun _ w => w = { s' with blk := paid.svIssue b { u with nulls := some (u.d, j, d) } .col }) ∧
        (∀ x, r = .col → ds[u.d]? = some x → does fun _ w => w = State.svEval { s' with blk := paid } b u x d)))

/-- R359 to R362: what a predicate selects. -/
def Sys2Proof.Claims.SievePredicates : Prop :=
  ∀ (d : Desc) (v : Nat) (null : Bool) (set : BitVec 4096), d.wlog < 4 → v < 2 ^ (8 * d.width) → d.k1 < 2 ^ (8 * d.width) → d.k2 < 2 ^ (8 * d.width) →
    let num (x : Nat) : Int := if d.type = 1 ∧ 2 ^ (8 * d.width - 1) ≤ x then (x : Int) - 2 ^ (8 * d.width) else x
    let p := d.passes v null set
    let exact := d.type = 0 ∨ d.type = 1 ∨ d.type = 4
    (d.pkind = 4 → p = (null == (d.param % 2 == 0))) ∧
    (d.pkind < 4 → null = true → p = false) ∧
    (null = false → d.pkind = 0 → p = true) ∧
    (null = false → d.pkind = 1 → exact →
      (d.param = 0 → p = decide (num v = num d.k1)) ∧ (d.param = 1 → p = decide (num v ≠ num d.k1)) ∧
      (d.param = 2 → p = decide (num v < num d.k1)) ∧ (d.param = 3 → p = decide (num v ≤ num d.k1)) ∧
      (d.param = 4 → p = decide (num v > num d.k1)) ∧ (d.param = 5 → p = decide (num v ≥ num d.k1))) ∧
    (null = false → d.pkind = 2 → exact → d.param < 4 →
      p = ((if d.param % 2 = 1 then decide (num d.k1 < num v) else decide (num d.k1 ≤ num v)) &&
           (if 2 ≤ d.param then decide (num v < num d.k2) else decide (num v ≤ num d.k2)))) ∧
    (null = false → d.pkind = 3 → exact → d.param < 2 →
      let i := num v - num d.k1
      (p = true ↔ ((0 ≤ i ∧ i ≤ 4095 ∧ set.getLsbD i.toNat = true) ↔ d.param = 0))) ∧
    (null = false → d.pkind = 1 → d.float = true → d.fmt.isNan (d.fmt.parts v) = true ∨ d.fmt.isNan (d.fmt.parts d.k1) = true → p = (d.param == 1)) ∧
    (null = false → d.pkind = 2 → d.float = true → d.fmt.isNan (d.fmt.parts v) = true → p = false)

/-- R363, R364, R367, R383: the selection bits of a line and what an integer column's line adds to its descriptor's accumulators. -/
def Sys2Proof.Claims.SieveSelection : Prop :=
  (∀ (s : State) (b : Bay) (comb lo n : Nat) (ps : List Bool), ps.length = n → lo / 65536 = (lo + n - 1) / 65536 → 0 < n → comb < 3 →
    let word (r : Nat) : Nat := s.blk.fld (F.SV_UNIT_CTRL_WBASE b) * 0x2000 + r % 65536 / 16
    let sel (t : State) (r : Nat) : Bool := (t.peek b (word r)).getLsbD (r % 16)
    (∀ i, i < n → pget s.blk.bmErr (bmKey b (word (lo + i))) = none) →
    let t := (s.selRows b comb (ps.mapIdx fun i p => (lo + i, p))).1
    let new (i : Nat) : Bool := let p := ps.getD i false
      if comb = 0 then p else if comb = 1 then sel s (lo + i) && p else sel s (lo + i) || p
    (s.selRows b comb (ps.mapIdx fun i p => (lo + i, p))).2 = some ((List.range n).map new) ∧
    (∀ i, i < n → sel t (lo + i) = new i) ∧
    (∀ r, lo / 65536 * 65536 ≤ r → r < lo / 65536 * 65536 + 65536 → (r < lo ∨ lo + n ≤ r) → sel t r = sel s r)) ∧
  (∀ (d : Desc) (a : SvAcc) (rows : List (Nat × Option Nat)), d.float = false →
    let vals := rows.filterMap (·.2)
    let t := d.aggLine a rows
    t.count = a.count + vals.length ∧ t.lines = a.lines + 1 ∧ t.fl = a.fl ∧ t.nan = a.nan ∧ t.lanes = a.lanes ∧
    t.sum = a.sum + (vals.map d.int).foldl (· + ·) 0 ∧
    t.gath = a.gath ++ (if d.asks 4 then (rows.filterMap fun x => x.2.map fun v => BitVec.ofNat 64 (if d.asks 5 then x.1 else v)) else []) ∧
    ((d.asks 2 = true ∨ d.asks 3 = true) → a.mn = none → a.mx = none → vals ≠ [] → (∀ v, v ∈ vals → v < 2 ^ 64) →
      ∃ x y, t.mn = some x ∧ t.mx = some y ∧ x.toNat ∈ vals ∧ y.toNat ∈ vals ∧
        (∀ v, v ∈ vals → d.int x.toNat ≤ d.int v ∧ d.int v ≤ d.int y.toNat)))

/-- R144, R145 to R150, R291, R294, R402: the tier operations of a context, which its TIER command whose turn it is carries out, their media transfers
in class C, and the answer of a compressor lane. -/
def Sys2Proof.Claims.TierOperations : Prop :=
  ∀ (s : State) (c : CtxRef) (o : TierOp) (dt id : Nat) (bad : Bool) (bytes : List Byte),
    let k := s.blk
    let b := ctxKey c / 64
    let seg := o.seg.toNat
    let w0 := k.segWord seg 0
    let size := 2 ^ (30 - segCHLOG (k.segWord seg 1))
    let base := segMBASE (k.segWord seg 2) * 2 ^ 25
    let usable := k.segOk seg = true ∧ segCOMP w0 = true ∧ segREMOTE w0 = false
    let frameOk := o.loc.toNat % 64 = 0 ∧ size / 512 ≤ o.loc.toNat ∧ o.loc.toNat + 64 ≤ size
    let formOk (n : Nat) : Prop := 1 ≤ n ∧ n ≤ 56 ∧ o.loc.toNat % 4 = 0 ∧ o.loc.toNat + 4 + n ≤ size
    let key := if segCRYPT w0 then some (segKEYIDX (k.segWord seg 1)) else none
    let turn := k.dms.find? fun x => x.2.ctx == ctxKey c && !x.2.started
    let asked (op : DmOp) (kind : TierKind) : Prop := (dmCmd op.cmd).op = 3 ∧ (dmCmd op.cmd).opt = tierOpt kind
    let starts (i : Instr) (kind : TierKind) (post : Nat → DmOp → TierRun → Blk → Blk → Prop) : Prop := k.live = true →
      (((∀ n op, turn = some (n, op) → ¬ asked op kind) ∨ k.moverRuns b = false) → exec i s = .next s) ∧
      (∀ n op, turn = some (n, op) → asked op kind → k.moverRuns b = true →
        Answers (exec i s) fun t => ∃ (r : TierRun) (v w : Blk), r.kind = kind ∧ r.op = o ∧ r.ch = b ∧ r.refused = false ∧
          pget v.dms n = some { op with tier := some r, started := true } ∧ (∀ j, j ≠ n → pget v.dms j = pget k.dms j) ∧
          { v with dms := k.dms } = k ∧ post n { op with started := true } r v w ∧
          (let x := State.dmTurn { s with blk := w } (ctxKey c); t = { x with blk := x.blk.settle }))
    let fails (res : Nat) (n : Nat) (op : DmOp) (r : TierRun) (v w : Blk) : Prop := v.tierFinished w n op r res 0 none
    let goes (ph : TierPhase) (left : Nat) (n : Nat) (r : TierRun) (v w : Blk) (l : List MReq) : Prop :=
      w = l.foldl (fun y q => if q.wr && q.key.isSome then y.toCrypt b q else y.enqueue b q) (v.setTier n { r with phase := ph, left := left })
    let req (n i off : Nat) (wr : Bool) (d : Line) (m : Word) (ky : Option (BitVec 10)) (a : PAddr) : MReq :=
      ⟨6, wr, base + off, d, m, .tier n i, ky, a, k.now, false, false, false⟩
    let table := o.pj.toNat / 8
    let reads (n : Nat) (_ : DmOp) (r : TierRun) (v w : Blk) : Prop := goes .table 1 n r v w [req n 0 table false 0 0 none (tierAddr seg b table)]
    (¬ usable → starts (.tread c o) .read (fails 9) ∧ starts (.tput c o) .put (fails 9) ∧ starts (.tzero c o) .zero (fails 9) ∧
      starts (.tfetch c o) .fetch (fails 9)) ∧
    (usable → starts (.tread c o) .read reads) ∧
    (usable → ((pageEntry o.entry size).ok = true → starts (.tput c o) .put reads) ∧
      ((pageEntry o.entry size).ok = false → starts (.tput c o) .put (fails 9))) ∧
    (usable → (frameOk → starts (.tzero c o) .zero fun n _ r v w => goes .writing 64 n r v w
        ((List.range 64).map fun i => let a := pageAddr (k.segWord seg 1) seg b o.pj.toNat i
          req n i (o.loc.toNat + i) true 0 (metaWord (mint 0 a o.key) 0 0 false) key a)) ∧
      (¬ frameOk → starts (.tzero c o) .zero (fails 9))) ∧
    (usable → (formOk o.slen.toNat → starts (.tfetch c o) .fetch fun n _ r v w => goes .reading (4 + o.slen.toNat) n r v w
        ((List.range (4 + o.slen.toNat)).map fun i =>
          req n i (o.loc.toNat + i) false 0 0 key (tierAddr seg b (o.loc.toNat + i)))) ∧
      (¬ formOk o.slen.toNat → starts (.tfetch c o) .fetch (fails 9))) ∧
    (let line (op : DmOp) (i : Nat) := (dmCmd op.cmd).bline + i
     let clean (op : DmOp) := ∀ i, i < 68 → ∀ j, j < 32 → pget k.bmErr (bmKey b (32 * line op i + j)) = none
     let at_ (op : DmOp) (i : Nat) : Line := wordsLine ((List.range 32).map fun j => s.peek b (32 * line op i + j))
     let mta (op : DmOp) (i : Nat) : Word := (at_ op (64 + i / 16)).extractLsb' (32 * (i % 16)) 32
     let sound (op : DmOp) := ∀ i, i < 64 → mPois (mta op i) = false ∧
       mCheck (mta op i) = mint (at_ op i) (pageAddr (k.segWord seg 1) seg b o.pj.toNat i) o.key
     starts (.tstore c o) .store fun n op r v w => clean op →
       ∃ ls, (∀ i, i < 4 → pget ls i = some (at_ op (64 + i))) ∧ (∀ i, i < 64 → pget ls (4 + i) = some (at_ op i)) ∧
         (sound op → usable → w = { v.setTier n { r with lines := ls, phase := .lane, laneAt := k.now } with ports := w.ports }) ∧
         (sound op → ¬ usable → v.tierFinished { w with ports := v.ports } n op { r with lines := ls } 9 0 none) ∧
         (¬ sound op → v.tierFinished { w with ports := v.ports } n op { r with lines := ls } 10 0 none)) ∧
    (let u := (s.pass dt).blk
     let does := Settles (.compressorResult dt id bad bytes) s dt
     let n := (bytes.length + 63) / 64
     (∀ i j, i < n → j < 64 → ((streamLines bytes).getD i 0).extractLsb' (8 * j) 8 = bytes.getD (64 * i + j) 0) ∧
     (∀ op t, pget u.dms id = some op → op.tier = some t → t.kind = .store → u.onLane t = true → t.ch < 32 →
       let page := lineBytes ((List.range 64).map fun i => (pget t.lines (4 + i)).getD 0)
       let sz := 2 ^ (30 - segCHLOG (u.segWord t.op.seg.toNat 1))
       let fits := 1 ≤ n ∧ t.op.loc.toNat % 4 = 0 ∧ t.op.loc.toNat + 4 + n ≤ sz
       let good := bad = false ∧ streamOf page bytes = true
       (3584 < bytes.length → does fun x w => x.tierFinished w id op t 1 0 none) ∧
       (bytes.length ≤ 3584 → ¬ good → does fun x w => x.tierFinished w id op t 2 0 none) ∧
       (bytes.length ≤ 3584 → good → ¬ fits → does fun x w => x.tierFinished w id op t 9 0 none) ∧
       (bytes.length ≤ 3584 → good → fits → does fun x w =>
         let r := { t with phase := .writing, left := 4 + n, value := BitVec.ofNat 64 n }
         let ls := (List.range 4).map (fun h => (pget t.lines h).getD 0) ++ streamLines bytes
         let ky := if segCRYPT (u.segWord t.op.seg.toNat 0) then some (segKEYIDX (u.segWord t.op.seg.toNat 1)) else none
         w = (ls.mapIdx fun i d => let f := t.op.loc.toNat + i
             (⟨6, true, segMBASE (u.segWord t.op.seg.toNat 2) * 2 ^ 25 + f, d, tierMeta d t.op.seg.toNat t.ch f t.op.key, .tier id i, ky,
               tierAddr t.op.seg.toNat t.ch f, u.now, false, false, false⟩ : MReq)).foldl
           (fun y q => if q.key.isSome then y.toCrypt t.ch q else y.enqueue t.ch q) (x.setTier id r))) ∧
     ((∀ op t, pget u.dms id = some op → op.tier = some t → t.kind ≠ .store ∨ u.onLane t = false) → does fun x w => w = x))

/-- R144 to R150, R192, R403: the answers to a tier operation's media transfers, and that of a decompressor lane, whose lines go to bay memory where
they pass. -/
def Sys2Proof.Claims.TierAnswers : Prop :=
  (∀ (s : Blk) (id i : Nat) (op : DmOp) (t : TierRun) (r : MReq) (o : RdOut) (a : WrOut), pget s.dms id = some op → op.tier = some t → t.ch < 32 →
    let seg := t.op.seg.toNat
    let size := 2 ^ (30 - segCHLOG (s.segWord seg 1))
    let passes (off : Nat) (d : Line) : Prop := ∃ m f, o = .line d m f ∧ mCheck m = mint d (tierAddr seg t.ch off) (~~~t.op.key)
    let table := t.op.pj.toNat / 8
    let entry (d : Line) : BitVec 64 := d.extractLsb' (64 * (t.op.pj.toNat % 8)) 64
    (t.phase = .table → (∀ d, ¬ passes table d) → s.tierFinished (s.tierGot id i (.rd r o)) id op t 7 0 (some table)) ∧
    (∀ d, t.phase = .table → passes table d → t.kind = .read →
      s.tierFinished (s.tierGot id i (.rd r o)) id op t (if (pageEntry (entry d) size).ok then 0 else 9) (entry d) none) ∧
    (∀ d, t.phase = .table → passes table d → t.kind ≠ .read → ∃ q : MReq, s.tierGot id i (.rd r o) =
        (s.setTier id { t with phase := .writing, left := 1 }).enqueue t.ch q ∧ q.wr = true ∧ q.cls = 6 ∧ q.key = none ∧ q.purp = .tier id 0 ∧
        q.cl = segMBASE (s.segWord seg 2) * 2 ^ 25 + table ∧ q.enter = s.now ∧ entry q.data = t.op.entry ∧
        (∀ j, j < 8 → j ≠ t.op.pj.toNat % 8 → q.data.extractLsb' (64 * j) 64 = d.extractLsb' (64 * j) 64) ∧
        mCheck q.mta = mint q.data (tierAddr seg t.ch table) (~~~t.op.key)) ∧
    (t.phase = .writing → 2 ≤ t.left → s.tierGot id i (.wr r a) =
      s.setTier id { t with left := t.left - 1, refused := t.refused || a != .acked }) ∧
    (t.phase = .writing → t.left = 1 → t.kind ≠ .put →
      s.tierFinished (s.tierGot id i (.wr r a)) id op { t with left := 0, refused := t.refused || a != .acked } 0 t.value none) ∧
    (t.phase = .reading → (∀ d, ¬ passes (t.op.loc.toNat + i) d) →
      s.tierFinished (s.tierGot id i (.rd r o)) id op t 7 0 (some (t.op.loc.toNat + i))) ∧
    (∀ d, t.phase = .reading → passes (t.op.loc.toNat + i) d → ∃ ls, pget ls i = some d ∧ (∀ j, j ≠ i → pget ls j = pget t.lines j) ∧
      s.tierGot id i (.rd r o) = s.setTier id (if t.left ≤ 1 then { t with left := t.left - 1, lines := ls, phase := .lane, laneAt := s.now }
        else { t with left := t.left - 1, lines := ls }))) ∧
  (∀ (s : State) (dt id : Nat),
    let s' := s.pass dt
    let u := s'.blk
    let i (res : Nat) (page : List Byte) : Instr := .decompressorResult dt id res page
    (∀ op t, pget u.dms id = some op → op.tier = some t → t.kind = .fetch → u.onLane t = true → t.ch < 32 → u.live = true →
      let stream := lineBytes ((List.range t.op.slen.toNat).map fun i => (pget t.lines (4 + i)).getD 0)
      (∀ e page, inflate stream = .error e → Answers (exec (i e page) s) fun x => ∃ w, u.tierFinished w id op t e 0 none ∧ x = { s' with blk := w.settle }) ∧
      (∀ page, inflate stream = .ok page → page.length = 4096 →
        let line (i : Nat) := (dmCmd op.cmd).bline + i
        let m (j : Nat) : Word := headMeta t.lines j
        let d (j : Nat) : Line := (streamLines page).getD j 0
        let a (j : Nat) : PAddr := pageAddr (u.segWord t.op.seg.toNat 1) t.op.seg.toNat t.ch t.op.pj.toNat j
        let good (j : Nat) : Prop := mCheck (m j) = mint (d j) (a j) t.op.key
        (∀ x, x ∈ u.jobs → x.2.phase ≠ .page) → u.settled →
        Answers (exec (i 0 page) s) fun x => ∃ bad : BitVec 64, (∀ j, j < 64 → (bad.getLsbD j = true ↔ ¬ good j)) ∧
          u.tierFinished { x.blk with bmErr := u.bmErr, ctxs := u.ctxs, ports := u.ports } id op t (if bad = 0 then 0 else 8) bad none ∧
          (∀ c, { x.blk.ctx c with resv := (u.ctx c).resv } = u.ctx c) ∧
          (∀ j, j < 64 → good j → wordsLine ((List.range 32).map fun l => x.peek t.ch (32 * line j + l)) = d j) ∧
          (∀ j, j < 64 → ¬ good j → ∀ l, l < 32 → x.peek t.ch (32 * line j + l) = s'.peek t.ch (32 * line j + l)) ∧
          (∀ h, h < 4 → wordsLine ((List.range 32).map fun l => x.peek t.ch (32 * line (64 + h) + l)) = (pget t.lines h).getD 0) ∧
          (∀ n, (∀ j, j < 68 → n / 64 ≠ (memKey t.ch (32 * line j)) / 64) → memByte x.mem n = memByte s'.mem n) ∧ x.pending = s.pending) ∧
      (∀ res page, inflate stream ≠ .error res → (res ≠ 0 ∨ inflate stream ≠ .ok page) → Happens (i res page) s dt fun x y => y = x)) ∧
    ((∀ op t, pget u.dms id = some op → op.tier = some t → t.kind ≠ .fetch ∨ u.onLane t = false) →
      ∀ res page, Happens (i res page) s dt fun x y => y = x))

/-- R19, R21, R118, R139, R140, R158, R405: the crypto neighbour's answer for a line, and the messages of a fabric port; a line rejected there is dropped
without an answer, which is the model's choice (log 146). -/
def Sys2Proof.Claims.NeighbourAnswers : Prop :=
  ∀ (s : State) (dt n : Nat) (status : BitVec 4) (data : Line) (fport : BitVec 4) (q : RemReq) (r : RemRsp),
    let k := (s.pass dt).blk
    let crypt := Settles (.cryptoResult dt n status data) s dt
    let fabric (m : FabMsg) := Settles (.fabricMessage dt fport m) s dt
    (pget k.crypt n = none → crypt fun u w => w = u) ∧
    (∀ ch m id j, pget k.crypt n = some ⟨ch, m⟩ → m.purp = .job id → k.job id = some j →
      let taken : Blk := { k with crypt := pdel k.crypt n }
      (status = 0 → m.wr = true → crypt fun _ w => w = taken.enqueue ch { m with data := data, enter := k.now }) ∧
      (status = 0 → m.wr = false → crypt fun _ w => w = taken.jobGot id j (.line data m.mta m.again)) ∧
      (status ≠ 0 → ch < 32 → m.cl < 2 ^ 33 → crypt fun _ w => ∃ y : Blk, taken.tells y (187 + 2 * ch) (some (0x13, 15 * 2 ^ 28 + k.mapIdx ch m.cl * 2 ^ 24))
          [F.MU_ERR_CL_LO_off ch, F.MU_ERR_CL_HI_off ch, F.MU_UE_CNT_off ch] ∧ taken.alikeButRegs y ∧
        y.fld (F.MU_UE_CNT_COUNT ch) = (if m.wr then k.fld (F.MU_UE_CNT_COUNT ch)
          else min (2 ^ (F.MU_UE_CNT_COUNT ch).w - 1) (k.fld (F.MU_UE_CNT_COUNT ch) + 1)) ∧
        w = if m.wr then (y.setJob id { j with bad := true }).enqueue ch
              { m with data := 0, mta := metaWord (mint 0 j.addr (segKEYGEN j.w0)) 0 0 true, enter := k.now }
          else y.jobGot id j .bad)) ∧
    (∀ ch m id i, pget k.crypt n = some ⟨ch, m⟩ → m.purp = .tier id i → m.wr = true →
      let taken : Blk := { k with crypt := pdel k.crypt n }
      (status = 0 → crypt fun _ w => w = taken.enqueue ch { m with data := data, enter := k.now }) ∧
      (∀ op t, status ≠ 0 → ch < 32 → m.cl < 2 ^ 33 → pget k.dms id = some op → op.tier = some t → crypt fun _ w => ∃ y : Blk,
        taken.tells y (187 + 2 * ch) (some (0x13, 15 * 2 ^ 28 + k.mapIdx ch m.cl * 2 ^ 24)) [F.MU_ERR_CL_LO_off ch, F.MU_ERR_CL_HI_off ch] ∧
        taken.alikeButRegs y ∧ w = (y.setTier id { t with refused := true }).enqueue ch { m with data := 0, mta := m.mta ||| 2, enter := k.now })) ∧
    (let seg := q.addr.toNat / 2 ^ 36
     let sound := mint (if q.op = .ptl then maskLine q.data q.mask else q.data) (BitVec.ofNat 48 (q.addr.toNat / 64 * 64)) (segKEYGEN (k.segWord seg 0)) = q.chk
     let home := k.segOk seg = true ∧ segREMOTE (k.segWord seg 0) = false
     ((q.op ≠ .rd → ¬ sound → fabric (.req q) fun u w => w = u) ∧
      ((q.op = .rd ∨ sound) → ¬ home → fabric (.req q) fun u w => w = { u with fabTx := u.fabTx ++ [(fport, .rsp ⟨q.ref, none, true⟩)] }) ∧
      ((q.op = .rd ∨ sound) → home → fabric (.req q) fun u w => w.jobNo = u.jobNo + 1 ∧ w.seqNo = u.seqNo + 1 ∧
        (∀ j, j ≠ u.jobNo → pget w.jobs j = pget u.jobs j) ∧ { w with jobs := u.jobs, jobNo := u.jobNo, seqNo := u.seqNo, latch := u.latch } = u ∧
        ∃ j, pget w.jobs u.jobNo = some j ∧ j.owner = .rem (some fport) q ∧ j.op = q.op ∧ j.addr.toNat = q.addr.toNat / 64 * 64 ∧
          j.cls = wordFld (u.segWord seg 0) 24 2 + 1 ∧ j.phase = .held ∧ j.seq = u.seqNo ∧
          j.ctx / 64 = workBay j.w0 j.w1 j.w2 j.addr ∧ j.data = q.data ∧ j.mask = q.mask ∧ j.pois = q.pois ∧ j.mval = q.mval ∧ j.chk = q.chk))) ∧
    (let found := k.jobs.find? fun x => x.2.phase == .remote && x.2.ref x.1 == r.ref
     let ends (id : Nat) (j : Job) (o : JobOut) : Prop := fabric (.rsp r) fun u w => pget w.jobs id = none ∧
       w.fin = u.fin ++ [(j.owner, o, j.addr)] ∧ { w with jobs := u.jobs, fin := u.fin } = u
     (found = none → fabric (.rsp r) fun u w => w = u) ∧
     (∀ id j, found = some (id, j) → pget k.jobs id = some j →
       (∀ d m, j.op = .rd → r.line = some (d, m) →
         let sound := mint d (BitVec.ofNat 48 (j.addr.toNat / 64 * 64)) (segKEYGEN (k.segWord (j.addr.toNat / 2 ^ 36) 0)) = mCheck m
         (sound → ends id j (.line d m)) ∧ (¬ sound → fabric (.rsp r) fun u w => w = u)) ∧
       (j.op = .rd → r.line = none → ends id j (.bad 0x11)) ∧
       (j.op ≠ .rd → r.line = none → ends id j (if j.bad then .failed else if r.bad then .refused else .wrote))))

/-- R21, R25, R158 to R182, R188, R194: the messages of the twin link. A chip without a partner discards them; one in error, or whose line does not match
its check value, is rejected with event 9 and NAK_LINK; any ends the silence. -/
def Sys2Proof.Claims.TwinMessages : Prop :=
  ∀ (s : State) (dt : Nat) (h : TwHdr) (frame : FrameIx) (ver : Word) (state : BitVec 3) (c : LedCopy) (p : Port) (idx : Fin 8192) (a : PAddr)
    (ref : OriginRef) (mta crc : Word) (merged : Option Line) (no : Nat) (copy : Bool) (cp : Option (Line × Word)) (data : Line) (q : RemReq) (r : RemRsp),
    let k := (s.pass dt).blk
    let live := k.twState = 2 ∨ k.twState = 3 ∨ k.twState = 4 ∨ k.twState = 6
    let x : Blk := { k with tw := { k.tw with lastMsg := k.tw.slotNo } }
    let rejected (x : Blk) (seg : Nat) (w : Blk) : Prop := x.tells w 9 (some (0x20, seg)) [F.TW_CNT_LINK_COUNT.off] ∧ x.sends w [.nakLink h.ref] ∧
      w.fld F.TW_CNT_LINK_COUNT = min (2 ^ F.TW_CNT_LINK_COUNT.w - 1) (x.fld F.TW_CNT_LINK_COUNT + 1) ∧
      { w with regs := x.regs, ev := x.ev, fresh := x.fresh, tw := { w.tw with tx := x.tw.tx, txNo := x.tw.txNo } } = x
    let about (i : Instr) (seg : Nat) (ok : Prop) (post : Blk → Prop) : Prop :=
      (live → h.err = false → ok → Settles i s dt fun _ w => post w) ∧
      (live → (h.err = true ∨ ¬ ok) → Settles i s dt fun _ w => rejected x seg w) ∧
      (¬ live → Settles i s dt fun u w => w = u)
    let msg (i : Instr) := about i 0
    let line (a : PAddr) : PAddr := BitVec.ofNat 48 (a.toNat / 64 * 64)
    let only (w : Blk) (l : List TwMsg) : Prop := x.sends w l ∧ { w with tw := { w.tw with tx := x.tw.tx, txNo := x.tw.txNo } } = x
    let sound (a : PAddr) (d : Line) (chk : BitVec 24) : Prop :=
      mint d (line a) (segKEYGEN (x.segWord (a.toNat / 2 ^ 36) 0)) = chk
    let reqSound (op : MemOp) (a : PAddr) (d : Line) (m : BitVec 64) (chk : BitVec 24) : Prop :=
      op = .rd ∨ sound a (if op = .ptl then maskLine d m else d) chk
    let primary (g : Nat) : Prop := let st := if k.twState = 4 then k.tw.prior else k.twState
      if st = 2 then k.fld F.TW_STAT_SIDE = g % 2 else if st = 3 ∨ st = 6 then k.fld F.TW_STAT_LEAD = 1 else True
    let back : OriginRef := { ref with mine := !ref.mine }
    let mirrored := x.jobs.find? fun y => y.2.phase == .twin && originRef y.1 y.2.owner == back
    let staged (v w : Blk) (n : Nat) (j : Job) : Prop :=
      (j.media = true → w = { v with jobs := pset v.jobs n { j with owner := .nobody, phase := .staged } }) ∧
      (j.media = false → w = { v with jobs := pdel v.jobs n })
    -- BCN: what is counted and shown, then what the state makes of it
    msg (.bcn dt h frame ver state) True (fun w => ∃ y : Blk,
      (let n := if frame = k.tw.frame0 then 0 else k.tw.misses + 1
       y.rd F.TW_PVER_off = ver ∧ y.rd F.TW_STAT_off = (x.setBit F.TW_STAT_VERDIFF (ver != k.csVersion)).rd F.TW_STAT_off ∧
       (n = 2 → y.tw = { x.tw with misses := 0 } ∧ x.tells y 11 (some (0x40, 0)) [F.TW_PVER_off, F.TW_STAT_off]) ∧
       (n ≠ 2 → y.tw = { x.tw with misses := n } ∧ y.ev = x.ev ∧ x.keepsRegs y [F.TW_PVER_off, F.TW_STAT_off]) ∧
       { y with regs := x.regs, ev := x.ev, fresh := x.fresh, tw := x.tw } = x) ∧
      (state = 5 → y.failsTo w (some (0x50, 0))) ∧
      (state ≠ 5 → k.twState = 2 → ver ≠ k.csVersion → ∃ z : Blk, z = { y.setFld F.TW_STAT_STATE 3 with tw := { y.tw with verSince := none } } ∧
        z.tells w 12 none [F.TW_STAT_off] ∧ z.alikeButRegs w ∧ w.twState = 3 ∧ w.fld F.TW_STAT_LEAD = (if y.fld F.TW_STAT_SIDE = 0 then 1 else 0)) ∧
      (state ≠ 5 → k.twState = 3 → ver ≠ k.csVersion → w = { y with tw := { y.tw with verSince := none } }) ∧
      (state ≠ 5 → k.twState = 3 → ver = k.csVersion → k.tw.verSince = none → w = { y with tw := { y.tw with verSince := some frame.toNat } }) ∧
      (∀ t, state ≠ 5 → k.twState = 3 → ver = k.csVersion → k.tw.verSince = some t → frame.toNat ≤ t → w = y) ∧
      (∀ t, state ≠ 5 → k.twState = 3 → ver = k.csVersion → k.tw.verSince = some t → t < frame.toNat → w.twState = 2 ∧ w.fld F.TW_STAT_LEAD = 0 ∧
        y.tells w 12 none [F.TW_STAT_off] ∧ { w with regs := y.regs, ev := y.ev, fresh := y.fresh } = { y with tw := y.tw.watchFrom }) ∧
      (state ≠ 5 → k.twState = 4 ∨ k.twState = 6 ∨ (k.twState = 2 ∧ ver = k.csVersion) → w = y)) ∧
    msg (.keep dt h) True (fun w => w = x) ∧
    msg (.bye dt h) True (fun w => w = x) ∧
    -- the ledger's mirror
    about (.lcpy dt h c) (c.addr.toNat / 2 ^ 36) (reqSound c.op c.addr c.data c.mask c.chk) (fun w => ∃ y : Blk,
      x.sends y [.lack c.port c.idx] ∧ (∀ n, pget y.tw.shadow n = if n = ledKey c.port c.idx then some ⟨c, false⟩ else pget x.tw.shadow n) ∧
      { y with tw := { y.tw with tx := x.tw.tx, txNo := x.tw.txNo, shadow := x.tw.shadow } } = x ∧
      (let orders := c.mirr = true ∧ c.op ≠ .rd ∧ primary (c.addr.toNat / 2 ^ 36)
       (orders → ∃ j, y.addsJob w j (.lcpy c.port c.idx) c.op c.addr none ∧ j.data = c.data ∧ j.mask = c.mask ∧ j.pois = c.pois ∧ j.mval = c.mval ∧
         j.chk = c.chk) ∧ (¬ orders → w = y))) ∧
    msg (.lack dt h p idx) True (fun w =>
      (∀ m i, i < 8192 → w.ent m i = if m = p.val ∧ i = idx.val ∧ (x.ent m i).copied = true then { x.ent m i with mled := true } else x.ent m i) ∧
      { w with led := x.led } = x) ∧
    msg (.lfree dt h p idx) True (fun w => (∀ n, pget w.tw.shadow n = if n = ledKey p idx then none else pget x.tw.shadow n) ∧
      { w with tw := { w.tw with shadow := x.tw.shadow } } = x) ∧
    -- ordering of mirrored writes
    (let held : Option Line := match merged with
       | some d => some d
       | none => if ref.eng.isSome then none else if ref.mine then (pget x.tw.shadow (ledKey ref.port ref.idx)).map (·.c.data) else some (x.ent ref.port ref.idx).data
     about (.wrq dt h a ref frame mta merged) (a.toNat / 2 ^ 36) (∃ d, held = some d ∧ sound a d (mCheck mta)) fun w => ∀ d, held = some d →
       (frame < k.tb.frame → only w [.nakLate back k.tb.frame]) ∧
       (k.tb.frame ≤ frame → ∃ (v y y' z : Blk) (j j' : Job),
         x.dropsRcp v (line a) ∧
         v.addsJob y j .nobody .wr a none ∧ j' = { j with data := d, mta := mta, stamp := frame } ∧ y' = { y with jobs := pset y.jobs v.jobNo j' } ∧
         (ref.eng.isSome = true → z = y'.go v.jobNo j') ∧
         (ref.eng = none → ref.mine = true → (∀ n, pget z.tw.shadow n = if n = ledKey ref.port ref.idx then (pget (y'.go v.jobNo j').tw.shadow n).map (fun v => { v with staged := true })
             else pget (y'.go v.jobNo j').tw.shadow n) ∧ { z with tw := { z.tw with shadow := (y'.go v.jobNo j').tw.shadow } } = y'.go v.jobNo j') ∧
         (ref.eng = none → ref.mine = false → (let v := y'.go v.jobNo j'
            match v.jobOf (.led ref.port ref.idx) with
            | some (id, o) => z = if (o.phase = .origin ∨ o.phase = .held) ∧ o.bad = false then v.finish id .wrote else v
            | none => z = v.ledDone ref.port ref.idx .wrote)) ∧
         z.sends w [.ack back frame] ∧ { w with tw := { w.tw with tx := z.tw.tx, txNo := z.tw.txNo } } = z)) ∧
    msg (.ack dt h ref frame) True (fun w =>
      (∀ n j j2, mirrored = some (n, j) → pget x.jobs n = some j2 → j.stamp = frame → ∃ v : Blk,
        v.fld F.TW_CNT_WR_COUNT = min (2 ^ F.TW_CNT_WR_COUNT.w - 1) (x.fld F.TW_CNT_WR_COUNT + 1) ∧ x.onlyRegs v [F.TW_CNT_WR_COUNT.off] ∧
        staged { v with fin := x.fin ++ [(j.owner, if j.bad then .failed else .wrote, j.addr)] } w n j2) ∧
      ((∀ n j, mirrored = some (n, j) → j.stamp ≠ frame) → w = x)) ∧
    msg (.nakLate dt h ref frame) True (fun w =>
      (∀ n j, mirrored = some (n, j) → ∃ own : Option Line,
        let now : FrameIx := if k.tb.slot.toNat ≤ k.fld F.TW_CFG_CUTOFF then k.tb.frame else k.tb.frame + 1
        let j' := { j with stamp := if now < frame then frame else now }
        x.sends w [.wrq j.addr (originRef n j.owner) j'.stamp j.mta own] ∧ (let whole := j.op = .ptl ∨ j.bad = true ∨ (originRef n j.owner).eng ≠ none
         (whole → own = some j.data) ∧ (¬ whole → own = none)) ∧ (∀ n', pget w.jobs n' = if n' = n then some j' else pget x.jobs n') ∧
        w.fld F.TW_CNT_LATE_COUNT = min (2 ^ F.TW_CNT_LATE_COUNT.w - 1) (x.fld F.TW_CNT_LATE_COUNT + 1) ∧ x.keepsRegs w [F.TW_CNT_LATE_COUNT.off] ∧
        { w with regs := x.regs, fresh := x.fresh, jobs := x.jobs, tw := { w.tw with tx := x.tw.tx, txNo := x.tw.txNo } } = x) ∧
      (mirrored = none → w = x)) ∧
    (let resends (x w : Blk) : Prop :=
       let n := tget (fun _ => 0) x.tw.rejects no + 1
       let y : Blk := { x with tw := { x.tw with rejects := tset (fun _ => 0) x.tw.rejects no n } }
       (3 ≤ n → y.losesLink w) ∧
       (n < 3 → ∀ m, (x.tw.tx.find? fun z => z.1 == no) = some m → w = { y with tw := { y.tw with tx := x.tw.tx ++ [m] } }) ∧
       (n < 3 → (∀ z, z ∈ x.tw.tx → z.1 ≠ no) → w = y)
     let alone := k.twState = 1 ∨ k.twState = 5
     let nak := Settles (.nakLink dt h no) s dt
     (live → h.err = false → nak fun _ w => resends x w) ∧ (live → h.err = true → nak fun _ w => rejected x 0 w) ∧
     (alone → h.err = false → nak fun u w => resends u w) ∧ (alone → h.err = true → nak fun u w => rejected u 0 w) ∧
     (¬ live → ¬ alone → nak fun u w => w = u)) ∧
    -- copies
    msg (.mrd dt h a copy) True (fun w => ∃ (y : Blk) (j : Job),
      (copy = true → x.addsJob w j .rcpRead .rd a (some 4)) ∧
      (copy = false → x.addsJob y j .mrd .rd a none ∧ w = y.go x.jobNo j)) ∧
    about (.mrs dt h a cp) (a.toNat / 2 ^ 36) (∀ d m, cp = some (d, m) → sound a d (mCheck m)) (fun w =>
      let found := x.jobs.find? fun y => decide (y.2.addr.toNat = a.toNat / 64 * 64) &&
        (y.2.phase == .mirRead || y.2.phase == .mirGen || (y.2.phase == .dual && y.2.rmt.isNone))
      (found = none → w = x) ∧
      (∀ n j, found = some (n, j) →
        (j.phase = .mirRead → cp = none → w = x.finish n (.bad 0x11)) ∧
        (∀ d m, j.phase = .mirRead → cp = some (d, m) → ∃ y : Blk, only y [.mrd j.addr true] ∧
          (j.owner ≠ .vfyP → w = y.finish n (.line d m)) ∧ (j.owner = .vfyP → w = ((y.bump F.TW_VFY_STAT_DIFFS).delJob n).vfyEnd)) ∧
        (j.phase = .mirGen → w = x.setJob n { j with phase := .genDone, gen := cp }) ∧
        (j.phase = .dual → j.loc = none → w = x.setJob n { j with rmt := some cp }) ∧
        (∀ l, j.phase = .dual → j.loc = some l → w = x.settleDual n j l cp))) ∧
    (let rcp := Settles (.rcp dt h a data mta) s dt
     let ok := sound a data (mCheck mta)
     (live → h.err = false → ok → rcp fun _ w => ∃ (v y : Blk) (j j' : Job), x.copyCame v (line a) true ∧ v.addsJob y j .rcpWrite .wr a (some 4) ∧
       j' = { j with data := data, mta := mta } ∧ w = ({ y with jobs := pset y.jobs v.jobNo j' }).go v.jobNo j') ∧
     (live → (h.err = true ∨ ¬ ok) → rcp fun u w => ∃ v : Blk, u.copyCame v (line a) false ∧
       rejected { v with tw := { v.tw with lastMsg := v.tw.slotNo } } (a.toNat / 2 ^ 36) w) ∧
     (¬ live → rcp fun u w => w = u)) ∧
    msg (.vrq dt h a mta crc) True (fun w => ∃ (y : Blk) (j : Job), x.addsJob y j (.vfyS mta crc) .rd a (some 4) ∧ w = y.go x.jobNo j) ∧
    -- work for another chip
    about (.fwd dt h q) (q.addr.toNat / 2 ^ 36) (reqSound q.op q.addr q.data q.mask q.chk) (fun w =>
      let g := q.addr.toNat / 2 ^ 36
      let home := x.segOk g = true ∧ segREMOTE (x.segWord g 0) = false
      (home → ∃ j, x.addsJob w j (.rem none q) q.op q.addr none ∧ j.data = q.data ∧ j.mask = q.mask ∧ j.pois = q.pois ∧ j.mval = q.mval ∧ j.chk = q.chk) ∧
      (¬ home → x.sends w [.fwr ⟨q.ref, none, true⟩] ∧
        (∀ n, pget w.tw.shadow n = if n = q.ref then (pget x.tw.shadow n).map (fun v => { v with staged := true }) else pget x.tw.shadow n) ∧
        { w with tw := { w.tw with tx := x.tw.tx, txNo := x.tw.txNo, shadow := x.tw.shadow } } = x)) ∧
    (let found := x.jobs.find? fun y => y.2.phase == .remote && y.2.ref y.1 == r.ref
     about (.fwr dt h r) (match found with | some (_, j) => j.addr.toNat / 2 ^ 36 | none => 0) (∀ id j d m, found = some (id, j) → r.line = some (d, m) → sound j.addr d (mCheck m)) fun w =>
       (found = none → w = x) ∧
       (∀ id j j2, found = some (id, j) → pget x.jobs id = some j2 → w = { x with jobs := pdel x.jobs id, fin := x.fin ++ [(j2.owner,
         (if j.op = .rd then (match r.line with | some (d, m) => JobOut.line d m | none => .bad 0x11) else if j.bad then .failed else if r.bad then .refused else .wrote), j2.addr)] }))

/-- R163, R164, R168, R180, R184: the generation read of a mirrored write completes: the generation counts on, a line lost becomes a failed
transaction, and the write goes to the media and to the partner with its stamp, or without a partner is held alone. -/
def Sys2Proof.Claims.MirroredWrites : Prop :=
  (∀ (s : State) (dt id : Nat),
    let k := (s.pass dt).blk
    let live := k.twState = 2 ∨ k.twState = 3 ∨ k.twState = 4 ∨ k.twState = 6
    let now : FrameIx := if k.tb.slot.toNat ≤ k.fld F.TW_CFG_CUTOFF then k.tb.frame else k.tb.frame + 1
    let does := Settles (.mirrorGenReadComplete dt id) s dt
    ((∀ j, pget k.jobs id = some j → j.phase ≠ .genDone) → does fun u w => w = u) ∧
    (∀ j, pget k.jobs id = some j → j.phase = .genDone → (∀ p i, j.owner ≠ .lcpy p i) → (∀ p i, j.owner ≠ .led p i) → segCOMP j.w0 = false →
      let g : BitVec 4 := match j.gen with | some (_, m) => m.extractLsb' 4 4 + 1 | none => 1
      let bad := j.bad = true ∨ (j.op = .ptl ∧ j.gen = none)
      let plc := linePlace j.w1 j.w2 j.addr
      let key := if segCRYPT j.w0 then some (segKEYIDX j.w1) else none
      let media (u w : Blk) (d : Line) (m : Word) : Prop := w = (if key.isSome then u.toCrypt plc.1 else u.enqueue plc.1)
        ⟨j.cls, true, plc.2, d, m, .job id, key, j.addr, u.now, false, false, false⟩
      let line (d : Line) (m : Word) : Prop :=
        if bad then d = 0 ∧ m = metaWord (mint 0 j.addr (segKEYGEN j.w0)) g 0 true
        else if j.op = .ptl then ∃ old om, j.gen = some (old, om) ∧ d = mergeLine old j.data j.mask ∧
          m = metaWord (om.extractLsb' 8 24 ^^^ mint (maskLine old j.mask) j.addr (segKEYGEN j.w0) ^^^ j.chk) g j.mval
            (if j.mask = BitVec.allOnes 64 then j.pois else j.pois || om.getLsbD 1)
        else d = j.data ∧ m = metaWord j.chk g j.mval j.pois
      does fun k w => ∃ (d : Line) (m : Word) (u v : Blk), line d m ∧ k.dropsRcp u j.addr ∧
        (let j' := { j with bad := decide bad, stamp := now, data := d, mta := m, media := true }
         (live → media { u with jobs := pset u.jobs id { j' with phase := .twin } } v d m ∧ ∃ own : Option Line,
           v.sends w [.wrq j.addr (originRef id j.owner) now m own] ∧ own = some d ∧
           { w with tw := { w.tw with tx := v.tw.tx, txNo := v.tw.txNo } } = v) ∧
         (¬ live → media { u with jobs := pset u.jobs id { j' with owner := .nobody, phase := .staged } } v d m ∧
           w.fin = u.fin ++ [(j.owner, if bad then .failed else .wrote, j.addr)] ∧
           w.fld F.TW_CNT_WR_COUNT = min (2 ^ F.TW_CNT_WR_COUNT.w - 1) (v.fld F.TW_CNT_WR_COUNT + 1) ∧ v.keepsRegs w [F.TW_CNT_WR_COUNT.off] ∧
           { w with regs := v.regs, fresh := v.fresh, fin := v.fin } = v))) ∧
    (∀ j p i, pget k.jobs id = some j → j.phase = .genDone → j.owner = .led p i → p < 4 → i < 8192 → live → (k.ent p i).st ≠ .free → (k.ent p i).st ≠ .resp →
      does fun _ w => (w.ent p i) = { k.ent p i with st := if k.twState = 4 then .engine else .twin } ∧ ∃ (d : Line) (m : Word) (own : Option Line),
        k.sends w [.wrq j.addr ⟨true, Fin.ofNat 4 p, Fin.ofNat 8192 i, none⟩ now m own] ∧ (∃ j', pget w.jobs id = some j' ∧ j'.phase = .twin ∧ j'.stamp = now ∧
          j'.data = d ∧ j'.mta = m ∧ j'.owner = .led p i) ∧
        ((j.op = .wr ∧ j.bad = false) → d = j.data ∧ m = metaWord j.chk (match j.gen with | some (_, m) => m.extractLsb' 4 4 + 1 | none => 1) j.mval j.pois ∧
          own = none)) ∧
    (∀ j p i, pget k.jobs id = some j → j.phase = .genDone → j.owner = .lcpy p i → p < 4 → i < 8192 → live → does fun _ w =>
      (∀ x, pget k.tw.shadow (ledKey p i) = some x → pget w.tw.shadow (ledKey p i) = some { x with staged := true }) ∧
      ∃ (m : Word) (own : Option Line), k.sends w [.wrq j.addr ⟨false, Fin.ofNat 4 p, Fin.ofNat 8192 i, none⟩ now m own] ∧
        ∃ j', pget w.jobs id = some j' ∧ j'.phase = .twin ∧ j'.stamp = now ∧ j'.mta = m)) ∧
  (∀ (s : Blk) (id : Nat) (j : Job) (mine theirs : Option (Line × Word)),
    let g := j.addr.toNat / 2 ^ 36
    let prim := s.primary g
    let a := if prim then mine else theirs
    let b := if prim then theirs else mine
    let verify := j.owner = .vfyP ∨ ∃ m c, j.owner = .vfyS m c
    let w := s.settleDual id j mine theirs
    let ends (v : Blk) (x : Option (Line × Word)) : Prop := (verify → w = v.delJob id) ∧
      (¬ verify → w = v.finish id (match x with | some (d, m) => .line d m | none => .bad 0x11))
    -- the copy of A goes to B, or that of B to A
    let copies (fromA : Bool) (v z : Blk) : Prop := if fromA = prim then ∃ c, v.addsJob z c .rcpRead .rd j.addr (some 4)
      else v.sends z [.mrd j.addr true] ∧ { z with tw := { z.tw with tx := v.tw.tx, txNo := v.tw.txNo } } = v
    let y := if verify then s.bump F.TW_VFY_STAT_DIFFS else s
    let listed := ∃ n, (n, j.addr) ∈ s.tw.susp
    (∀ c, a = some c → listed → ends s a) ∧
    (a = none ∨ ¬ listed →
      (a = none → b = none → ends y none) ∧
      (∀ c, a = some c → b = none → ∃ z, copies true y z ∧ ends z a) ∧
      (∀ c, a = none → b = some c → ∃ z, copies false y z ∧ ends z b) ∧
      (∀ c d : Line × Word, a = some c → b = some d →
        let n := (c.2.extractLsb' 4 4 - d.2.extractLsb' 4 4).toNat
        (c = d → ends s a) ∧
        (c ≠ d → 1 ≤ n → n ≤ 7 → ∃ z, copies true (y.bump F.TW_CNT_NEWER_COUNT) z ∧ ends z a) ∧
        (c ≠ d → 9 ≤ n → ∃ z, copies false (y.bump F.TW_CNT_NEWER_COUNT) z ∧ ends z b) ∧
        (c ≠ d → (n = 0 ∨ n = 8) → ∃ u v z : Blk,
          ((∀ i, i < 64 → pget y.tw.susp i ≠ none) → y.onlyRegs u [F.TW_STAT_off] ∧ u.rd F.TW_STAT_off = (y.setFld F.TW_STAT_SUSOVF 1).rd F.TW_STAT_off) ∧
          (∀ i, i < 64 → pget y.tw.susp i = none → (∀ m, m < i → pget y.tw.susp m ≠ none) →
            (∀ m, pget u.tw.susp m = if m = i then some j.addr else pget y.tw.susp m) ∧ { u with tw := { u.tw with susp := y.tw.susp } } = y) ∧
          u.tells v 8 (some (0x10, g)) [F.TW_CNT_DIV_COUNT.off] ∧ u.alikeButRegs v ∧
          v.fld F.TW_CNT_DIV_COUNT = min (2 ^ F.TW_CNT_DIV_COUNT.w - 1) (u.fld F.TW_CNT_DIV_COUNT + 1) ∧ copies true v z ∧ ends z a))))

/-- R175 to R189: HELLO and its checks, what a frame boundary does to the pair, the writes of TW_CTRL (each of TW_PAIR, TW_LEAVE, TW_FAIL and
VERIFY_WALK_START is a write of the whole register, with the bit that it names written 1), and what the pins, the heartbeat and the silences do. -/
def Obligations.TwinPair : Prop :=
  (∀ (s : State) (dt : Nat) (h : TwHdr) (m : HelloMsg) (req : Req) (v : Word) (pin : TwPins),
    let k := (s.pass dt).blk
    let stat := [F.TW_STAT_off, F.TW_CTRL_off]
    let quiet (x : Blk) : Blk := { x with tw := { x.tw with helloTx := none, helloRx := none } }
    let own (x : Blk) : HelloMsg := ⟨decide (x.fld F.TW_STAT_SIDE = 1), BitVec.ofNat 4 (x.fld F.TW_CFG_PAIRID), decide (x.fld F.TW_CTRL_JOIN = 1), x.csVersion,
      x.tb.frame, x.rd F.TW_SEGSUM_off, BitVec.ofNat 3 x.twState⟩
    let judged (x : Blk) (o : HelloMsg) (w : Blk) : Prop :=
      let joins := (o.state = 5 ∧ m.join = true) ∨ (o.state ≠ 5 ∧ o.join = true ∧ m.state = 5) ∨
        (o.state ≠ 5 ∧ o.join = false ∧ m.join = false ∧ m.state ≠ 5)
      let fails (c : Nat) : Prop := (c = 0x30 ∧ o.side = m.side) ∨ (c = 0x31 ∧ o.side ≠ m.side ∧ o.pairId ≠ m.pairId) ∨
        (c = 0x32 ∧ o.side ≠ m.side ∧ o.pairId = m.pairId ∧ o.segsum ≠ m.segsum) ∨
        (c = 0x33 ∧ o.side ≠ m.side ∧ o.pairId = m.pairId ∧ o.segsum = m.segsum ∧ o.frame ≠ m.frame) ∨
        (c = 0x34 ∧ o.side ≠ m.side ∧ o.pairId = m.pairId ∧ o.segsum = m.segsum ∧ o.frame = m.frame ∧ ¬ joins)
      ((∀ c, ¬ fails c) → w = { x with tw := { x.tw with agreedAt := some (if x.now = x.tb.slotAt then x.tw.slotNo else x.tw.slotNo + 1) } }) ∧
      (∀ c, fails c → (let y := if x.twState = 1 then (quiet x).setFld F.TW_STAT_STATE 0 else quiet x
        y.tells w 10 (some (c, 0)) [] ∧ y.alikeButRegs w))
    let hello (post : Blk → Blk → Prop) := Settles (.hello dt h m) s dt post
    let heard (x : Blk) : Blk := let y := (x.wr F.TW_PVER_off m.ver).setBit F.TW_STAT_VERDIFF (m.ver != x.csVersion)
      { y with tw := { y.tw with helloRx := some m } }
    let answers := k.twState = 5 ∧ k.fld F.TW_CTRL_PAIR = 1 ∧ m.join = true
    (h.err = true → (k.twState = 1 ∨ k.twState = 5) → hello fun u w => u.tells w 9 (some (0x20, 0)) [F.TW_CNT_LINK_COUNT.off] ∧
      u.sends w [.nakLink h.ref] ∧ w.fld F.TW_CNT_LINK_COUNT = min (2 ^ F.TW_CNT_LINK_COUNT.w - 1) (u.fld F.TW_CNT_LINK_COUNT + 1) ∧
      { w with regs := u.regs, ev := u.ev, fresh := u.fresh, tw := { w.tw with tx := u.tw.tx, txNo := u.tw.txNo } } = u) ∧
    (h.err = false → k.twState = 1 → k.tw.agreedAt = none → k.tw.helloTx = none → hello fun u w => w = heard u) ∧
    (∀ o, h.err = false → k.twState = 1 → k.tw.agreedAt = none → k.tw.helloTx = some o → hello fun u w => judged (heard u) o w) ∧
    (h.err = false → answers → k.tw.agreedAt = none → hello fun u w => ∃ x : Blk, (heard u).sends x [.hello (own u)] ∧
      x.tw.helloTx = some (own u) ∧ x.tw.helloRx = some m ∧
      { x with tw := { x.tw with tx := u.tw.tx, txNo := u.tw.txNo, helloTx := u.tw.helloTx } } = heard u ∧ judged x (own u) w) ∧
    (h.err = false → (k.twState = 1 ∨ answers) → k.tw.agreedAt ≠ none → hello fun u w => w = u) ∧
    (k.twState ≠ 1 → ¬ answers → (h.err = true → k.twState ≠ 5) → hello fun u w => w = u) ∧
    -- the levels at the pins, and TW_CTRL
    let pinned (u : Blk) (pin : TwPins) (w : Blk) : Prop :=
      let x : Blk := { (u.setBit F.TW_STAT_PRES pin.pres).setBit F.TW_STAT_PFAIL pin.fail with tw := { u.tw with pin := pin } }
      let y := x.setBit F.TW_STAT_RALRDY (decide (x.fld F.TW_CTRL_RALGN = 1) && pin.sync)
      let lost := pin.pres = false ∨ (pin.fail = true ∧ u.tw.failOut = false)
      (lost → y.suspectsTo w 2) ∧ (¬ lost → w = y)
    (let written (v : Word) (u w : Blk) : Prop := ∃ y : Blk,
       let pair := F.TW_CTRL_PAIR.get v
       let opens := pair = 1 ∧ u.twState = 0 ∧ u.tw.pin.pres = true ∧ (u.fld F.SC_TB_STAT_STATE = 2 ∨ u.fld F.SC_TB_STAT_STATE = 3)
       let absent := pair = 1 ∧ u.tw.pin.pres = false
       let ends := pair = 0 ∧ u.twState = 1
       let walk := F.TW_CTRL_VFYGO.get v = 1 ∧ u.fld F.TW_STAT_VFYBUSY = 0 ∧
         (u.twState = 2 ∨ u.twState = 3 ∨ u.twState = 4 ∨ u.twState = 6) ∧ ((if u.twState = 4 then u.tw.prior else u.twState) = 2 ∨ u.fld F.TW_STAT_LEAD = 1)
       let leaves := F.TW_CTRL_LEAVE.get v = 1 ∧ (u.twState = 2 ∨ u.twState = 3)
       y.twState = (if opens then 1 else if ends then 0 else u.twState) ∧
       y.fld F.TW_CTRL_RALGN = F.TW_CTRL_RALGN.get v ∧ y.fld F.TW_CTRL_DUAL = F.TW_CTRL_DUAL.get v ∧ y.fld F.TW_CTRL_PAIR = pair ∧
       y.fld F.TW_CTRL_JOIN = (if u.twState = 0 then F.TW_CTRL_JOIN.get v else u.fld F.TW_CTRL_JOIN) ∧
       y.fld F.TW_STAT_RALRDY = (decide (F.TW_CTRL_RALGN.get v = 1) && u.tw.pin.sync).toNat ∧
       y.fld F.TW_STAT_VFYBUSY = (if walk then 1 else u.fld F.TW_STAT_VFYBUSY) ∧ y.fld F.TW_CTRL_LEAVE = (if leaves then 1 else u.fld F.TW_CTRL_LEAVE) ∧
       (∀ f, f ∈ [F.TW_STAT_VERDIFF, F.TW_STAT_RSYBUSY, F.TW_STAT_SUSOVF, F.TW_STAT_PFAIL, F.TW_STAT_PRES, F.TW_STAT_LEAD, F.TW_STAT_SIDE] →
         y.fld f = u.fld f) ∧
       (absent → u.tells y 10 (some (0x35, 0)) stat) ∧ (¬ absent → y.ev = u.ev ∧ u.keepsRegs y stat) ∧
       (walk → y.tw.vfy = (List.range 32).map fun c => (c, 0)) ∧ (¬ walk → y.tw.vfy = u.tw.vfy) ∧
       (opens ∨ ends → y.tw.helloTx = none ∧ y.tw.helloRx = none ∧ y.tw.agreedAt = none) ∧
       (opens → (u.tw.sumAt = none → y.tw.sumAt = some u.now ∧ y.tw.sumWait = u.tw.sumWait) ∧
         (u.tw.sumAt ≠ none → y.tw.sumAt = u.tw.sumAt ∧ y.tw.sumWait = true)) ∧
       (¬ opens → ¬ ends → y.tw = { u.tw with vfy := y.tw.vfy }) ∧
       { y with regs := u.regs, ev := u.ev, fresh := u.fresh, tw := { y.tw with vfy := u.tw.vfy, helloTx := u.tw.helloTx, helloRx := u.tw.helloRx, agreedAt := u.tw.agreedAt, sumAt := u.tw.sumAt, sumWait := u.tw.sumWait } } = u ∧
       (F.TW_CTRL_FAIL.get v = 1 → y.failsTo w none) ∧
       (F.TW_CTRL_FAIL.get v = 0 → leaves → u.fld F.TW_CTRL_LEAVE = 0 → w = y.svAbort 0x30) ∧
       (F.TW_CTRL_FAIL.get v = 0 → (¬ leaves ∨ u.fld F.TW_CTRL_LEAVE = 1) → w = y)
     (s.blk.takes req F.TW_CTRL_off = true → Answers (exec (.twPair req v pin) s) fun t => ∃ z w : Blk,
        pinned s.blk pin z ∧ written v (z.opened req F.TW_CTRL_off) w ∧ t.blk = w.settle ∧ t.mem = s.mem ∧ t.pending = s.pending) ∧
     Writes (.twLeave req v) s req F.TW_CTRL_off (written (v ||| 0x08)) ∧
     Writes (.twFail req v) s req F.TW_CTRL_off (written (v ||| 0x10)) ∧
     Writes (.verifyWalkStart req v) s req F.TW_CTRL_off (written (v ||| 0x40))) ∧
    -- pins, heartbeat, silences, link
    (let watched (u : Blk) := u.twState = 2 ∨ u.twState = 3 ∨ u.twState = 6
     let noHb (u : Blk) := u.tw.lastHb + 17 ≤ u.tw.slotNo
     let noMsg (u : Blk) := u.tw.lastMsg + 17 ≤ u.tw.slotNo
     Settles (.twHbPulse dt) s dt (fun u w => w = if u.tb.slot.toNat % 2 ≠ u.fld F.TW_STAT_SIDE then
       { u with tw := { u.tw with lastHb := u.tw.slotNo, hbSeen := true, hbFault := false } } else u) ∧
     Expires (.twinSilence dt) s dt .silence (fun u w =>
       (watched u → noHb u → noMsg u → u.suspectsTo w 1) ∧ (¬ (watched u ∧ noHb u ∧ noMsg u) → w = u)) ∧
     Settles (.heartbeatLineFault dt) s dt (fun u w => let faulty := watched u ∧ noHb u ∧ ¬ noMsg u ∧ u.tw.hbFault = false
       (faulty → u.tells w 11 (some (0x41, 0)) [] ∧
         { w with regs := u.regs, ev := u.ev, fresh := u.fresh } = { u with tw := { u.tw with hbFault := true } }) ∧ (¬ faulty → w = u)) ∧
     Expires (.messageSilence dt) s dt .msgSilence (fun u w =>
       (watched u → noMsg u → ¬ noHb u → u.losesLink w) ∧ (¬ (watched u ∧ noMsg u ∧ ¬ noHb u) → w = u)) ∧
     Settles (.twFailNAssert dt) s dt (fun u w => pinned u { u.tw.pin with fail := true } w) ∧
     Settles (.twPresNDeassert dt) s dt (fun u w => pinned u { u.tw.pin with pres := false } w) ∧
     Settles (.twinLinkDown dt) s dt (fun u w => u.losesLink w) ∧
     (let lead := k.fld F.TW_STAT_LEAD = 1
      let sent := k.tw.rsy = [] ∧ ∀ x, x ∈ k.jobs → x.2.owner ≠ .rcpRead
      let stored := k.tw.owed = [] ∧ (∀ x, x ∈ k.tw.rsy → k.walkNext x.1 x.2 = none) ∧ ∀ x, x ∈ k.jobs → x.2.owner ≠ .rcpWrite
      let walked (u w : Blk) : Prop := (u.fld F.TW_STAT_RSYBUSY = 0 → w = u) ∧
        (u.fld F.TW_STAT_RSYBUSY = 1 → w = { u.setFld F.TW_STAT_RSYBUSY 0 with asked := pset u.asked 65 u.now })
      (k.twState = 6 → lead → sent → Settles (.resyncDone dt) s dt walked) ∧
      (k.twState = 6 → ¬ lead → stored → Settles (.resyncDone dt) s dt fun u w => walked (u.setFld F.TW_RSY_STAT_DONE 1) w) ∧
      (k.twState ≠ 6 ∨ (lead ∧ ¬ sent) ∨ (¬ lead ∧ ¬ stored) → Settles (.resyncDone dt) s dt fun u w => w = u)))) ∧
  -- what the frame boundary does
  (∀ (s : Blk),
    let fresh (x : Blk) (st : Nat) (lead : Bool) : Blk := let y := (x.setFld F.TW_STAT_STATE st).setBit F.TW_STAT_LEAD lead
      { y with tw := y.tw.watchFrom }
    let byVersion (ver : Word) (lead : Bool) (w : Blk) : Prop := let y := if ver = s.csVersion then fresh s 2 false else fresh s 3 lead
      y.tells w 12 none [] ∧ y.alikeButRegs w
    (∀ t o, s.tw.agreedAt = some t → s.tw.helloRx = some o → t + 4 ≤ s.tw.slotNo →
      let rejoins (lead : Bool) : Blk := let y := ((fresh s 6 lead).setFld F.TW_STAT_RSYBUSY 1).setFld F.TW_RSY_STAT_DONE 0
        { y with tw := { y.tw with rsy := (List.range 32).map fun c => (c, ⟨0, 0⟩) } }
      (s.twState = 5 → s.agreed = rejoins true) ∧ (s.twState ≠ 5 → s.fld F.TW_CTRL_JOIN = 1 → s.agreed = rejoins false) ∧
      (s.twState ≠ 5 → s.fld F.TW_CTRL_JOIN = 0 → byVersion o.ver (decide (s.fld F.TW_STAT_SIDE = 0)) s.agreed)) ∧
    ((∀ t o, s.tw.agreedAt = some t → s.tw.helloRx = some o → s.tw.slotNo < t + 4) → s.agreed = s) ∧
    (s.twState = 6 → s.fld F.TW_STAT_RSYBUSY = 0 → pget s.asked 65 ≠ some s.tb.bndAt → byVersion (s.rd F.TW_PVER_off) (decide (s.fld F.TW_STAT_LEAD = 1)) s.rejoined) ∧
    (s.twState ≠ 6 ∨ s.fld F.TW_STAT_RSYBUSY = 1 ∨ pget s.asked 65 = some s.tb.bndAt → s.rejoined = s) ∧
    (let w := s.takeover
     w.twState = 5 ∧ w.fld F.TW_STAT_LEAD = 0 ∧ w.fld F.TW_STAT_VFYBUSY = 0 ∧ w.fld F.TW_STAT_RSYBUSY = 0 ∧ w.tw.susp = [] ∧ w.tw.suspAt = none ∧
     w.tw.vfy = [] ∧ w.tw.rsy = [] ∧ w.tw.shadow = [] ∧ w.fld F.TW_TKO_LO_FRAME + 2 ^ 32 * w.fld F.TW_TKO_HI_FRAME = s.tb.frame.toNat ∧
     w.rbit ((srcPage 7).1 + 0xC) (7 - (srcPage 7).2) = true) ∧
    (∀ x : Shadow,
      let c := x.c
      let g := c.addr.toNat / 2 ^ 36
      let p := c.port.val
      let w0 := s.segWord g 0
      let lost := c.mirr = false ∧ (s.segOk g = false ∨ (segREMOTE w0 = true ∧ segHOMEPAIR w0 = s.fld F.TW_CFG_PAIRID))
      let w := s.takeShadow x
      (c.op ≠ .rd → x.staged = true ∨ lost → w = if s.twState = 7 then s else { s with s2m := s.s2m ++ [⟨p, c.tag, ⟨false, 0, false, 0, s.devLoad p⟩⟩] }) ∧
      (c.op ≠ .rd → x.staged = false → ¬ lost → ∃ j, s.addsJob w j (.shad c) c.op c.addr none ∧ j.data = c.data ∧ j.mask = c.mask ∧ j.pois = c.pois ∧
        j.mval = c.mval ∧ j.chk = c.chk) ∧
      (c.op = .rd → ¬ lost → ∃ j, s.addsJob w j (.shad c) .rd c.addr none) ∧
      (c.op = .rd → lost → s.twState ≠ 7 → w.s2m = s.s2m ++ [⟨p, c.tag, ⟨true, 0, true, 0, s.devLoad p⟩⟩] ∧
        s.tells w (34 + 2 * p) (some (0x22, c.idx * 2 ^ 16 + g)) [(F.HP_CNT_POIS_COUNT p).off])))

/-- R206 to R211, R216 to R225, R240, R252, R331, R335, R337, R338: the entry of an interrupt; moves to the spare and the slots' states; the writes of
EA_ENG_CTRL, EA_SWAP, EA_CTX_LIRQ and EA_BAY_CTRL; the context timer. -/
def Obligations.EngineCommands : Prop :=
  ∀ (s : State) (dt : Nat) (c : CtxRef) (bay : Bay) (bad : Bool) (regs : List (Fin 8)) (req : Req) (sl : Fin 9) (n : Fin 8) (v : Word),
    let k := (s.pass dt).blk
    -- the interrupt
    (let j := ctxKey c
     let e := j / 8
     let ready (i : Nat) (cause : Nat) : Prop :=
       let x := k.ctx i
       let on := x.pend &&& x.en
       let claim := i = k.supervisor (i / 64) ∧ k.deliverable (i / 64) = true
       ((claim ∧ cause = 0x40) ∨ (¬ claim ∧ ∃ m : Nat, m < 3 ∧ cause = 0x41 + m ∧ on.getLsbD m = true ∧ ∀ o : Nat, o < m → on.getLsbD o = false)) ∧
       x.sw.getLsbD 15 = true ∧ (∀ o, o < 8 → (k.ctx (8 * e + o)).lock = false) ∧ k.executes e = true ∧ k.stepsEngine e = false ∧
       k.holdsIrq e = false ∧ k.haltAsked e = false ∧
       (∀ t, (k.eng e).entry = some t → t + 7 ≤ k.now) ∧ x.st ≠ .idle ∧ x.st ≠ .stopped ∧ x.st ≠ .frozen ∧ x.st ≠ .halt
     let first := ∀ i, 8 * e ≤ i → i < j → ∀ m, ¬ ready i m
     ((∀ m, ¬ ready j m) ∨ ¬ first → Happens (.interruptEntry dt c) s dt fun u t => t = u) ∧
     (∀ m, ready j m → first → Happens (.interruptEntry dt c) s dt fun _ t => ∃ b : Blk,
       -- what runs on the engine is disposed of, retired where its access has been issued, otherwise abandoned
       (let a := k.setEng e { k.eng e with free := k.now }
        let access := (k.pools.find? fun o => o.2.ctx == j && !o.2.retired)
        let a := if (k.ctx j).st = .wait then a.retirePool j else a
        (∀ o, (k.ctx j).st = .wait → access = some o → pget a.pools o.1 = some { o.2 with retired := true } ∧
          (a.ctx j).pc = (k.ctx j).pc + BitVec.ofNat 16 o.2.len) ∧
        b = (match a.running e with | some i => a.dispose i | none => a).dispose j) ∧
       (∀ (v : Blk) (i : Nat), ((v.ctx i).u.issued = false → v.dispose i = v.onCtx i Ctx.home) ∧
         ((v.ctx i).u.issued = true → (let y := (v.dispose i).ctx i
           y.pc = (v.ctx i).pc ∧ y.cb = (v.ctx i).cb ∧ y.attempt = 0 ∧ y.u.start = none ∧ y.u.issued = false))) ∧
       let s1 : State := { s.pass dt with blk := b }
       let x := b.ctx j
       let l := max 1 x.priv
       let fits (l : Nat) : Prop := x.stackValid l = true ∧ x.pushRoom l 8 = true
       let cyc (l : Nat) : Nat := if (x.sr (stkReg l 1)).toNat % 2 = 1 then 16 else 12
       (fits l → (t.blk.eng e).entry = some k.now ∧ s1.Enters t c (cyc l) (b.entered j x l 2 m 0) ∧ s1.Stores t c (entryFrame x l 1 m 0 (0, 0))) ∧
       (x.stackValid l = true → x.pushRoom l 8 = false → x.df = false → fits 2 → (t.blk.eng e).entry = some k.now ∧ ∃ y, t.blk = y.blk.eaEvt j 0x05 ∧ t.mem = y.mem ∧ t.pending = y.pending ∧
         s1.Enters y c (cyc 2 + 1) { (b.entered j x 2 3 0x31 m).deeper x with df := true } ∧ s1.Stores y c (entryFrame x 2 3 0x31 m (0, 0))) ∧
       (x.stackValid l = false → x.df = false → (t.blk.eng e).entry = some k.now ∧ s1.keepsMem t ∧ (let y := t.blk.ctx j
          y.st = .run ∧ y.pc.toNat = b.fld (F.EA_XVEC_PC (j / 64) 3) % 2 ^ 16 ∧ y.cb.toNat = b.fld (F.EA_XVEC_CB (j / 64) 3) % 2 ^ 8 ∧
          y.sw = (x.sw &&& 0x0FFF) ||| 0x5000 ∧ y.lcause = 0x30 ∧ y.scause = BitVec.ofNat 8 m ∧ y.df = true ∧ y.sys = x.sys ∧
          b.tells t.blk (58 + 4 * (j / 64)) (some (0x05, b.slotOf e * 2 ^ 24 + j % 8 * 2 ^ 16 + e)) [])))) ∧
    -- a move
    (let b := bay.val
     let stat := F.EA_SLOT_STAT_off b
     let slot (u : Blk) (i : Nat) : Nat := u.fld ⟨stat, 3 * i, 3⟩
     let alone := ∀ q, q ∈ k.moveQ → q.1 ≠ b
     let does := Happens (.moveComplete dt bay bad regs) s dt
     (pget k.moves b = none → does fun u t => t = u) ∧
     (∀ m, pget k.moves b = some m →
       let ends := (bad = false ∨ m.at_ + 2080 < k.now) ∧ m.at_ + 2274 ≤ k.now
       let fails := bad = true ∧ m.at_ + 33 ≤ k.now ∧ k.now ≤ m.at_ + 2080
       let sane := m.src < 9 ∧ m.dst < 9 ∧ m.src ≠ m.dst ∧ m.log < 8 ∧ m.ctx < 8
       let e := 8 * b + m.log
       (¬ ends → ¬ fails → does fun u t => t = u) ∧
       (ends → alone → sane →
         let code : Nat := match m.kind with | .failure => 0x10 | .retire => 0x11 | .swap => 0x12
         let quiet := ∀ o, o ∈ k.cops → o.2.held = none
         let lostReg (i : Nat) := ∃ g, g ∈ (k.ctx (8 * e + i)).gErr ∧ g.2 = .double
         does fun u t => u.keepsMem t ∧ pget t.blk.moves b = none ∧
           (∀ i, i < 9 → slot t.blk i = if i = m.dst then 0 else if i = m.src then (if m.kind = .swap then 1 else 4) else slot k i) ∧
           (m.kind ≠ .swap → m.sub = false → t.blk.bit (F.EA_SUB_VALID b) = true ∧ t.blk.fld (F.EA_SUB_SLOT b) = m.dst ∧ t.blk.fld (F.EA_SUB_LOG b) = m.log) ∧
           (m.kind = .swap ∨ m.sub = true → t.blk.rd (F.EA_SUB_off b) = k.rd (F.EA_SUB_off b)) ∧
           t.blk.fld (F.EA_SPARE_CNT_COUNT b) = min (2 ^ (F.EA_SPARE_CNT_COUNT b).w - 1) (k.fld (F.EA_SPARE_CNT_COUNT b) + 1) ∧
           t.blk.rbit ((srcPage (60 + 4 * b)).1 + 0xC) (60 + 4 * b - (srcPage (60 + 4 * b)).2) = true ∧
           (regs = [] → quiet → (∀ i, i < 8 → ¬ lostReg i) → k.tells t.blk (60 + 4 * b) (some (code, m.dst * 2 ^ 24 + m.ctx * 2 ^ 16 + e))
             [stat, F.EA_SUB_off b, F.EA_MAP_off b, F.EA_MAP_NEXT_off b, F.EA_SPARE_CNT_off b]) ∧
           (∀ i, i < 8 → let x := k.ctx (8 * e + i)
             let y := t.blk.ctx (8 * e + i)
             y.attempt = 0 ∧ y.pc = x.pc ∧ y.cb = x.cb ∧ y.bk = x.bk ∧
             ((∃ r, r ∈ regs ∧ r.val = i) ∨ (quiet ∧ lostReg i) → y.st = .stopped ∧ y.cause = 0x80) ∧
             (quiet → ¬ lostReg i → (∀ r, r ∈ regs → r.val ≠ i) → (x.base = .idle ∨ x.base = .stopped ∨ x.base = .halt → y.st = x.base) ∧
               (x.base = .ready ∨ x.base = .run → y.st = .ready ∨ y.st = .run)))) ∧
       (fails → alone → sane →
         (∀ d, d < 9 → d ≠ m.dst → slot k d = 1 → (∀ i, i < d → i ≠ m.dst → slot k i ≠ 1) → does fun u t => u.keepsMem t ∧
           (∀ i, i < 9 → slot t.blk i = if i = d then 3 else if i = m.dst then 4 else slot k i) ∧
           (∀ j, pget t.blk.moves j = if j = b then some { m with dst := d, at_ := k.now - 33 } else pget k.moves j) ∧
           k.keepsRegs t.blk [stat] ∧ { t.blk with regs := k.regs, moves := k.moves } = k) ∧
         ((∀ d, d < 9 → d ≠ m.dst → slot k d ≠ 1) → does fun u t => u.keepsMem t ∧ pget t.blk.moves b = none ∧
           (∀ i, i < 9 → slot t.blk i = if i = m.dst then 4 else if i = m.src then 5 else slot k i) ∧
           k.tells t.blk (58 + 4 * b) (some (0x02, m.src * 2 ^ 24 + m.ctx * 2 ^ 16 + e)) [stat] ∧
           k.freezes { t.blk with moves := k.moves, ev := k.ev } e)) ∧
       (ends → does fun u t => u.keepsMem t ∧
         t.blk.fld (F.EA_SPARE_CNT_COUNT b) = min (2 ^ (F.EA_SPARE_CNT_COUNT b).w - 1) (k.fld (F.EA_SPARE_CNT_COUNT b) + 1) ∧
         t.blk.rbit ((srcPage (60 + 4 * b)).1 + 0xC) (60 + 4 * b - (srcPage (60 + 4 * b)).2) = true)) ∧
     -- the moves that wait are taken up in turn; one for which no spare is left fails, and the next is looked at
     (∀ (u : Blk) (q : Nat × Nat × Nat × MoveKind) (l : List (Nat × Nat × Nat × MoveKind)), (u.moveQ.filter fun q => q.1 == b) = q :: l →
       (pget u.moves b ≠ none → u.moveNext b = u) ∧
       (pget u.moves b = none → l = [] ∨ (∃ d, d < 9 ∧ slot u d = 1) →
         ({ u with moveQ := u.moveQ.erase q } : Blk).asksMove (u.moveNext b) b q.2.1 q.2.2.1 q.2.2.2))) ∧
    -- the engine pages
    (let b := bay.val
     let off := F.EA_ENG_CTRL_off b sl
     let written (v : Word) (u w : Blk) : Prop := ∃ y : Blk,
       let idle := ∀ e, u.onSlot b sl = some e → ∀ i, i < 8 → (u.ctx (8 * e + i)).st = .idle
       y.fld (F.EA_ENG_CTRL_INJCTX b sl) = (F.EA_ENG_CTRL_INJCTX b sl).get v ∧
       y.fld (F.EA_ENG_CTRL_INJ b sl) = (if (F.EA_ENG_CTRL_INJ b sl).get v = 1 then 1 else u.fld (F.EA_ENG_CTRL_INJ b sl)) ∧
       (idle → y.fld (F.EA_ENG_CTRL_COMPAT b sl) = (F.EA_ENG_CTRL_COMPAT b sl).get v) ∧
       (¬ idle → y.fld (F.EA_ENG_CTRL_COMPAT b sl) = u.fld (F.EA_ENG_CTRL_COMPAT b sl)) ∧ u.onlyRegs y [off] ∧
       (let retires := (F.EA_ENG_CTRL_RETIRE b sl).get v = 1 ∧ u.fld ⟨F.EA_SLOT_STAT_off b, 3 * sl.val, 3⟩ = 0
        (∀ e, retires → u.onSlot b sl = some e → y.asksMove w b sl (8 * e) .retire) ∧ (¬ retires ∨ u.onSlot b sl = none → w = y))
     Performs (.engineRetire req bay sl v) s req off (fun u t => ∃ v', v' = force (F.EA_ENG_CTRL_RETIRE b sl) v 1 ∧ (F.EA_ENG_CTRL_RETIRE b sl).get v' = 1 ∧
       (∀ i, i ≠ (F.EA_ENG_CTRL_RETIRE b sl).lo → v'.getLsbD i = v.getLsbD i) ∧ written v' u t) ∧
     Performs (.errorInject req bay sl v) s req off (fun u t => ∃ v', v' = force (F.EA_ENG_CTRL_INJ b sl) v 1 ∧ (F.EA_ENG_CTRL_INJ b sl).get v' = 1 ∧
       (∀ i, i ≠ (F.EA_ENG_CTRL_INJ b sl).lo → v'.getLsbD i = v.getLsbD i) ∧ written v' u t) ∧
     Performs (.plannedSwapArm req bay v) s req (F.EA_SWAP_off b) (fun u t => u.onlyRegs { t with asked := u.asked } [F.EA_SWAP_off b] ∧
       (u.fld (F.EA_SWAP_PEND b) = 0 → t.fld (F.EA_SWAP_PEND b) = 1 ∧ t.fld (F.EA_SWAP_ARM b) = 1 ∧
         ∀ n, pget t.asked n = if n = 2 * b then some u.now else pget u.asked n) ∧
       (u.fld (F.EA_SWAP_PEND b) = 1 → t.fld (F.EA_SWAP_PEND b) = 1 ∧ t.fld (F.EA_SWAP_ARM b) = u.fld (F.EA_SWAP_ARM b) ∧ t.asked = u.asked) ∧
       t.fld (F.EA_SWAP_REFUSED b) = (if (F.EA_SWAP_REFUSED b).get v = 1 then (F.EA_SWAP_REFUSED b).get (u.hwBits (F.EA_SWAP_off b))
         else u.fld (F.EA_SWAP_REFUSED b))) ∧
     -- the planned swap at the frame boundary
     (∀ u : Blk,
       let w := u.swapStep b
       let old (i : Nat) : Nat := (u.rd (F.EA_MAP_off b)).toNat / 16 ^ i % 16
       let new (i : Nat) : Nat := (u.rd (F.EA_MAP_NEXT_off b)).toNat / 16 ^ i % 16
       let legal := (∀ i, i < 8 → new i ≤ 8) ∧ (∀ i o, i < o → o < 8 → new i ≠ new o) ∧ pget u.moves b = none
       let refused := w.fld (F.EA_SWAP_REFUSED b) = 1 ∧ w.fld (F.EA_SWAP_PEND b) = 0 ∧ w.fld (F.EA_SWAP_ARM b) = 0 ∧
         w.rd (F.EA_MAP_NEXT_off b) = u.rd (F.EA_MAP_off b) ∧ u.alikeButRegs w ∧
         ∃ i, i < 8 ∧ ((old i ≠ new i ∧ ∀ o, o < i → old o = new o) ∨ (i = 0 ∧ ∀ o, o < 8 → old o = new o)) ∧
           u.tells w (60 + 4 * b) (some (0x13, old i * 2 ^ 24 + 8 * b + i)) [F.EA_SWAP_off b, F.EA_MAP_NEXT_off b]
       let late := pget u.asked (2 * b) = some u.tb.bndAt
       (u.fld (F.EA_SWAP_PEND b) = 0 ∨ late → w = u) ∧
       (u.fld (F.EA_SWAP_PEND b) = 1 → ¬ late →
         (¬ legal → refused) ∧
         (legal → (∀ i, i < 8 → old i = new i) → u.onlyRegs w [F.EA_SWAP_off b] ∧ w.fld (F.EA_SWAP_PEND b) = 0 ∧ w.fld (F.EA_SWAP_ARM b) = 0) ∧
         (∀ i o, legal → i < o → o < 8 → old i ≠ new i → old o ≠ new o → refused) ∧
         (∀ i, legal → i < 8 → old i ≤ 8 → old i ≠ new i → (∀ o, o < 8 → o ≠ i → old o = new o) →
           let may := u.fld ⟨F.EA_SLOT_STAT_off b, 3 * new i, 3⟩ = 1 ∧ u.fld ⟨F.EA_SLOT_STAT_off b, 3 * old i, 3⟩ = 0
           (¬ may → refused) ∧
           (may → u.freezes { w with moves := u.moves } (8 * b + i) ∧ pget w.moves b = some ⟨old i, new i, i, 0, .swap, u.now, false⟩ ∧
             (∀ m, m ≠ b → pget w.moves m = pget u.moves m) ∧ w.rd (F.EA_MAP_off b) = u.rd (F.EA_MAP_NEXT_off b) ∧
             w.fld ⟨F.EA_SLOT_STAT_off b, 3 * old i, 3⟩ = 2 ∧ w.fld ⟨F.EA_SLOT_STAT_off b, 3 * new i, 3⟩ = 3 ∧
             w.fld (F.EA_SWAP_PEND b) = 0 ∧ w.fld (F.EA_SWAP_ARM b) = 0 ∧
             u.keepsRegs w [F.EA_SWAP_off b, F.EA_MAP_off b, F.EA_SLOT_STAT_off b])))) ∧
     Performs (.lirqSet req bay sl n v) s req (F.EA_CTX_LIRQ_off b sl n) (fun u t =>
       (u.onSlot b sl = none → t = u) ∧
       (∀ e, u.onSlot b sl = some e → u.near t ∧ t.regs = u.regs ∧
         (∀ j, j ≠ 8 * e + n.val → t.ctx j = u.ctx j) ∧
         { t.ctx (8 * e + n.val) with wd := (u.ctx (8 * e + n.val)).wd } = { u.ctx (8 * e + n.val) with
           pend := ((u.ctx (8 * e + n.val)).pend &&& ~~~v.extractLsb' 0 3) ||| v.extractLsb' 8 3, en := v.extractLsb' 16 3 })) ∧
     Performs (.bayEnable req bay v) s req (F.EA_BAY_CTRL_off b) (fun u t =>
       let en := (F.EA_BAY_CTRL_EN b).get v
       let was := u.fld (F.EA_BAY_CTRL_EN b)
       t.fld (F.EA_BAY_CTRL_EN b) = en ∧
       t.fld (F.EA_BAY_CTRL_SUPV b) = (if was = 1 then u.fld (F.EA_BAY_CTRL_SUPV b) else (F.EA_BAY_CTRL_SUPV b).get v) ∧
       u.keepsRegs t [F.EA_BAY_CTRL_off b] ∧ u.near { t with bayWd := u.bayWd, boots := u.boots } ∧
       (en = 0 ∨ was = 1 → t.ctxs = u.ctxs ∧ t.engs = u.engs ∧ t.boots = u.boots) ∧
       (en = 1 → was = 0 → pget t.boots b = none ∧ ∀ i, i < 8 →
         let e := 8 * b + i
         let x := u.ctx (8 * e)
         let y := t.ctx (8 * e)
         let area (l bank base stride : Nat) : Prop := y.sr (stkReg l 0) = BitVec.ofNat 16 bank ∧
           y.sr (stkReg l 2) = BitVec.ofNat 16 (base + stride * (8 * i)) ∧ y.sr (stkReg l 3) = BitVec.ofNat 16 (base + stride * (8 * i) + stride) ∧
           y.sr (stkReg l 1) = y.sr (stkReg l 3)
         (∀ o, 1 ≤ o → o < 8 → (t.ctx (8 * e + o)).alike (u.ctx (8 * e + o))) ∧
         (let base := (if u.halted e then CtxSt.halt else CtxSt.ready);
           (x.st = .frozen → y.st = .frozen ∧ y.base = base) ∧ (x.st ≠ .frozen → y.st = base ∨ (base = .ready ∧ y.st = .run)) ∧
           (u.halted e = true → y.under = .ready) ∧
           y.sw = 0x4000 ∧ y.ceil = 2 ∧ y.wclass = 0 ∧ y.pc = 0 ∧ y.cb = 0 ∧ y.bk = 0 ∧ y.g = [] ∧ y.fdepth = 0 ∧ y.df = false ∧ y.u = Micro.reset ∧
           y.pend = x.pend ∧ y.en = x.en ∧
           area 1 (u.fld (F.EA_XSTK_S_BANK b)) (u.fld (F.EA_XSTK_S_BASE b)) (u.fld (F.EA_XSTK_STRIDE_SSTRIDE b)) ∧
           area 2 (u.fld (F.EA_XSTK_M_BANK b)) (u.fld (F.EA_XSTK_M_BASE b)) (u.fld (F.EA_XSTK_STRIDE_MSTRIDE b)))))) ∧
    (let j := ctxKey c
     let x := k.ctx j
     (x.tim.due k.now = false → Happens (.contextTimerExpiry dt c) s dt fun u t => t = u) ∧
     (x.tim.due k.now = true → Happens (.contextTimerExpiry dt c) s dt fun u t => u.keepsMem t ∧ k.near t.blk ∧ t.blk.regs = k.regs ∧
       (∀ i, i ≠ j → t.blk.ctx i = k.ctx i) ∧ (let y := t.blk.ctx j
        y.timHit = true ∧ y.pend = x.pend ||| 2 ∧ y.tim.run = false ∧ y.tim.leftAt k.now = 0 ∧
        { y with timHit := x.timHit, pend := x.pend, tim := x.tim, wd := x.wd } = x)))

/-- R437 to R439, R441 to R445, R447: the expiries of the watchdogs, their kicks, the arming of the block watchdog; the stop of a bay's clocks and their
restart. -/
def Obligations.WatchdogsAndClocks : Prop :=
  ∀ (s : State) (dt : Nat) (c : CtxRef) (bay : Bay) (sl : Fin 9) (req : Req) (v : Word),
    let k := (s.pass dt).blk
    let b := bay.val
    let counts (w x : Wd) (n now : Nat) : Prop := x.leftAt now = n ∧ x.since = now ∧ x.run = w.run
    (let j := ctxKey c
     let n := j % 8
     Expires (.contextWatchdogExpiry dt c) s dt (.ctxWd j) fun k w =>
       let x := k.ctx j
       let f : Fld := ⟨F.EV_CWD_STAT_off (j / 64) (k.slotOf (j / 8)), n, 1⟩
       (x.wd.due k.now = false → w = k) ∧
       (x.wd.due k.now = true → (w.ctx j).wd.leftAt k.now = k.fld F.EV_WD_CFG_CLIM * 256 ∧ w.fld f = 1 ∧
         (∀ i, i ≠ j → i ≠ j / 8 * 8 → w.ctx i = k.ctx i) ∧ { w.ctx j with wd := x.wd, pend := x.pend } = x ∧ (w.ctx j).pend = x.pend ∧
         (n ≠ 0 → k.fld f = 0 → (w.ctx (j / 8 * 8)).pend = (k.ctx (j / 8 * 8)).pend ||| 1 ∧
           { w.ctx (j / 8 * 8) with wd := (k.ctx (j / 8 * 8)).wd, pend := (k.ctx (j / 8 * 8)).pend } = k.ctx (j / 8 * 8) ∧
           k.keepsRegs w [f.off] ∧ k.near w) ∧
         (n = 0 ∨ k.fld f = 1 → (∀ i, i ≠ j → w.ctx i = k.ctx i) ∧ k.near { w with ev := k.ev } ∧
           k.tells w (58 + 4 * (j / 64)) (some (0x0D, k.slotOf (j / 8) * 2 ^ 24 + n * 2 ^ 16 + j / 8)) [f.off]))) ∧
    (Expires (.engineWatchdogExpiry dt bay sl) s dt (.engWd b sl) fun k x => let w := k.engWdOf b sl
       (w.due k.now = false → x = k) ∧
       (w.due k.now = true → counts w (x.engWdOf b sl) (k.fld F.EV_WD_CFG_ELIM * 256) k.now ∧
         (∀ a i, i < 9 → (a ≠ b ∨ i ≠ sl.val) → x.engWdOf a i = k.engWdOf a i) ∧
         (∃ m, k.tells x (58 + 4 * b) (some (0x0C, m)) [] ∧ ∀ e, k.onSlot b sl = some e → m = sl.val * 2 ^ 24 + e) ∧
         { x with engWd := k.engWd, regs := k.regs, ev := k.ev, fresh := k.fresh } = k)) ∧
    (Expires (.bayWatchdogExpiry dt bay) s dt (.bayWd b) fun k x => let w := k.bayWdOf b
       (w.due k.now = false → x = k) ∧
       (w.due k.now = true → counts w (x.bayWdOf b) (k.fld F.EV_WD_BAY_LIMIT * 4096) k.now ∧ (∀ a, a ≠ b → x.bayWdOf a = k.bayWdOf a) ∧
         k.tells x (59 + 4 * b) (some (0x0E, 0)) [] ∧ { x with bayWd := k.bayWd, regs := k.regs, ev := k.ev, fresh := k.fresh } = k)) ∧
    (Expires (.blockWatchdogExpiry dt) s dt .blkWd fun k x =>
       (k.blkWd.due k.now = false → x = k) ∧
       (k.blkWd.due k.now = true → ∃ y : Blk, counts k.blkWd y.blkWd (k.fld F.EV_BLK_WD_LIMIT * 4096) k.now ∧ y.rbit 0x200C 0 = true ∧
         (k.fld F.EV_GCTL_STORM = 0 ∨ 0 < k.fld F.EV_GCTL_URG → k.tells y 0 (some (0x10, 0)) []) ∧
         { y with blkWd := k.blkWd, regs := k.regs, ev := k.ev, fresh := k.fresh } = k ∧ y.failsTo x none)) ∧
    Performs (.bayWatchdogKick req bay v) s req (F.EV_BWD_KICK_off b) (fun u t =>
      (v.toNat % 2 ^ 16 = 0xA5C3 → counts (u.bayWdOf b) (t.bayWdOf b) (u.fld F.EV_WD_BAY_LIMIT * 4096) u.now ∧
        (∀ a, a ≠ b → t.bayWdOf a = u.bayWdOf a) ∧ { t with bayWd := u.bayWd } = u) ∧
      (v.toNat % 2 ^ 16 ≠ 0xA5C3 → t = u)) ∧
    Performs (.blockWatchdogKick req v) s req F.EV_BLK_KICK_off (fun u t =>
      (v.toNat % 2 ^ 16 = 0xA5C3 → counts u.blkWd t.blkWd (u.fld F.EV_BLK_WD_LIMIT * 4096) u.now ∧ { t with blkWd := u.blkWd } = u) ∧
      (v.toNat % 2 ^ 16 ≠ 0xA5C3 → t = u)) ∧
    Performs (.blockWatchdogArm req v) s req F.EV_BLK_WD_off (fun u t =>
      (u.fld F.EV_BLK_WD_ARMED = 1 → t = u) ∧
      (u.fld F.EV_BLK_WD_ARMED = 0 → let n := max 1 (v.toNat % 2 ^ 16)
        t.fld F.EV_BLK_WD_LIMIT = n ∧ t.fld F.EV_BLK_WD_ARMED = 1 ∧ t.fld F.EV_BLK_WD_ARM = 1 ∧ t.blkWd = ⟨n * 4096, u.now, true⟩ ∧
        u.keepsRegs t [F.EV_BLK_WD_off] ∧ { t with regs := u.regs, blkWd := u.blkWd } = u)) ∧
    -- bay clocks
    Performs (.evBayclkWrite req v) s req F.EV_BAYCLK_off (fun u t => t.rd F.EV_BAYCLK_off = v ∧ u.keepsRegs t [F.EV_BAYCLK_off] ∧
      (∀ a, a < 32 → pget t.latch a = if v.getLsbD a = false ∧ u.rbit F.EV_BAYSTOP_off a = true ∧ pget u.latch a = none then some u.now else pget u.latch a) ∧
      { t with regs := u.regs, latch := u.latch } = u) ∧
    (let quiet := (∀ i, i < 64 → let st := (k.ctx (64 * b + i)).st
         st = .idle ∨ st = .stopped ∨ st = .frozen ∨ (64 * b + i = 8 * (8 * b + k.fld (F.EA_BAY_CTRL_SUPV b)) ∧ pget k.idle b ≠ none)) ∧
       (∀ x, x ∈ k.dms → x.2.ctx / 64 ≠ b) ∧ k.fld (F.SV_UNIT_STAT_BUSY b) = 0 ∧ pget k.moves b = none ∧
       (∀ x, x ∈ k.cops → x.2.ctx / 64 ≠ b) ∧ (∀ x, x ∈ k.pools → x.2.ctx / 64 ≠ b)
     let stops := k.rbit F.EV_BAYCLK_off b = true ∧ k.rbit F.EV_BAYSTOP_off b = false ∧ quiet ∧ (pget k.idleAt b).getD k.relAt + 256 ≤ k.now
     (¬ stops → Happens (.bayClockStop dt bay) s dt fun u t => t = u) ∧
     (stops → Happens (.bayClockStop dt bay) s dt fun u t => u.keepsMem t ∧ k.keepsRegs t.blk [F.EV_BAYSTOP_off] ∧
       (∀ a, a < 32 → t.blk.rbit F.EV_BAYSTOP_off a = (decide (a = b) || k.rbit F.EV_BAYSTOP_off a)) ∧
       (t.blk.bayWdOf b).run = false ∧ (t.blk.bayWdOf b).leftAt k.now = (k.bayWdOf b).leftAt k.now ∧ (∀ a, a ≠ b → t.blk.bayWdOf a = k.bayWdOf a) ∧
       { t.blk with regs := k.regs, bayWd := k.bayWd } = k)) ∧
    (let wakes := k.rbit F.EV_BAYSTOP_off b = true ∧ ∃ at_, pget k.latch b = some at_ ∧ at_ + 24 ≤ k.now
     (¬ wakes → Happens (.bayClockWake dt bay) s dt fun u t => t = u) ∧
     (wakes → Happens (.bayClockWake dt bay) s dt fun u t => u.keepsMem t ∧ k.keepsRegs t.blk [F.EV_BAYSTOP_off] ∧
       (∀ a, a < 32 → t.blk.rbit F.EV_BAYSTOP_off a = (k.rbit F.EV_BAYSTOP_off a && !decide (a = b))) ∧
       (∀ a, pget t.blk.latch a = if a = b then none else pget k.latch a) ∧ (∀ a, pget t.blk.idleAt a = if a = b then some k.now else pget k.idleAt a) ∧
       (t.blk.bayWdOf b).leftAt k.now = (k.bayWdOf b).leftAt k.now ∧
       (t.blk.bayWdOf b).run = decide (k.fld (F.EA_BAY_CTRL_EN b) = 1 ∧ k.halted (8 * b + k.fld (F.EA_BAY_CTRL_SUPV b)) = false ∧ k.fld F.EV_WD_BAY_LIMIT ≠ 0) ∧
       (∀ a, a ≠ b → t.blk.bayWdOf a = k.bayWdOf a) ∧
       { t.blk with regs := k.regs, latch := k.latch, idleAt := k.idleAt, bayWd := k.bayWd } = k))

/-- R226 to R255, R348: microwords: the fetch with its checks, micro-traps, the ALU, the sequencer, the address unit, memory accesses, and the fields
that act on the context, the events, the data mover and the coprocessors. -/
def Obligations.Microwords : Prop :=
  (∀ (s : State) (dt : Nat) (c : CtxRef) (rom flip : BitVec 161) (dpar : Bool),
    let s' := s.pass dt
    let u := s'.blk
    let j := ctxKey c
    let b := j / 64
    let k0 := u.ctx j
    let ua := k0.u.pc
    let does := Happens (.microwordExecute dt c rom flip dpar) s dt
    let turn := u.executes (j / 8) = true ∧ k0.st = .run ∧ u.td.step = none ∧ (k0.defer = false ∨ k0.u.start ≠ none)
    ((u.executes (j / 8) = false ∨ k0.st ≠ .run ∨ u.td.step = some (j, false)) → does fun v t => t = v) ∧
    (turn →
      let x : Ctx := if k0.u.skip = some ua.toNat then { k0 with u := { k0.u with skip := none } } else k0
      -- micro-traps
      (let traps (code : Nat) : Prop := does fun v t => v.keepsMem t ∧
          (x.u.trap ≠ none → (t.blk.ctx j).st = .stopped ∧ (t.blk.ctx j).cause = 0x81) ∧
          (x.u.trap = none → code ≠ 6 → { t.blk.ctx j with st := x.st, waitFor := x.waitFor, wd := x.wd, gErr := x.gErr } =
              { x with u := { x.u with trap := some (code, ua.toNat), pc := 4 } } ∧
            max (u.eng (j / 8)).free u.now + 2 ≤ (t.blk.eng (j / 8)).free) ∧
          (let evt : Option Nat := match code with | 4 => some 0x22 | 5 => some 0x20 | 6 => some 0x21 | _ => none
           ∀ n, evt = some n → code ≠ 6 → u.tells t.blk (61 + 4 * b) (some (n, u.slotOf (j / 8) * 2 ^ 24 + j % 8 * 2 ^ 16 + j / 8)) [F.CS_CE_CNT_off])
       (0x2400 ≤ ua.toNat → traps 4) ∧
       (∀ i more, u.patchedAt j i more → (pget u.patchBad (1024 * b + i) ≠ none → traps 8) ∧
         (pget u.patchBad (1024 * b + i) = none → pget u.patchRam i = none → traps 5)) ∧
       (∀ n, ua.toNat < 0x2000 → k0.u.skip ≠ some ua.toNat → n < 64 → u.matchHit j n → (∀ m, m < n → ¬ u.matchHit j m) →
         u.matchSeen (F.CS_MATCH_ADDR_KIND b n) = 1 →
         does fun v t => v.keepsMem t ∧ t.blk.rbit ((srcPage (61 + 4 * b)).1 + 0xC) (61 + 4 * b - (srcPage (61 + 4 * b)).2) = true ∧
           (x.u.trap = none → (t.blk.ctx j).u.skip = some ua.toNat ∧ (t.blk.ctx j).pc = x.home.pc ∧ t.blk.td.asks = u.td.asks ++ [(.engine (j / 8), false)] ∧
             ∀ ch, ch ∈ t.blk.td.pulses ↔ ch ∈ u.td.pulses ∨ (ch < 8 ∧ u.atDawn.rbit (F.TD_XT_BRK_off ch) b = true))) ∧
       (∀ w patch more y fixed, u.storeGives j rom w patch more → meccCheck (w ^^^ flip) = some (y, fixed) → u.uillegal j x (uword y) = true → traps 1)) ∧
      -- an uncorrectable word
      (∀ w patch more, u.storeGives j rom w patch more → meccCheck (w ^^^ flip) = none → does fun _ t =>
        (x.attempt ≠ 2 → (t.blk.ctx j).attempt = x.attempt + 1 ∧ (t.blk.ctx j).pc = x.home.pc ∧ (t.blk.ctx j).u.stack = []) ∧
        (∀ i, patch = some i → (∀ m, pget t.blk.patchBad m = if m = 1024 * b + i then some () else pget u.patchBad m) ∧
          (x.attempt ≠ 2 → u.tells t.blk 48 (some (0x10, b * 2 ^ 24 + 0x2000 + i)) []))) ∧
      -- words that execute
      (∀ st patch more y fixed, u.storeGives j rom st patch more → meccCheck (st ^^^ flip) = some (y, fixed) →
        let w := uword y
        let n := u.opNo
        let r : Ctx := if w.ctx = 7 then { x with sw := x.sw ^^^ 0x1000 } else x
        let a := r.usrc w n w.asrc
        let d := r.usrc w n w.bsrc
        let free (l : List Nat) : Prop := ∀ i, i ∈ l → u.pendingReg j i = false ∧ pget x.gErr i ≠ some .double ∧ pget x.parErr i = none
        let ports := ∀ p, p ∈ u.portsNow.given → p.1 / 8 = b → p.2 = u.engReq j ∨ p.2 = 12
        let runs := u.uillegal j x w = false ∧ ports ∧ (∀ i, i ∈ x.uwrites w → u.pendingReg j i = false) ∧ free (r.uplaces w.asrc 0 ++ r.uplaces w.bsrc 0) ∧
          u.injects j = false
        let badEntry := w.seq = 5 ∧ dpar = true
        let counted (t : State) : Prop := t.blk.fld F.CS_CE_CNT_COUNT =
          if fixed then min (2 ^ F.CS_CE_CNT_COUNT.w - 1) (u.fld F.CS_CE_CNT_COUNT + 1) else u.fld F.CS_CE_CNT_COUNT
        let next (z : Ctx) (cyc : Nat) : Prop := does fun v t => v.keepsMem t ∧ counted t ∧ u.UEnds t.blk j (cyc + more) z
        let at_ (p : BitVec 14) (z : Ctx) : Ctx := { z with u := { z.u with pc := p } }
        let cond := u.ucond j x w.cond
        let nx := BitVec.ofNat 14 w.next
        (patch = none → ua.toNat < 0x2000 → does fun _ t => pget t.blk.rom ua.toNat = some st) ∧
        (runs → badEntry → does fun _ t => x.attempt ≠ 2 → (t.blk.ctx j).attempt = x.attempt + 1 ∧ (t.blk.ctx j).pc = x.home.pc ∧ (t.blk.ctx j).u.stack = []) ∧
        (runs → ¬ badEntry →
        -- the sequencer after an ALU operation
        (w.bare → let z := x.ualuStep w n a d
          (w.seq = 0 → next (at_ (ua + 1) z) 1) ∧ (w.seq = 1 → next (at_ nx z) 1) ∧
          (w.seq = 2 → next (at_ (if cond = w.cpol then ua + 1 else nx) z) 1) ∧
          (w.seq = 3 → x.u.stack.length < 8 → next (at_ nx { z with u := { z.u with stack := (ua + 1) :: x.u.stack } }) 1) ∧
          (∀ p l, w.seq = 4 → x.u.stack = p :: l → next (at_ p { z with u := { z.u with stack := l } }) 1) ∧
          (w.seq = 5 → next (at_ ((Config.dispatch (x.u.ir.extractLsb' 6 10)).setWidth 14) { z with u := { z.u with stack := [] } }) 1) ∧
          (∀ m : Nat, w.seq = 6 → u.irqOf j = some (0x41 + m) → m < 3 → next (at_ (BitVec.ofNat 14 (0x14 + 4 * m)) { z with u := { z.u with stack := [] } }) 1) ∧
          (w.seq = 6 → u.irqOf j = some 0x40 → next (at_ 0x10 { z with u := { z.u with stack := [] } }) 1) ∧
          (w.seq = 7 → x.u.loop ≠ 0 → next (at_ nx { z with u := { z.u with loop := x.u.loop - 1 } }) 1) ∧
          (w.seq = 7 → x.u.loop = 0 → next (at_ (ua + 1) z) 1) ∧
          (∀ code : Nat, (w.seq = 3 ∧ 8 ≤ x.u.stack.length ∧ code = 2) ∨ (w.seq = 4 ∧ x.u.stack = [] ∧ code = 3) ∨ (w.seq = 10 ∧ code = w.lit.toNat % 256) →
            x.u.trap = none → next (at_ 4 { z with u := { z.u with trap := some (code, ua.toNat) } }) 1)) ∧
        -- the address unit
        (∀ v : BitVec 24, w.seq = 0 → w.asrc = 0x3F → w.dst = 0x3F → w.aop = 0 → w.flg = 0 → w.xop ≠ 0 → (w.xdst = 1 ∨ w.xdst = 2 → x.u.start = none) →
          UWord.bare { w with xop := 0 } → some v = w.xval (x.uaddr a (ualu w a d x.u.acc x.flags.c) w.xsrc) d →
          let z := ((x.ualuStep w n a d).uaddrPut w.xdst v)
          next (at_ (ua + 1) { z with u := { z.u with xr := v } }) 1) ∧
        -- the fields that act on the context
        (w.seq = 0 → UWord.bare { w with ctx := 0, cnt := 0, tim := 0, imc := 0 } → w.aop = 0 → w.dst = 0x3F → w.flg = 0 → w.ctx ≠ 6 → w.ctx ≠ 7 →
          let z := x
          let old := (x.u.start.map (·.pc)).getD x.pc
          let z : Ctx := match w.ctx with
            | 1 => { z with sw := z.sw ||| 0x1000 } | 2 => { z with sw := z.sw &&& 0xEFFF }
            | 3 => { z with sw := (z.sw &&& 0xF3FF) ||| ((w.lit &&& 3) <<< 10) }
            | 4 => { z with lock := true, lockLen := 0, lockPc := old, resv := none }
            | 5 => { z with lock := false, resv := none, lockLen := 0 } | _ => z
          let z : Ctx := match w.cnt with
            | 1 => { z with u := { z.u with loop := w.lit } } | 2 => { z with u := { z.u with loop := a.setWidth 16 } }
            | 3 => { z with u := { z.u with loop := x.gr 26 } }
            | 4 => { z with u := { z.u with loop := if x.u.loop = 0 then 0 else x.u.loop - 1 } } | _ => z
          let z : Ctx := match w.tim with
            | 1 => { z with tim := ⟨a.toNat % 2 ^ 32, u.now, true⟩, timHit := false } | 2 => { z with tim := z.tim.gate u.now false }
            | 3 => { z with timHit := false } | _ => z
          let z : Ctx := match w.imc with
            | 2 => { z with sw := z.sw &&& 0x7FFF } | 3 => { z with sw := z.sw ||| 0x8000 } | _ => z
          next (at_ (ua + 1) z) 1) ∧
        (w.seq = 0 → w.ctx = 6 → UWord.bare { w with ctx := 0 } → does fun v t => v.keepsMem t ∧ (t.blk.ctx j).st = .idle) ∧
        (w.seq = 9 → w.bare → does fun v t => v.keepsMem t ∧ ((t.blk.ctx j).st = .ready ∨ (t.blk.ctx j).st = .run) ∧ (t.blk.ctx j).u.pc = ua + 1) ∧
        (∀ sch own v, w.seq = 0 → w.sch = sch → UWord.bare { w with sch := 0 } → w.aop = 0 → w.dst = 0x3F → w.flg = 0 →
          (let q := u.atDawn
           let ch := a.toNat % 32
           let cls := w.lit.toNat % 8
           let byte := q.slotByte q.tb.slot.toNat ch
           (sch = 1 ∧ v = q.tb.slot ++ q.tb.frame.setWidth 22 ∧ own = x.u.sqown) ∨
           (sch = 2 ∧ v.toNat = (if cls = 0 then 0 else q.fld (liveFld cls ch)) % 2 ^ 32 ∧ own = ((slotOwner byte).owner == cls)) ∨
           (sch = 3 ∧ v.toNat = byte % 2 ^ 32 ∧ own = x.u.sqown) ∨ (sch = 4 ∧ v = q.rd F.SC_TB_SPEED_off ∧ own = x.u.sqown) ∨
           (sch = 5 ∧ v = q.tb.pos.setWidth 32 ∧ own = x.u.sqown)) →
          let z := x.setT 3 v
          next (at_ (ua + 1) { z with u := { z.u with sqz := v == 0, sqown := own } }) 1) ∧
        -- memory
        (let o := x.umem w a
         let m := 2 ^ w.msz
         let plain := w.seq = 0 ∧ UWord.bare { w with mop := 0 } ∧ w.aop = 1 ∧ w.flg = 0 ∧ o.1 ≤ 7 ∧ (m = 4 → o.2 % 4 = 0)
         let cyc := accessCost b o.1 o.2 m .bay
         (plain → w.mop ≠ 0 → w.mop ≠ 3 → (w.mop = 1 ∨ w.mop = 5 ∨ w.dst = 0x3F) → u.bmReady b = false →
           does fun v t => v.keepsMem t ∧ (t.blk.ctx j).st = .wait ∧ (t.blk.ctx j).waitFor = some (.grant u.now) ∧ (t.blk.ctx j).u.pc = ua) ∧
         (plain → (w.mop = 1 ∨ w.mop = 5) → w.dst < 0x20 → m = 1 → u.bmReady b = true → (∀ i, i < m → pget u.bmErr (bmKey b (bayWord o.1 (o.2 + i))) = none) →
           (let z := x
            let z := if w.mop = 5 then z.setSr (stkReg x.priv 1) (x.sr (stkReg x.priv 1) + 1) else z
            next (at_ (ua + 1) (z.gw w.dst (s'.peek b (bayWord o.1 o.2)))) cyc)) ∧
         (plain → (w.mop = 2 ∨ w.mop = 4) → w.dst = 0x3F → w.msz ≠ 2 → u.bmReady b = true → does fun v t => counted t ∧
           (∀ i, i < m → t.peek b (bayWord o.1 (o.2 + i)) = d.extractLsb' (16 * i) 16) ∧
           (∀ ad, (∀ i, i < m → ad ≠ memKey b (bayWord o.1 (o.2 + i)) ∧ ad ≠ memKey b (bayWord o.1 (o.2 + i)) + 1) → memByte t.mem ad = memByte v.mem ad) ∧
           (t.blk.ctx j).u.pc = ua + 1 ∧
           (w.mop = 4 → (t.blk.ctx j).sr (stkReg x.priv 1) = x.sr (stkReg x.priv 1) - BitVec.ofNat 16 m)) ∧
         (w.seq = 0 → UWord.bare { w with mop := 0 } → w.mop = 3 → w.aop = 0 → w.asrc = 0x3F → w.dst = 0x3F → w.flg = 0 → x.u.start = none →
           u.bmReady b = true → x.farBad = false → x.defer = false → codeAt x.cb.toNat x.pc.toNat = true → pget u.bmErr (bmKey b (bayWord x.cb.toNat x.pc.toNat)) = none →
           (let w0 := s'.peek b (bayWord x.cb.toNat x.pc.toNat)
            let w1 := s'.peek b (bayWord x.cb.toNat (x.pc.toNat + 1))
            let z := x
            let start : Option _ := some { cb := x.cb, pc := x.pc, ua := ua }
            (w0.getLsbD 15 = false → next (at_ (ua + 1) { z with pc := x.pc + 1, u := { z.u with ir := x.u.ir.extractLsb' 16 16 ++ w0, start := start } })
              (accessCost b x.cb.toNat x.pc.toNat 1 .bay)) ∧
            (w0.getLsbD 15 = true → codeAt x.cb.toNat (x.pc.toNat + 1) = true → pget u.bmErr (bmKey b (bayWord x.cb.toNat (x.pc.toNat + 1))) = none →
              next (at_ (ua + 1) { z with pc := x.pc + 2, u := { z.u with ir := w1 ++ w0, start := start } }) (accessCost b x.cb.toNat x.pc.toNat 2 .bay))))) ∧
        -- events, dispatches
        (w.seq = 0 → UWord.bare { w with evt := 0 } → w.dst = 0x3F →
          (w.evt = 2 ∨ w.evt = 3 → does fun v t => v.keepsMem t ∧ (t.blk.ctx j).u.pc = ua + 1 ∧
            u.tells t.blk ((if w.evt = 2 then 61 else 58) + 4 * b) (some (w.lit.toNat % 256, u.slotOf (j / 8) * 2 ^ 24 + j % 8 * 2 ^ 16 + j / 8)) [F.CS_CE_CNT_off]) ∧
          (let tg := 8 * (a.toNat / 256 % 256) + a.toNat % 8
           w.evt = 6 → tg ≠ j → does fun v t => v.keepsMem t ∧
             (t.blk.ctx tg).pend = (u.ctx tg).pend ||| BitVec.ofNat 3 (2 ^ (w.lit.toNat % 8)) ∧ (t.blk.ctx j).u.pc = ua + 1 ∧
             (tg / 64 ≠ b → u.rbit F.EV_BAYSTOP_off (tg / 64) = true → pget u.latch (tg / 64) = none → pget t.blk.latch (tg / 64) = some u.now))) ∧
        (∀ g nd na nb, w.seq = 0 → UWord.bare { w with cop := 0 } → 8 ≤ w.cop → w.cop < 12 → copShape (w.cop - 8) (w.lit.toNat % 256) = some (nd, na, nb) →
          u.unitThere (w.cop - 8) = true → u.portUse (j / 8) < 4 → uregs x.u.ir w.dst = some (g, 1) → free (x.uplaces w.asrc na ++ x.uplaces w.bsrc nb) →
          (∀ i, i ∈ x.places g nd → u.pendingReg j i = false) → does fun v t => v.keepsMem t ∧ (t.blk.ctx j).u.pc = ua + 1 ∧
            (∀ i, i ≠ n + 1 → (pget t.blk.cops i).map (fun o => { o with start := 0, due := none }) =
              (pget u.cops i).map fun o => { o with start := 0, due := none }) ∧ ∃ op, pget t.blk.cops (n + 1) = some op ∧ op.ctx = j ∧ op.unit = w.cop - 8 ∧
              op.op = w.lit.toNat % 256 ∧ op.dst = x.places g nd) ∧
        -- the wait of compatible microcode, and the end of a micro-trap's handler
        (let compat := u.fld (F.EA_ENG_CTRL_COMPAT b (u.slotOf (j / 8)))
         w.seq = 8 → w.bare → w.aop = 0 → w.dst = 0x3F → w.flg = 0 →
          (compat = 0 → x.u.trap = none → next (at_ 4 { x with u := { x.u with trap := some (7, ua.toNat) } }) 1) ∧
          (compat = 1 → cond ≠ w.cpol → next (at_ (ua + 1) x) 1) ∧
          (compat = 1 → cond = w.cpol → does fun v t => v.keepsMem t ∧ counted t ∧ u.UEnds t.blk j 1 x)) ∧
        (∀ code m cause sec, w.seq = 0 → w.ctx = 7 → UWord.bare { w with ctx := 0 } → w.aop = 0 → w.dst = 0x3F → w.flg = 0 →
          x.u.trap = some (code, m) → x.mayFault → (∀ i, i / 8 = j / 8 → u.irqOf i = none) →
          ((code = 1 ∧ cause = 0x20 ∧ sec = 0) ∨ (code = 2 ∧ cause = 0x21 ∧ sec = 0) ∨ (code = 3 ∧ cause = 0x22 ∧ sec = 0) ∨
           (code = 4 ∧ cause = 0x23 ∧ sec = 0) ∨ (code = 5 ∧ cause = 0x24 ∧ sec = 0) ∨ (code = 7 ∧ cause = 0x25 ∧ sec = 0) ∨
           (code = 8 ∧ cause = 0x26 ∧ sec = 0) ∨ (0x40 ≤ code ∧ code < 0x100 ∧ cause = 0x27 ∧ sec = code)) →
          does fun _ t => let y := t.blk.ctx j
            let l := if x.priv = 2 then 2 else 1
            y.u.trap = none ∧ y.lcause = BitVec.ofNat 8 cause ∧ y.scause = BitVec.ofNat 8 sec ∧ y.st = .run ∧
            y.sw = (x.sw &&& 0x0FFF) ||| 0x1000 ||| BitVec.ofNat 16 (8192 * l) ∧ y.pc.toNat = u.fld (F.EA_XVEC_PC b (l - 1)) % 2 ^ 16))))) ∧
  -- the ALU
  (∀ (w : UWord) (a b acc : BitVec 40) (cin : Bool),
    let r := ualu w a b acc cin
    let q : Int := if cin then 1 else 0
    (w.aop = 0x00 → r = a) ∧ (w.aop = 0x01 → r = b) ∧ (w.aop = 0x02 → r = BitVec.ofInt 40 (a.toInt + b.toInt)) ∧
    (w.aop = 0x03 → r = BitVec.ofInt 40 (a.toInt + b.toInt + q)) ∧ (w.aop = 0x04 ∨ w.aop = 0x0F → r = BitVec.ofInt 40 (a.toInt - b.toInt)) ∧
    (w.aop = 0x05 → r = BitVec.ofInt 40 (a.toInt - b.toInt - 1 + q)) ∧ (w.aop = 0x06 → r = BitVec.ofInt 40 (b.toInt - a.toInt)) ∧
    (w.aop = 0x0C → r = BitVec.ofInt 40 (-a.toInt)) ∧ (w.aop = 0x0D → r = BitVec.ofInt 40 (a.toInt + 1)) ∧
    (w.aop = 0x0E → r = BitVec.ofInt 40 (a.toInt - 1)) ∧ (w.aop = 0x11 → r = BitVec.ofInt 40 (acc.toInt + a.toInt)) ∧
    (w.aop = 0x12 → r = BitVec.ofInt 40 (acc.toInt - a.toInt)) ∧ (w.aop = 0x13 → r = BitVec.ofInt 40 a.toInt.natAbs) ∧
    (w.aop = 0x14 → r.toInt = min a.toInt b.toInt) ∧ (w.aop = 0x15 → r.toInt = max a.toInt b.toInt) ∧
    (w.aop = 0x16 → r = if b.toNat % 2 ^ 32 < a.toNat % 2 ^ 32 then b else a) ∧ (w.aop = 0x17 → r = if b.toNat % 2 ^ 32 < a.toNat % 2 ^ 32 then a else b) ∧
    (w.aop = 0x18 → r = BitVec.ofInt 40 (a.setWidth 16).toInt) ∧ (w.aop = 0x19 → r.toNat = a.toNat % 2 ^ 16) ∧
    (∀ i : Nat, i < 40 → (w.aop = 0x07 ∨ w.aop = 0x10 → r.getLsbD i = (a.getLsbD i && b.getLsbD i)) ∧ (w.aop = 0x08 → r.getLsbD i = (a.getLsbD i || b.getLsbD i)) ∧
      (w.aop = 0x09 → r.getLsbD i = (a.getLsbD i != b.getLsbD i)) ∧ (w.aop = 0x0A → r.getLsbD i = (a.getLsbD i && !b.getLsbD i)) ∧
      (w.aop = 0x0B → r.getLsbD i = !a.getLsbD i))) ∧
  -- the destination and the flags of an integer result of 16 bits
  (∀ (x : Ctx) (w : UWord) (n : Nat) (a b : BitVec 40), w.fmt = 0 → w.shf = 0 → w.dst < 0x20 → w.aop ≠ 0x0F → w.aop ≠ 0x10 → w.aop < 0x1A → w.mop ≠ 1 → w.mop ≠ 5 → w.cop < 8 →
    w.evt ≠ 4 →
    let r := ualu w a b x.u.acc x.flags.c
    let big := (2 ^ 15 : Int) ≤ r.toInt ∨ r.toInt < -2 ^ 15
    let v : Half := if w.sat = true ∧ big then (if r.toInt < 0 then 0x8000 else 0x7FFF) else r.setWidth 16
    let y := x.ualuStep w n a b
    y.gr w.dst = v ∧ (∀ i, i ≠ x.gi w.dst → tget (fun _ => 0) y.g i = tget (fun _ => 0) x.g i) ∧
    (w.flg = 1 → y.flags.n = v.getLsbD 15 ∧ y.flags.z = (v == 0) ∧ y.flags.c = x.flags.c ∧ y.flags.v = x.flags.v) ∧
    (w.flg = 3 → w.aop = 0x02 → y.flags.n = v.getLsbD 15 ∧ y.flags.z = (v == 0) ∧
      y.flags.c = decide (2 ^ 16 ≤ a.toNat % 2 ^ 16 + b.toNat % 2 ^ 16) ∧
      (y.flags.v = true ↔ (2 ^ 15 : Int) ≤ (a.setWidth 16).toInt + (b.setWidth 16).toInt ∨ (a.setWidth 16).toInt + (b.setWidth 16).toInt < -2 ^ 15)) ∧
    (w.flg = 0 → y.sw = x.sw) ∧
    y.u.fl.getLsbD 0 = r.getLsbD 31 ∧ y.u.fl.getLsbD 1 = decide (r.toNat % 2 ^ 32 = 0) ∧ y.u.fl.getLsbD 5 = (v == 0) ∧
    y.u.fl.getLsbD 4 = decide (w.sat = true ∧ big))

/-- R6, R256 to R262, R492, R493, R559: the patch loader with the checks of an image in their order, its activation in the next cycle or at a frame
boundary, and the writes of the match registers, which the fetches of later cycles follow. -/
def Obligations.PatchesAndMatches : Prop :=
  ∀ (s : State) (dt : Nat) (req : Req) (v : Word) (bay : Bay) (n : Fin 64) (tgt : Bool),
    let stat := F.CS_PATCH_STAT_off
    let state (u : Blk) : Nat := u.fld F.CS_PATCH_STAT_STATE
    let refused (u t : Blk) (code : Nat) : Prop := t.fld F.CS_PATCH_STAT_ERR = code ∧ state t = state u ∧ u.tells t 46 (some (code, 0)) [stat] ∧ u.alikeButRegs t
    let moved (u t : Blk) (st : Nat) : Prop := t = u.setFld F.CS_PATCH_STAT_STATE st
    -- activation (R261, R262)
    let activates (u t : Blk) (p : Patch) : Prop :=
      let lost (b m : Nat) : Prop := m < 64 ∧ u.fld (F.CS_MATCH_ADDR_EN b m) = 1 ∧ u.fld (F.CS_MATCH_ADDR_KIND b m) = 1 ∧
        (m < p.entries.length ∨ ∃ e, e ∈ p.entries ∧ e.1.toNat = u.fld (F.CS_MATCH_ADDR_ROMADDR b m))
      state t = 4 ∧ t.fld F.CS_VERSION_LEVEL = p.level.toNat ∧ u.alikeButRegs { t with matchOld := u.matchOld, patchNow := u.patchNow } ∧
      t.patchNow = none ∧
      t.fld F.TW_STAT_VERDIFF = (if u.tw.helloRx = none ∧ u.twState < 2 ∧ u.rd F.TW_PVER_off = 0 then u.fld F.TW_STAT_VERDIFF
        else (decide (u.rd F.TW_PVER_off ≠ Config.romVersion ++ BitVec.ofNat 16 p.level.toNat)).toNat) ∧
      (∀ off, off ∉ [stat, F.CS_VERSION_off, F.TW_STAT_off] ++ raiseRegs 47 ++ raiseRegs 49 →
        (∀ b : Bay, off ≠ F.CS_BAY_STAT_off b ∧ ∀ m, m < 64 → off ≠ F.CS_MATCH_ADDR_off b m ∧ off ≠ F.CS_MATCH_TGT_off b m) → t.rd off = u.rd off) ∧
      t.rbit ((srcPage 47).1 + 0xC) (47 - (srcPage 47).2) = true ∧
      (∀ b : Bay, ∀ m, m < 64 →
        (∀ e, p.entries[m]? = some e → t.rd (F.CS_MATCH_ADDR_off b m) = BitVec.ofNat 32 (0x80FF0000 + e.1.toNat) ∧
          t.rd (F.CS_MATCH_TGT_off b m) = BitVec.ofNat 32 e.2.toNat) ∧
        (p.entries.length ≤ m → t.rd (F.CS_MATCH_TGT_off b m) = u.rd (F.CS_MATCH_TGT_off b m) ∧
          (lost b m → t.fld (F.CS_MATCH_ADDR_EN b m) = 0 ∧ t.fld (F.CS_MATCH_ADDR_ROMADDR b m) = u.fld (F.CS_MATCH_ADDR_ROMADDR b m)) ∧
          (¬ lost b m → t.rd (F.CS_MATCH_ADDR_off b m) = u.rd (F.CS_MATCH_ADDR_off b m)))) ∧
      (∀ b : Bay, ((∃ m, lost b m) → t.fld (F.CS_BAY_STAT_BRKLOST b) = 1 ∧ t.rbit ((srcPage 49).1 + 0xC) (49 - (srcPage 49).2) = true) ∧
        ((∀ m, ¬ lost b m) → t.rd (F.CS_BAY_STAT_off b) = u.rd (F.CS_BAY_STAT_off b)))
    let acted (u t : Blk) : Prop :=
      (state u = 2 → u.patchNow = none → (∃ b : Bay, u.fld (F.EA_BAY_CTRL_EN b) = 1) →
        { t with asked := u.asked } = u.setFld F.CS_PATCH_STAT_STATE 3 ∧ ∀ i, pget t.asked i = if i = 64 then some u.now else pget u.asked i) ∧
      (state u = 2 → u.patchNow = none → (∀ b : Bay, u.fld (F.EA_BAY_CTRL_EN b) = 0) → t = { u with patchNow := some u.now }) ∧
      (state u = 2 → u.patchNow ≠ none → t = u) ∧
      (state u = 3 ∨ state u = 4 → t = u) ∧ (state u ≠ 2 → state u ≠ 3 → state u ≠ 4 → refused u t 8)
    let gone (u t : Blk) : Prop :=
      (state u = 0 ∨ state u = 5 → (u.fld F.BLK_STAT_FUSEDONE = 1 → moved u t 1) ∧ (u.fld F.BLK_STAT_FUSEDONE = 0 → t = { u with td := { u.td with goHeld := true } })) ∧
      (state u = 1 → t = u) ∧ (state u ≠ 0 → state u ≠ 5 → state u ≠ 1 → refused u t 7)
    let acts := F.CS_PATCH_CTRL_ACT.get v = 1
    let goes := F.CS_PATCH_CTRL_GO.get v = 1
    Performs (.patchGo req v) s req F.CS_PATCH_CTRL_off (fun u t => (acts → ∃ y, acted u y ∧ gone y t) ∧ (¬ acts → gone u t)) ∧
    Performs (.patchAct req v) s req F.CS_PATCH_CTRL_off (fun u t => (goes → ∃ y, acted u y ∧ gone y t) ∧ (¬ goes → acted u t)) ∧
    (∀ u : Blk, (state u ≠ 3 ∨ pget u.asked 64 = some u.tb.bndAt → u.patchFrame = u) ∧
      (∀ p, state u = 3 → pget u.asked 64 ≠ some u.tb.bndAt → u.patchNow = none → u.patch = some p → p.entries.length ≤ 64 → activates u u.patchFrame p)) ∧
    (∀ (u : Blk) (c : Nat), u.patchNow = some c → (u.now ≤ c → u.patchDue = u) ∧
      (∀ p, c < u.now → u.patch = some p → p.entries.length ≤ 64 → activates u u.patchDue p)) ∧
    -- the load
    (let k := (s.pass dt).blk
     let bs := k.patchImage
     let f (o n : Nat) : Nat := leAt bs o n
     let words := f 16 2
     let matches_ := f 18 2
     let plen := f 36 4
     let key := f 20 4
     let good := bs.take 4 = [0x4B, 0x41, 0x50, 0x54] ∧ f 4 2 = 1 ∧ f 6 2 = 0 ∧ f 40 24 = 0 ∧ f 8 4 < 2 ^ 16 ∧ 1 ≤ f 12 4 ∧ f 12 4 < 2 ^ 16 ∧
       1 ≤ words ∧ words ≤ 1024 ∧ matches_ ≤ 64 ∧ plen = 20 * words + 8 * matches_ ∧ bs.length = 176 + plen
     let signed := bs.take (80 + plen)
     let trusted := key < 4 ∧ k.td.fuses.revoke.getLsbD key = false ∧ k.fld F.TD_LIFE_LIFE ≠ 0 ∧
       Config.p384Verify (Config.vendorPatchKey key) (Config.sha384 signed) (BitVec.ofNat 768 (beAt bs (80 + plen) 96)) = true
     let opened := Config.gcmOpen (k.patchKey key) ((bs.drop 24).take 12) (bs.take 64) ((bs.drop 64).take plen) ((bs.drop (64 + plen)).take 16)
     let word (p : List Byte) (i : Nat) : BitVec 160 := BitVec.ofNat 160 (leAt p (20 * i) 20)
     let entry (p : List Byte) (i : Nat) : Nat × Nat × Nat := let o := 20 * words + 8 * i; (leAt p o 2, leAt p (o + 2) 2, leAt p (o + 4) 4)
     let codesOk (p : List Byte) : Prop := ∀ i, i < words → meccSyndrome (word p i) = 0 ∧ (word p i).extractLsb' 0 8 = 0
     let entriesOk (p : List Byte) : Prop := (∀ i, i < matches_ → (entry p i).1 < 2 ^ 13 ∧ (entry p i).2.1 < words ∧ (entry p i).2.2 = 0) ∧
       ∀ i j, i < j → j < matches_ → (entry p i).1 ≠ (entry p j).1
     let does := Happens (.patchLoadComplete dt) s dt
     let fails (code : Nat) : Prop := does fun u t => u.keepsMem t ∧ state t.blk = 5 ∧ t.blk.fld F.CS_PATCH_STAT_ERR = code ∧ t.blk.patchWin = [] ∧
       k.tells t.blk 46 (some (code, 0)) [stat] ∧ ({ k with patchWin := [] } : Blk).alikeButRegs t.blk
     (state k ≠ 1 → does fun u t => t = u) ∧
     (state k = 1 →
       (¬ good → fails 4) ∧ (good → ¬ trusted → fails 1) ∧ (good → trusted → opened = none → fails 2) ∧
       (∀ p, good → trusted → opened = some p →
         (f 8 4 ≠ Config.romVersion.toNat → fails 3) ∧ (f 8 4 = Config.romVersion.toNat → ¬ codesOk p → fails 5) ∧
         (f 8 4 = Config.romVersion.toNat → codesOk p → ¬ entriesOk p → fails 6) ∧
         (f 8 4 = Config.romVersion.toNat → codesOk p → entriesOk p → does fun u t => u.keepsMem t ∧ state t.blk = 2 ∧
           t.blk.fld F.CS_PATCH_LEVEL_LEVEL = f 12 4 ∧ t.blk.patchWin = [] ∧ t.blk.td = { k.td with payload := p } ∧
           (∀ i, pget t.blk.patchRam i = if i < words then some (word p i) else none) ∧
           t.blk.patch = some ⟨(List.range matches_).map fun i => (BitVec.ofNat 13 (entry p i).1, BitVec.ofNat 10 (entry p i).2.1), BitVec.ofNat 16 (f 12 4)⟩ ∧
           k.tells t.blk 46 none [stat, F.CS_PATCH_LEVEL_off] ∧
           ({ t.blk with patchWin := k.patchWin, td := k.td, patchRam := k.patchRam, patch := k.patch, regs := k.regs, ev := k.ev, fresh := k.fresh } : Blk) = k)))) ∧
    -- match registers
    (let b := bay.val
     let m := n.val
     let addr := F.CS_MATCH_ADDR_off b m
     let set (u t : Blk) (off : Nat) (w : Word) : Prop := { t with matchOld := u.matchOld } = u.wr off w ∧ ∀ f : Fld, f.off = off →
       let seen (n : Nat) : Nat := ({ t with now := u.now + n } : Blk).matchSeen f
       seen 1 = ({ u with now := u.now + 1 } : Blk).matchSeen f ∧ ((∀ x, x ∈ u.matchOld → x.2.1 ≤ u.now) → seen 2 = f.get w)
     let patched (u : Blk) (i : Nat) : Prop := u.fld (F.CS_MATCH_ADDR_EN b i) = 1 ∧ u.fld (F.CS_MATCH_ADDR_KIND b i) = 0
     Performs (.matchRegisterWrite req bay n tgt v) s req (if tgt then F.CS_MATCH_TGT_off b m else addr) fun u t =>
       let en := (F.CS_MATCH_ADDR_EN b m).get v = 1
       let kind := (F.CS_MATCH_ADDR_KIND b m).get v
       let rom := (F.CS_MATCH_ADDR_ROMADDR b m).get v
       let bad := patched u m ∨ (tgt = false ∧ ((en ∧ kind = 0) ∨ (kind = 1 ∧ ∃ i, i < 64 ∧ patched u i ∧ u.fld (F.CS_MATCH_ADDR_ROMADDR b i) = rom)))
       (bad → t.fld (F.CS_BAY_STAT_CONFLICT b) = 1 ∧ u.tells t 49 (some (0x30, b * 2 ^ 24 + m)) [F.CS_BAY_STAT_off b] ∧ u.alikeButRegs t) ∧
       (¬ bad → (tgt = true → set u t (F.CS_MATCH_TGT_off b m) (v &&& 0x3FF)) ∧ (tgt = false → set u t addr (v &&& 0xC0FF1FFF))))

/-- R408, R411 to R416, R418 to R422, R529: the ownership of Exchange buffers; the words that port B moves in a cycle, with their collisions; the
write-back of a corrected word; self-test with its repairs, clearing, and the memory switched off and on. -/
def Obligations.BayMemories : Prop :=
  ∀ (s : State) (dt : Nat) (req : Req) (bay : Bay) (n : Fin 64) (v : Word) (w : BitVec 19) (bad : List (Fin 5 × Fin 44)) (agent : Fin 6)
      (move : Option (Bool × BitVec 10 × Line)),
    let b := bay.val
    let k := (s.pass dt).blk
    let ctl := F.BM_CTRL_off b
    let stat := F.BM_STAT_off b
    let f (u : State) (x : Fld) : Nat := u.blk.fld x
    -- the memory of the bay is lost, and no other
    let wiped (u t : State) : Prop := (∀ a, memByte t.mem a = if a / 2 ^ 20 = b then memByte [] a else memByte u.mem a) ∧
      (∀ a, pget t.blk.bmErr a = if a / 2 ^ 19 = b then none else pget u.blk.bmErr a)
    let shown (t : State) : Prop := f t F.BLK_STAT_CLEARED = (decide (∀ i : Bay, f t (F.BM_STAT_READY i) = 1)).toNat
    let rest (u t : State) : Prop := u.blk.keepsRegs t.blk [ctl, stat, F.BLK_STAT_off] ∧
      { t.blk with regs := u.blk.regs, bmErr := u.blk.bmErr, bistAt := u.blk.bistAt, clearAt := u.blk.clearAt } = u.blk ∧ t.pending = u.pending
    let others (m m' : List (Nat × Nat)) : Prop := ∀ i, i ≠ b → pget m' i = pget m i
    let quiet (u : State) : Prop := f u (F.EA_BAY_CTRL_EN b) = 0 ∧ f u (F.SV_UNIT_STAT_BUSY b) = 0
    let offed (u t : State) : Prop := wiped u t ∧ f t (F.BM_CTRL_OFF b) = 1 ∧ f t (F.BM_STAT_PWROFF b) = 1 ∧ f t (F.BM_STAT_READY b) = 0 ∧
      f t (F.BM_STAT_CLEARING b) = 0 ∧ f t (F.BM_CTRL_BIST b) = 0 ∧ pget t.blk.bistAt b = none ∧ pget t.blk.clearAt b = none ∧ shown t ∧ rest u t
    let clears (u t : State) : Prop := wiped u t ∧ f t (F.BM_STAT_CLEARING b) = 1 ∧ f t (F.BM_STAT_READY b) = 0 ∧
      pget t.blk.clearAt b = some u.blk.now ∧ shown t ∧ rest u t
    let tests (u t : State) : Prop := wiped u t ∧ f t (F.BM_CTRL_BIST b) = 1 ∧ f t (F.BM_STAT_READY b) = 0 ∧ f t (F.BM_STAT_CLEARING b) = 0 ∧
      pget t.blk.bistAt b = some u.blk.now ∧ pget t.blk.clearAt b = none ∧ shown t ∧ rest u t
    let ctrl (i : Instr) (v : Word) : Prop := s.blk.takes req ctl = true → Answers (exec i s) fun t =>
      let u : State := { s with blk := s.blk.opened req ctl }
      let off := (F.BM_CTRL_OFF b).get v = 1
      let was := f u (F.BM_CTRL_OFF b) = 1
      let owned := ∃ i, i < 64 ∧ f u (F.BM_XBUF_OWN_KIND b i) ≠ 0
      ∃ y : State, (off → was → y = u) ∧ (off → ¬ was → quiet u → ¬ owned → offed u y) ∧
        (off → ¬ was → ¬ (quiet u ∧ ¬ owned) → y = { u with blk := u.blk.hwSet (F.BM_STAT_OFFREF b) }) ∧
        (¬ off → was → clears u y ∧ f y (F.BM_CTRL_OFF b) = 0 ∧ f y (F.BM_STAT_PWROFF b) = 0) ∧ (¬ off → ¬ was → y = u) ∧
        (let bist := (F.BM_CTRL_BIST b).get v = 1 ∧ quiet y ∧ f y (F.BM_CTRL_OFF b) = 0 ∧ f y (F.BM_CTRL_BIST b) = 0
         (bist → tests y t) ∧ (¬ bist → t = y))
    ctrl (.bistStart req bay v) (force (F.BM_CTRL_BIST b) v 1) ∧ ctrl (.memoryOff req bay v) (force (F.BM_CTRL_OFF b) v 1) ∧
    ctrl (.memoryWake req bay v) (force (F.BM_CTRL_OFF b) v 0) ∧
    (F.BM_CTRL_BIST b).get (force (F.BM_CTRL_BIST b) v 1) = 1 ∧ (F.BM_CTRL_OFF b).get (force (F.BM_CTRL_OFF b) v 1) = 1 ∧
    (F.BM_CTRL_OFF b).get (force (F.BM_CTRL_OFF b) v 0) = 0 ∧
    -- Exchange buffers
    (let kf := F.BM_XBUF_OWN_KIND b n
     let idf := F.BM_XBUF_OWN_ID b n
     let kind := kf.get v
     let id := idf.get v
     let own := F.BM_XBUF_OWN_off b n
     let refused (u t : Blk) : Prop := t.fld (F.BM_STAT_OWNCONF b) = 1 ∧ u.alikeButRegs t ∧
       ∃ rq, u.tells t (58 + 4 * b) (some (0x0B, rq * 2 ^ 28 + 0x78000 + 0x200 * n.val)) [stat]
     let claimed (u t : Blk) : Prop := (u.fld (F.BM_STAT_CLEARING b) = 1 → t = u) ∧
       (u.fld (F.BM_STAT_CLEARING b) = 0 → u.fld kf = 0 → u.onlyRegs t [own] ∧ t.fld kf = kind ∧ t.fld idf = id) ∧
       (u.fld (F.BM_STAT_CLEARING b) = 0 → u.fld kf ≠ 0 → refused u t)
     let post (u t : Blk) : Prop :=
       (kind = 3 ∨ (u.fld kf = 0 ∧ kind = 0) → t = u) ∧ (u.fld kf = 0 → kind = 1 → claimed u t) ∧
       (u.fld kf = 0 → kind = 2 → t = u.atDusk (.xclaim b n v)) ∧ (u.fld kf ≠ 0 → kind = 0 → id = u.fld idf → t = u.wr own 0) ∧
       (u.fld kf ≠ 0 → kind ≠ 3 → ¬ (kind = 0 ∧ id = u.fld idf) → refused u t)
     Performs (.xbufOwnWrite (.window req) bay n v) s req own post ∧
     Happens (.xbufOwnWrite (.portB dt agent move) bay n v) s dt (fun u t => t.mem = u.mem ∧ ∃ y, post u.blk y ∧ t.blk = match move with
       | none => y
       | some (wr, l, d) => { y with xfer := y.xfer ++ [(b, ⟨agent, wr, l.toNat, d, 0, false, false⟩)] }) ∧
     (∀ u : Blk, claimed u (u.duskOne (.xclaim b n v)))) ∧
    -- port B
    (∀ (u : State) (x : PortB) (i : Nat), x.line < 1024 → i < 32 →
      let at_ := 0x78000 + 32 * x.line + i
      let old := pget u.blk.portsNow.wrote (bmKey b at_)
      let r := u.portBWord b x i
      let word (d : Line) (j : Nat) : Half := d.extractLsb' (16 * j) 16
      let same (y : PortB) : Prop := { y with data := x.data, coll := x.coll, bad := x.bad } = x
      same r.2 ∧ r.1.pending = u.pending ∧
      (x.wr = true → old = none → r.2 = x ∧ r.1.peek b at_ = word x.data i ∧
        (∀ a, a ≠ memKey b at_ → a ≠ memKey b at_ + 1 → memByte r.1.mem a = memByte u.mem a) ∧ r.1.blk.regs = u.blk.regs) ∧
      (x.wr = true → old ≠ none → x.agent < 6 → r.2 = { x with coll := true } ∧ r.1.mem = u.mem ∧ r.1.blk.fld (F.BM_STAT_XCOLL b) = 1 ∧
        r.1.blk.rd (F.BM_XCOLL_off b) = BitVec.ofNat 32 (x.agent * 2 ^ 28 + (at_ - 0x70000)) ∧
        r.1.blk.fld (F.BM_XCOLL_CNT_COUNT b) = min (2 ^ (F.BM_XCOLL_CNT_COUNT b).w - 1) (u.blk.fld (F.BM_XCOLL_CNT_COUNT b) + 1) ∧
        u.blk.tells r.1.blk (58 + 4 * b) (some (0x08, 11 * 2 ^ 28 + at_)) [stat, F.BM_XCOLL_off b, F.BM_XCOLL_CNT_off b] ∧ u.blk.alikeButRegs r.1.blk) ∧
      (x.wr = false → r.1.mem = u.mem ∧ (∀ j, j < 32 → j ≠ i → word r.2.data j = word x.data j) ∧ (∀ o, old = some o → word r.2.data i = o) ∧
        (old = none → pget u.blk.bmErr (bmKey b at_) = none → word r.2.data i = u.peek b at_ ∧ r.2.bad = x.bad ∧ r.1 = u))) ∧
    (∀ (u : State) (x : PortB) (pre rest : List (Nat × PortB)), u.blk.xfer = pre ++ (b, x) :: rest → u.blk.bmReady b = true → x.agent < 6 →
      (∀ y, y ∈ pre → y.1 = b → x.agent < y.2.agent) → (∀ y, y ∈ rest → y.1 = b → x.agent ≤ y.2.agent) →
      let w1 := u.portBWord b x x.done
      let w2 := w1.1.portBWord b w1.2 (x.done + 1)
      let w3 := w2.1.portBWord b w2.2 (x.done + 2)
      let w4 := w3.1.portBWord b w3.2 (x.done + 3)
      let y := { w4.2 with done := x.done + 4 }
      let t := u.portBOne b
      t.mem = w4.1.mem ∧ { t.blk with xfer := u.blk.xfer, xdone := u.blk.xdone } = { w4.1.blk with xfer := u.blk.xfer, xdone := u.blk.xdone } ∧
      (x.done + 4 < 32 → t.blk.xfer = (b, y) :: (pre ++ rest) ∧ t.blk.xdone = u.blk.xdone) ∧
      (32 ≤ x.done + 4 → t.blk.xfer = pre ++ rest ∧ t.blk.xdone = u.blk.xdone ++ [(b, y)])) ∧
    Happens (.bmCorrectionWriteback dt bay w) s dt (fun u t => t.mem = u.mem ∧
      (∀ i, pget t.blk.bmErr i = if i = bmKey b w.toNat ∧ pget u.blk.bmErr i = some .found ∧ (∀ g, g ∈ u.blk.portsNow.given → g.1 ≠ 8 * b + arrayOf w.toNat)
        then none else pget u.blk.bmErr i) ∧ { t.blk with bmErr := u.blk.bmErr } = u.blk) ∧
    -- the ends of self-test and clearing
    (let clearing := pget k.clearAt b
     let done := ∃ at_, clearing = some at_ ∧ at_ + 61440 ≤ k.now
     (¬ done → Happens (.clearingComplete dt bay) s dt fun u t => t = u) ∧
     (done → Happens (.clearingComplete dt bay) s dt fun u t => wiped u t ∧ f t (F.BM_STAT_CLEARING b) = 0 ∧ f t (F.BM_STAT_READY b) = 1 ∧
       pget t.blk.clearAt b = none ∧ others u.blk.clearAt t.blk.clearAt ∧ shown t ∧ rest u t)) ∧
    (let done := ∃ at_, pget k.bistAt b = some at_ ∧ at_ + 614400 ≤ k.now
     let rep (u : Blk) (a i lo w : Nat) : Nat := u.fld ⟨F.BM_REPAIR_off b a, 8 * i + lo, w⟩
     let used (a i : Nat) : Prop := rep k a i 7 1 = 1
     let fixed (a c : Nat) : Prop := ∃ i, i < 4 ∧ used a i ∧ rep k a i 0 6 = c
     let ends (u t : State) : Prop := wiped u t ∧ f t (F.BM_CTRL_BIST b) = 0 ∧ pget t.blk.bistAt b = none ∧ pget t.blk.bistDone b = some () ∧
       pget t.blk.clearAt b = some k.now ∧ f t (F.BM_STAT_CLEARING b) = 1 ∧ f t (F.BM_STAT_READY b) = 0 ∧ shown t ∧
       f t F.BLK_STAT_BISTDONE = (decide (∀ i : Bay, i ≠ bay → pget k.bistDone i ≠ none)).toNat
     let does := Happens (.bistComplete dt bay bad) s dt
     (¬ done → does fun u t => t = u) ∧
     (done → (∀ c, c ∈ bad → fixed c.1 c.2) → does fun u t => ends u t ∧ u.blk.keepsRegs t.blk [ctl, stat, F.BLK_STAT_off]) ∧
     (∀ (a : Fin 5) (c : Fin 44) i, done → bad = [(a, c)] → ¬ fixed a c → i < 4 → ¬ used a i → (∀ o, o < i → used a o) → does fun u t => u.keepsMem t ∧
       rep t.blk a i 0 8 = 0xC0 + c.val ∧ (∀ o, o < 4 → o ≠ i → rep t.blk a o 0 8 = rep k a o 0 8) ∧ pget t.blk.bistAt b = some k.now ∧
       others k.bistAt t.blk.bistAt ∧ k.keepsRegs t.blk [F.BM_REPAIR_off b a] ∧ { t.blk with regs := k.regs, bistAt := k.bistAt } = k) ∧
     (∀ (a : Fin 5) (c : Fin 44), done → bad = [(a, c)] → ¬ fixed a c → (∀ o, o < 4 → used a o) → does fun u t => ends u t ∧
       f t ⟨F.BM_BIST_RES_off b, a, 1⟩ = 1 ∧ f t (F.BM_STAT_BISTFAIL b) = 1 ∧
       u.blk.tells t.blk (58 + 4 * b) (some (0x0A, 0)) [ctl, stat, F.BLK_STAT_off, F.BM_BIST_RES_off b]))

/-- R427, R429 to R433, R435, R436, R438, R448, R452: offers and their release, claims and completions, the freeze, the writes of EV_PEND
and EV_MASK, and entries with a parity error. -/
def Obligations.EventController : Prop :=
  ∀ (s : State) (dt : Nat) (req : Req) (t : Fin 34) (v : Word) (mask : Bool) (i : Fin 8),
    let k := (s.pass dt).blk
    let evOnly (u w : Blk) : Prop := { w with ev := u.ev } = u
    let calm (u : Blk) (n : Nat) : Prop := u.fld F.EV_GCTL_STORM = 0 ∨ n < u.fld F.EV_GCTL_URG
    let routed (k : Blk) (n t : Nat) : Prop := if t < 32 then k.rbit (F.EV_ROUTE_LO_off n) t = true else k.rbit (F.EV_ROUTE_HI_off n) (t - 32) = true
    let mayOffer (k : Blk) (n : Nat) : Prop := k.rbit (F.EV_PEND_off (n / 32)) (n % 32) = true ∧ k.rbit (F.EV_MASK_off (n / 32)) (n % 32) = false ∧
      (∃ t, t < 34 ∧ routed k n t) ∧ k.fld F.EV_GCTL_EN = 1 ∧ k.ev.frozen = false ∧
      (∀ x, x ∈ k.ev.active → x.2 ≠ n) ∧ ∀ j, j < 3 → pget k.ev.bad (3 * n + j) = none
    let idle (k : Blk) (t : Nat) : Prop := if t < 32 then k.rbit F.EV_BAYSTOP_off t = true ∨ pget k.idle t ≠ none
      else t = 32 ∧ ∀ c, k.ev.t32Done = some c → c + k.fld (F.EV_TMOD_HOLD 32) * 16 ≤ k.now
    let passes (k : Blk) (t n : Nat) : Prop := k.fld (F.EV_TMOD_HOLD t) = 0 ∨ idle k t ∨ n < k.fld F.EV_GCTL_URG ∨
      (k.fld (F.EV_TMOD_COUNT t) ≠ 0 ∧ ∃ l : List Nat, l.Nodup ∧ l.length = k.fld (F.EV_TMOD_COUNT t) ∧
        ∀ m, m ∈ l → m < 250 ∧ mayOffer k m ∧ routed k m t) ∨
      (∃ c, pget k.ev.waitFrom t = some c ∧ c + k.fld (F.EV_TMOD_HOLD t) * 16 ≤ k.now) ∨ t = 33
    -- the assignment, at the end of the cycle, from what the cycle began with
    (Happens (.offerAssign dt []) s dt fun u w => w = { u with blk := u.blk.atDusk .offers }) ∧
    (∀ u : Blk, let d : Blk := { u.atDawn with ev := { u.dawn.ev with bad := u.ev.bad } }
      let w := u.duskOne .offers
      let e := w.ev
      ∃ o : Nat → Option Nat,
        (let free (n t : Nat) : Prop := t < 34 ∧ routed d n t ∧ pget d.ev.active t = none ∧ ∀ m, m < n → o t ≠ some m
         let after (n t : Nat) : Nat := (t + 67 - d.fld (F.EV_ROUTE_HI_RR n)) % 34
         ∀ t n, o t = some n ↔ n < 250 ∧ mayOffer d n ∧ free n t ∧ ∀ t', free n t' → after n t ≤ after n t') ∧
        (∀ t n, pget e.offer t = some n ↔ u.ev.frozen = false ∧ o t = some n ∧ pget u.ev.active t = none ∧ ∀ x, x ∈ u.ev.active → x.2 ≠ n) ∧
        (∀ t, pget e.waitFrom t = if pget e.offer t = none then none else some ((pget u.ev.waitFrom t).getD (u.now + 1))) ∧
        (∀ t, pget e.released t = some () ↔ ∃ n, pget e.offer t = some n ∧
          ((pget u.ev.released t = some () ∧ pget u.ev.offer t = some n) ∨ passes { w with now := u.now + 1 } t n)) ∧
        (∀ b, pget w.latch b = if b < 32 ∧ pget e.offer b ≠ none ∧ pget u.ev.offer b = none ∧ u.rbit F.EV_BAYSTOP_off b = true ∧ pget u.latch b = none
          then some (u.now + 1) else pget u.latch b) ∧
        evOnly u { w with latch := u.latch } ∧ { e with offer := u.ev.offer, released := u.ev.released, waitFrom := u.ev.waitFrom } = u.ev) ∧
    -- a parity error is found; an entry is rewritten
    (∀ x : Fin 250 × Fin 3, let e := 3 * x.1.val + x.2.val
      Happens (.offerAssign dt [x]) s dt fun u w => ∃ y : Blk, w = { u with blk := y.atDusk .offers } ∧
        (pget k.ev.bad e = some () → y = k) ∧
        (pget k.ev.bad e = none → ∃ z : Blk, (∀ i, pget z.ev.bad i = if i = e then some () else pget k.ev.bad i) ∧ { z.ev with bad := k.ev.bad } = k.ev ∧
          evOnly k z ∧ (calm k 0 → z.tells y 0 (some (0x02, x.1.val)) []) ∧ z.alikeButRegs y)) ∧
    (s.blk.settled → ∀ (n : Fin 250) (hi : Bool), let off := if hi then F.EV_ROUTE_HI_off n else F.EV_ROUTE_LO_off n
      Performs (.registerWrite req (BitVec.ofNat 22 off) 32 v) s req off fun u w => u.onlyRegs { w with ev := u.ev } [off] ∧
        w.rd off = (if hi then (u.rd off &&& 0xFFFFFFFC) ||| (v &&& 3) else v) ∧
        (∀ i, pget w.ev.bad i = if i = 3 * n.val + 2 then none else pget u.ev.bad i) ∧ { w.ev with bad := u.ev.bad } = u.ev) ∧
    (let due (n : Nat) : Prop := pget k.ev.offer t = some n ∧ pget k.dawn.ev.offer t = some n ∧ passes k.atDawn t n
     ((∀ n, ¬ due n) → Happens (.offerRelease dt t) s dt fun u w => w = u) ∧
     (∀ n, due n → Happens (.offerRelease dt t) s dt fun u w => u.keepsMem w ∧
      (∀ x, pget w.blk.ev.released x = if x = t.val then some () else pget k.ev.released x) ∧ evOnly k w.blk ∧
      { w.blk.ev with released := k.ev.released } = k.ev)) ∧
    -- claim and completion
    (s.blk.phase = .running →
      (pget s.blk.ev.offer t = none → Answers (exec (.eventClaim req t) s) fun w => w = { s with blk := { s.blk with winRsp := some ⟨req, 0, false⟩ } }) ∧
      (∀ n, pget s.blk.ev.offer t = some n → n < 250 → Answers (exec (.eventClaim req t) s) fun w => w.mem = s.mem ∧ w.pending = s.pending ∧
        let e := w.blk.ev
        let lost (m m' : List (Nat × Nat)) : Prop := ∀ x, pget m' x = if x = t.val then none else pget m x
        w.blk.winRsp = some ⟨req, 0x80000000 ||| BitVec.ofNat 32 n, false⟩ ∧ (∀ x, pget e.active x = if x = t.val then some n else pget s.blk.ev.active x) ∧
        lost s.blk.ev.offer e.offer ∧ lost s.blk.ev.waitFrom e.waitFrom ∧ (∀ x, pget e.released x = if x = t.val then none else pget s.blk.ev.released x) ∧
        w.blk.rbit (F.EV_PEND_off (n / 32)) (n % 32) = false ∧ (∀ j, j < 32 → j ≠ n % 32 → w.blk.rbit (F.EV_PEND_off (n / 32)) j = s.blk.rbit (F.EV_PEND_off (n / 32)) j) ∧
        w.blk.fld (F.EV_ROUTE_HI_RR n) = t.val ∧ s.blk.keepsRegs w.blk [F.EV_PEND_off (n / 32), F.EV_ROUTE_HI_off n] ∧
        { w.blk with regs := s.blk.regs, ev := s.blk.ev, winRsp := s.blk.winRsp } = s.blk)) ∧
    Performs (.eventDone req t v) s req (F.EV_DONE_off t) (fun u w =>
      let n := (F.EV_DONE_SOURCE t).get v
      (pget u.ev.active t = some n → (∀ x, pget w.ev.active x = if x = t.val then none else pget u.ev.active x) ∧
        w.ev.t32Done = (if t.val = 32 then some u.now else u.ev.t32Done) ∧ { w.ev with active := u.ev.active, t32Done := u.ev.t32Done } = u.ev ∧
        w.td = (if t.val = 33 then { u.td with sage := u.td.sage ++ [n] } else u.td) ∧ { w with ev := u.ev, td := u.td } = u) ∧
      (pget u.ev.active t ≠ some n → w.fld F.EV_STAT_DONEERR = 1 ∧ (calm u 0 → u.tells w 0 (some (0x01, t.val * 2 ^ 16 + n % 256)) [F.EV_STAT_off]) ∧ u.alikeButRegs w)) ∧
    -- the freeze
    (let ends (u w : Blk) : Prop := w.fld F.EV_STAT_FROZEN = 0 ∧ w.fld F.EV_FRZ_FRZ = 0 ∧
       w.ev = { u.ev with frozen := false, heldPend := [], heldMask := [],
                          due := u.ev.due ++ u.ev.heldPend.map (fun x => (false, x.1, u.now)) ++ u.ev.heldMask.map fun x => (true, x.1, u.now) } ∧
       { w with regs := u.regs, ev := u.ev } = u
     let written (v : Word) (u w : Blk) : Prop :=
       let id := F.EV_FRZ_ID.get v
       let limit := max 1 (F.EV_FRZ_LIMIT.get v)
       let frz := F.EV_FRZ_FRZ.get v
       let stores (w : Blk) : Prop := w.fld F.EV_FRZ_ID = id ∧ w.fld F.EV_FRZ_LIMIT = limit
       (u.ev.frozen = true → frz = 0 → id = u.ev.frzOwner.toNat → ends u w ∧ w.fld F.EV_FRZ_ID = id ∧ u.keepsRegs w [F.EV_FRZ_off, F.EV_STAT_off]) ∧
       (u.ev.frozen = true → (frz = 1 ∨ id ≠ u.ev.frzOwner.toNat) → w = u.hwSet F.EV_STAT_FRZBUSY) ∧
       (u.ev.frozen = false → frz = 0 → stores w ∧ u.onlyRegs w [F.EV_FRZ_off] ∧ w.fld F.EV_FRZ_FRZ = u.fld F.EV_FRZ_FRZ) ∧
       (u.ev.frozen = false → frz = 1 → stores w ∧ w.fld F.EV_FRZ_FRZ = 1 ∧ w.fld F.EV_STAT_FROZEN = 1 ∧ u.keepsRegs w [F.EV_FRZ_off, F.EV_STAT_off] ∧
         { w with regs := u.regs, ev := u.ev } = u ∧ w.ev = { u.ev with
           frozen := true, frzOwner := BitVec.ofNat 6 id, frzAt := u.now, frzLimit := limit, offer := [], released := [], waitFrom := [] })
     Performs (.freezeStart req v) s req F.EV_FRZ_off (written (force F.EV_FRZ_FRZ v 1)) ∧
     Performs (.freezeEnd req v) s req F.EV_FRZ_off (written (force F.EV_FRZ_FRZ v 0)) ∧
     F.EV_FRZ_FRZ.get (force F.EV_FRZ_FRZ v 1) = 1 ∧ F.EV_FRZ_FRZ.get (force F.EV_FRZ_FRZ v 0) = 0 ∧
     F.EV_FRZ_ID.get (force F.EV_FRZ_FRZ v 0) = F.EV_FRZ_ID.get v ∧
     (Expires (.freezeTimeout dt) s dt .freeze fun u w =>
      let late := u.ev.frozen = true ∧ u.ev.frzAt + u.ev.frzLimit * 16 ≤ u.now
      (¬ late → w = u) ∧
      (late → ∃ y z, ends u y ∧ u.keepsRegs y [F.EV_FRZ_off, F.EV_STAT_off] ∧ z.fld F.EV_STAT_FRZTO = 1 ∧ z.fld F.EV_STAT_FROZEN = 0 ∧
        y.onlyRegs z [F.EV_STAT_off] ∧ (calm u 1 → z.tells w 1 (some (0x21, u.ev.frzOwner.toNat)) []) ∧ z.alikeButRegs w))) ∧
    (let off := if mask then F.EV_MASK_off i else F.EV_PEND_off i
     Performs (.evPendMaskWrite req mask i v) s req off fun u w =>
       (u.fld F.EV_STAT_FRZTO = 1 → w = u) ∧
       (u.fld F.EV_STAT_FRZTO = 0 → u.onlyRegs { w with ev := u.ev } [off] ∧ { w.ev with bad := u.ev.bad } = u.ev ∧
         (∀ n j, j < 3 → pget w.ev.bad (3 * n + j) = if n / 32 = i.val ∧ j = mask.toNat then none else pget u.ev.bad (3 * n + j)) ∧ ∀ j, j < 32 → (w.rbit off j = true ↔
         (v.getLsbD j = true ∧ ¬ (i.val = 7 ∧ 26 ≤ j)) ∨ (mask = true ∧ ∃ n, (n, u.now) ∈ u.ev.maskAt ∧ n / 32 = i.val ∧ n % 32 = j))))

/-- R454 to R460, R463: the instructions of a pin engine: each executes in the tick that is due, where the word at PC is of its kind, and reads the
levels that the pads had in the pin-engine cycle, one set for all engines. -/
def Obligations.PinInstructions : Prop :=
  ∀ (s : State) (dt : Nat) (n : Fin 32) (pads : BitVec 128),
    let k := (s.pass dt).blk
    let u : Blk := if k.pins.padAt = some (k.now / 4) then k else { k with pins := { k.pins with padIn := pads, padAt := some (k.now / 4) } }
    let p := u.pe n
    let prog := u.rd (0x4800 + 0x40 * n + 4 * (p.pc.toNat / 2))
    let w : Half := if p.pc.toNat % 2 = 0 then prog.setWidth 16 else prog.extractLsb' 16 16
    let f (lo wd : Nat) : Nat := w.toNat / 2 ^ lo % 2 ^ wd
    let major := f 13 3
    let fires := u.fld (F.SB_PE_CTRL_EN n) = 1 ∧ p.tick ≤ k.now
    let left := decide (u.fld (F.SB_PE_CFG_SHDIR n) = 1)
    let frame := if u.fld (F.SB_PE_CFG_FRAME n) = 0 then 32 else u.fld (F.SB_PE_CFG_FRAME n)
    let int := if u.fld (F.SB_PE_DIV_INT n) = 0 then 65536 else u.fld (F.SB_PE_DIV_INT n)
    let sum := p.acc.toNat + u.fld (F.SB_PE_DIV_FRAC n)
    let q : PinEng := { p with acc := BitVec.ofNat 8 sum, tick := p.tick + 4 * (int + sum / 256) }
    let pad (i : Nat) : Bool := decide (i < u.fld (F.SB_PE_PINS_PWID n)) && u.pins.padIn.getLsbD ((u.fld (F.SB_PE_PINS_PBASE n) + i) % 128)
    let fl := u.peFlags.roll (k.now / 4)
    let flag (i : Nat) : Bool := fl.base.getLsbD i
    let does (i : Instr) (post : Blk → Prop) : Prop := Happens i s dt fun v t => t.mem = v.mem ∧ post t.blk
    let engine (t : Blk) (q : PinEng) : Prop := ∀ m, t.pe m = if m = n.val then q else u.pe m
    let only (t : Blk) (q : PinEng) : Prop := engine t q ∧ { t with pes := u.pes } = u
    let next (q : PinEng) : PinEng := { q with pc := q.pc + 1, stall := false }
    let done (q : PinEng) (t : Blk) : Prop := only t (next q)
    let stalls (t : Blk) : Prop := only t { q with stall := true }
    let stat := [F.SB_PE_CTRL_off n, F.SB_PE_STAT_off n]
    let illegal (t : Blk) : Prop := engine t { q with stall := false } ∧ t.fld (F.SB_PE_CTRL_EN n) = 0 ∧ t.fld (F.SB_PE_STAT_ILL n) = 1 ∧
      u.tells t 54 (some (0x06, n.val)) stat ∧ { t with regs := u.regs, ev := u.ev, pes := u.pes, fresh := u.fresh } = u
    let drives (t : Blk) (q : PinEng) (dir : Bool) (c : Nat) (idx : Nat → Nat) (val : Nat → Bool) : Prop :=
      engine t (next q) ∧ u.writesPads t n dir c idx val ∧ { t with pes := u.pes, pins := u.pins } = u
    let row (i : Instr) (kind : Prop) (post : Blk → Prop) : Prop := (fires → kind → does i post) ∧ (¬ (fires ∧ kind) → does i fun t => t = u)
    let count := if f 0 5 = 0 then 32 else f 0 5
    let moved (sr : Word) : PinEng := { q with sr := sr, bc := min 32 (p.bc + count) }
    row (.peBr dt n pads) (major = 0) (fun t =>
      let kd := f 10 3
      let pol := w.getLsbD 9
      let idx := f 5 4
      let legal := (kd ≤ 2 ∧ pol = false ∧ idx = 0) ∨ kd = 3 ∨ (kd = 4 ∧ idx = 0) ∨ (kd = 5 ∧ idx = 0) ∨ kd = 6
      let holds : Prop := kd = 0 ∨ (kd = 1 ∧ p.ca ≠ 0) ∨ (kd = 2 ∧ p.cb ≠ 0) ∨ (kd = 3 ∧ pad idx = pol) ∨ (kd = 4 ∧ (frame ≤ p.bc ↔ pol = true)) ∨
        (kd = 5 ∧ (p.tx ≠ [] ↔ pol = true)) ∨ (kd = 6 ∧ flag idx = pol)
      (¬ legal → illegal t) ∧ (legal → ¬ holds → done q t) ∧
      (legal → holds → only t { q with pc := BitVec.ofNat 5 (f 0 5), stall := false, ca := if kd = 1 then p.ca - 1 else p.ca,
                                       cb := if kd = 2 then p.cb - 1 else p.cb })) ∧
    row (.peHold dt n pads) (major = 1) (fun t =>
      let src := f 11 2
      let pol := w.getLsbD 10
      let idx := f 6 4
      let legal := f 0 6 = 0 ∧ (src ≤ 1 ∨ (src = 2 ∧ pol = true ∧ idx = 0))
      (¬ legal → illegal t) ∧ (legal → src = 0 → (pad idx = pol → done q t) ∧ (pad idx ≠ pol → stalls t)) ∧
      (legal → src = 1 → (flag idx = pol → done q t) ∧ (flag idx ≠ pol → stalls t)) ∧
      (legal → src = 2 → let came := ∃ c, pget u.peTrig n = some c ∧ c < k.now / 4
        (¬ came → stalls t) ∧ (came → engine t (next q) ∧
        (∀ m, pget t.peTrig m = if m = n.val then none else pget u.peTrig m) ∧ { t with pes := u.pes, peTrig := u.peTrig } = u))) ∧
    row (.pePause dt n pads) (major = 2) (fun t => (f 12 1 = 1 → illegal t) ∧
      (f 12 1 = 0 → (f 0 12 ≤ p.pause → done { q with pause := 0 } t) ∧
        (p.pause < f 0 12 → only t { q with pause := p.pause + 1, stall := true }))) ∧
    row (.peShin dt n pads) (major = 3) (fun t => (f 5 6 ≠ 0 → illegal t) ∧ (f 5 6 = 0 →
      let src (j : Nat) : Bool := match f 11 2 with | 0 => pad j | 1 => p.ca.getLsbD j | 2 => false | _ => true
      ∃ sr, shifted left p.sr sr count src ∧ done (moved sr) t)) ∧
    row (.peShout dt n pads) (major = 4) (fun t => let dst := f 10 3
      (f 5 5 ≠ 0 ∨ 4 ≤ dst → illegal t) ∧ (f 5 5 = 0 → dst < 4 →
        let out (j : Nat) : Bool := if left then p.sr.getLsbD (31 - j) else p.sr.getLsbD j
        ∃ sr, shifted left p.sr sr count (fun _ => false) ∧
          (dst = 0 → drives t (moved sr) false count id out) ∧ (dst = 1 → drives t (moved sr) true count id out) ∧
          (dst = 2 → ∃ ca : Half, (∀ j, j < 16 → ca.getLsbD j = if j < count then out j else p.ca.getLsbD j) ∧ done { moved sr with ca := ca } t) ∧
          (dst = 3 → done (moved sr) t))) ∧
    (let bad := f 0 10 ≠ 0
     let nb := f 10 1 = 1
     let load (t : Blk) : Prop := (bad → illegal t) ∧
       (∀ x l, ¬ bad → p.tx = x :: l → done { q with tx := l, sr := x, last := x, bc := 0 } t) ∧
       (¬ bad → p.tx = [] → ¬ nb → stalls t) ∧
       (¬ bad → p.tx = [] → nb → engine t (next { q with sr := p.last, bc := 0 }) ∧ t.fld (F.SB_PE_STAT_STALE n) = 1 ∧ u.keepsRegs t [F.SB_PE_STAT_off n] ∧
         { t with pes := u.pes, regs := u.regs, fresh := u.fresh } = u)
     let store (t : Blk) : Prop := (bad → illegal t) ∧
       (¬ bad → p.rx.length < 8 → done { q with rx := p.rx ++ [p.sr], sr := 0, bc := 0, put := (k.now, (if p.put.1 = k.now then p.put.2 else 0) + 1) } t) ∧
       (¬ bad → 8 ≤ p.rx.length → ¬ nb → stalls t) ∧
       (¬ bad → 8 ≤ p.rx.length → nb → engine t (next { q with sr := 0, bc := 0 }) ∧ t.fld (F.SB_PE_STAT_RXOVF n) = 1 ∧
         u.tells t 52 (some (0x04, n.val)) [F.SB_PE_STAT_off n] ∧ { t with pes := u.pes, regs := u.regs, ev := u.ev, fresh := u.fresh } = u)
     let op := f 11 2
     row (.peFifoLoad dt n pads) (major = 5 ∧ op = 0) load ∧ row (.peFifoStore dt n pads) (major = 5 ∧ op = 1) store ∧
     row (.peFifoLoadif dt n pads) (major = 5 ∧ op = 2) (fun t => (p.bc < frame → (bad → illegal t) ∧ (¬ bad → done q t)) ∧ (frame ≤ p.bc → load t)) ∧
     row (.peFifoStoreif dt n pads) (major = 5 ∧ op = 3) (fun t => (p.bc < frame → (bad → illegal t) ∧ (¬ bad → done q t)) ∧ (frame ≤ p.bc → store t))) ∧
    row (.pePut dt n pads) (major = 6) (fun t => let d := f 11 2
      (d ≤ 1 → f 0 2 ≠ 0 → illegal t) ∧
      (d ≤ 1 → f 0 2 = 0 → drives t q (decide (d = 1)) (f 2 4 + 1) (fun j => f 6 4 + j) fun _ => w.getLsbD 10) ∧
      (d = 2 → done { q with ca := BitVec.ofNat 16 (f 0 11) } t) ∧ (d = 3 → done { q with cb := BitVec.ofNat 16 (f 0 11) } t)) ∧
    (let kd := f 9 4
     row (.peCopy dt n pads) (major = 7 ∧ kd = 0) (fun t =>
       let dst := f 6 3
       let src := f 3 3
       let xf := f 1 2
       let legal := f 0 1 = 0 ∧ dst ≤ 4 ∧ src ≤ 5 ∧ xf ≤ 2
       (¬ legal → illegal t) ∧ (legal → ∃ x v : Word,
         (src = 0 → x = p.sr) ∧ (src = 1 → x = p.ca.setWidth 32) ∧ (src = 2 → x = p.cb.setWidth 32) ∧ (src = 3 → x = p.last) ∧
         (src = 4 → ∀ j, j < 32 → x.getLsbD j = (decide (j < 16) && pad j)) ∧ (src = 5 → x = 0) ∧
         (xf = 0 → v = x) ∧ (xf = 1 → v = ~~~x) ∧ (xf = 2 → v = x.setWidth 16 ++ x.extractLsb' 16 16) ∧
         (dst = 0 → done { q with sr := v, bc := 0 } t) ∧ (dst = 1 → done { q with ca := v.setWidth 16 } t) ∧
         (dst = 2 → done { q with cb := v.setWidth 16 } t) ∧ (dst = 3 → drives t q false 16 id fun j => v.getLsbD j) ∧
         (dst = 4 → only t { q with pc := v.setWidth 5, stall := false }))) ∧
     row (.peSignal dt n pads) (major = 7 ∧ kd = 1) (fun t =>
       let act := f 7 2
       let m : Half := 1 <<< f 0 4
       let puts (g : PinFlags) : Prop := engine t (next q) ∧ t.peFlags = g ∧ { t with pes := u.pes, peFlags := u.peFlags } = u
       (f 4 3 ≠ 0 → illegal t) ∧ (f 4 3 = 0 →
         (act = 0 → puts { fl with set := fl.set ||| m }) ∧ (act = 1 → puts { fl with clr := fl.clr ||| m }) ∧ (act = 2 → puts { fl with inv := fl.inv ^^^ m }) ∧
         (act = 3 → engine t (next q) ∧ u.tells t 55 (some (0x07, n.val + f 0 4 * 2 ^ 16)) [] ∧ { t with pes := u.pes, regs := u.regs, ev := u.ev, fresh := u.fresh } = u))) ∧
     row (.peSwap dt n pads) (major = 7 ∧ kd = 2) (fun t => (f 4 1 = 1 → illegal t) ∧ (f 4 1 = 0 → ∃ sr, shifted left p.sr sr 1 (fun _ => pad (f 0 4)) ∧
       drives t { q with sr := sr, bc := min 32 (p.bc + 1) } false 1 (fun _ => f 5 4) fun _ => if left then p.sr.getLsbD 31 else p.sr.getLsbD 0)) ∧
     row (.peNop dt n pads) (major = 7 ∧ (kd = 3 ∨ 5 ≤ kd)) (fun t => (kd = 3 ∧ f 0 9 = 0 → done q t) ∧ (¬ (kd = 3 ∧ f 0 9 = 0) → illegal t)) ∧
     row (.peStop dt n pads) (major = 7 ∧ kd = 4) (fun t => (f 0 9 ≠ 0 → illegal t) ∧ (f 0 9 = 0 → engine t (next q) ∧ t.fld (F.SB_PE_CTRL_EN n) = 0 ∧
       u.tells t 56 (some (0x08, n.val)) [F.SB_PE_CTRL_off n] ∧ { t with pes := u.pes, regs := u.regs, ev := u.ev, fresh := u.fresh } = u))) ∧
    -- the flags of a pin-engine cycle, as the next one reads them
    (∀ (g : PinFlags) (c i : Nat), i < 16 → (g.cyc = c → (g.roll c) = g) ∧ (g.cyc ≠ c → ((g.roll c).base.getLsbD i =
      if g.set.getLsbD i then true else if g.clr.getLsbD i then false else g.base.getLsbD i != g.inv.getLsbD i)))

/-- R454, R461 to R463, R465, R467, R468: the start and the stop of pin engines, the writes of their programs, FIFOs, flags and pads' owners. -/
def Obligations.PinEngineRegisters : Prop :=
  ∀ (s : State) (req : Req) (n : Fin 32) (m : Fin 128) (k : Fin 16) (v : Word),
    let ctrl := F.SB_PE_CTRL_off n
    let engine (u t : Blk) (q : PinEng) : Prop := ∀ i, t.pe i = if i = n.val then q else u.pe i
    let stored (u : Blk) (v : Word) : Word := (u.rd ctrl &&& 0xFFE0FFF2) ||| (v &&& 0x001F000D)
    let second (u : Blk) : Prop := v.getLsbD 3 = true ∧ ∃ i, i < 32 ∧ i ≠ n.val ∧ u.fld (F.SB_PE_CTRL_FARB i) = 1 ∧
      ∀ j, j < i → u.fld (F.SB_PE_CTRL_FARB j) = 0
    let control (v : Word) (u t : Blk) : Prop :=
      (second u → (u.setFld F.SB_PE_GSTAT_FARBCONF 1).tells t 50 (some (0x02, n.val)) [] ∧ (u.setFld F.SB_PE_GSTAT_FARBCONF 1).alikeButRegs t) ∧
      (¬ second u → t.rd ctrl = stored u v ∧ u.keepsRegs t [ctrl] ∧ { t with regs := u.regs, pes := u.pes } = u ∧
        engine u t (if v.getLsbD 0 = true ∧ u.fld (F.SB_PE_CTRL_EN n) = 0 then
          (u.pe n).begun u.now (v.toNat / 2 ^ 16 % 2 ^ 5) (v.getLsbD 2) else u.pe n))
    Performs (.peStart req n v) s req ctrl (control (v ||| 1)) ∧
    Performs (.peStopWrite req n v) s req ctrl (control (v &&& 0xFFFFFFFE)) ∧
    Performs (.peFarbWrite req n v) s req ctrl (control v) ∧
    Performs (.peGroupStart req v) s req F.SB_PE_GSTART_off (fun u t =>
      (∀ i, t.pe i = if v.getLsbD i then (if u.fld (F.SB_PE_CTRL_EN i) = 1 then { u.pe i with acc := 0, tick := 4 * (u.now / 4 + 1) }
        else (u.pe i).begun u.now (u.fld (F.SB_PE_CTRL_START i)) (u.fld (F.SB_PE_CTRL_KEEP_SHIFT i) = 1)) else u.pe i) ∧
      (∀ i, i < 32 → t.rd (F.SB_PE_CTRL_off i) = if v.getLsbD i then u.rd (F.SB_PE_CTRL_off i) ||| 1 else u.rd (F.SB_PE_CTRL_off i)) ∧
      u.keepsRegs t ((List.range 32).map F.SB_PE_CTRL_off) ∧ { t with regs := u.regs, pes := u.pes } = u) ∧
    (let word := 0x4800 + 0x40 * n.val + 4 * k.val
     Performs (.peProgramWrite req n k v) s req word (fun u t =>
      (u.fld (F.SB_PE_CTRL_EN n) = 1 → (u.setFld (F.SB_PE_STAT_PWREF n) 1).tells t 51 (some (0x03, n.val)) [] ∧ (u.setFld (F.SB_PE_STAT_PWREF n) 1).alikeButRegs t) ∧
      (u.fld (F.SB_PE_CTRL_EN n) = 0 → t.rd word = v ∧ u.keepsRegs t [word] ∧ engine u t { u.pe n with changed := true } ∧
        { t with regs := u.regs, pes := u.pes } = u))) ∧
    Performs (.flagSet req v) s req F.SB_PE_FSET_off (fun u t => let g := u.peFlags.roll (u.now / 4)
      t = { u with peFlags := { g with set := g.set ||| v.setWidth 16 } }) ∧
    Performs (.flagClear req v) s req F.SB_PE_FCLR_off (fun u t => let g := u.peFlags.roll (u.now / 4)
      t = { u with peFlags := { g with clr := g.clr ||| v.setWidth 16 } }) ∧
    Performs (.peTxWrite req n v) s req (F.SB_PE_TX_off n) (fun u t =>
      (u.fld (F.SB_PE_CTRL_FARB n) = 1 → t = u) ∧
      (u.fld (F.SB_PE_CTRL_FARB n) = 0 → (u.pe n).tx.length < 8 → engine u t { u.pe n with tx := (u.pe n).tx ++ [v] } ∧ { t with pes := u.pes } = u) ∧
      (u.fld (F.SB_PE_CTRL_FARB n) = 0 → 8 ≤ (u.pe n).tx.length → (u.setFld (F.SB_PE_STAT_TXOVF n) 1).tells t 53 (some (0x05, n.val)) [] ∧ (u.setFld (F.SB_PE_STAT_TXOVF n) 1).alikeButRegs t)) ∧
    (s.blk.phase = .running → Answers (exec (.peRxRead req n) s) fun t => t.mem = s.mem ∧ t.pending = s.pending ∧
      let given := s.blk.fld (F.SB_PE_CTRL_FARB n) = 1
      let p := s.blk.pe n
      let l := p.rx.take (p.rx.length - if p.put.1 = s.blk.now then p.put.2 else 0)
      (given ∨ l = [] → t.blk.winRsp = some ⟨req, 0, false⟩ ∧ ∀ i, t.blk.pe i = s.blk.pe i) ∧
      (∀ x r, ¬ given → l = x :: r → t.blk.winRsp = some ⟨req, x, false⟩ ∧ engine s.blk t.blk { p with rx := p.rx.tail }) ∧
      { t.blk with pes := s.blk.pes, winRsp := s.blk.winRsp } = s.blk) ∧
    (let off := F.SB_PAD_OWN_off m
     let kind := v.toNat / 2 ^ 6 % 4
     let id := v.toNat % 2 ^ 5
     Performs (.padOwnWrite req m v) s req off (fun u t =>
      let own := u.fld (F.SB_PAD_OWN_KIND m)
      let his := id = u.fld (F.SB_PAD_OWN_ID m)
      let takes : Prop := t.rd off = (u.rd off &&& 0xFFFF8320) ||| (v &&& (if v.toNat / 2 ^ 10 % 4 = 3 then 0x70DF else 0x7CDF)) ∧ u.onlyRegs t [off]
      let refused : Prop := (u.setFld F.SB_PE_GSTAT_PADCONF 1).tells t 50 (some (0x01, m.val * 2 ^ 8)) [] ∧ (u.setFld F.SB_PE_GSTAT_PADCONF 1).alikeButRegs t
      (kind = 3 → refused) ∧
      (own = 0 → (kind = 0 → t = u) ∧ (kind = 1 ∨ kind = 2 → takes)) ∧
      (own ≠ 0 → kind ≠ 3 → (his → kind = own → takes) ∧
        (his → kind = 0 → t.rd off = 0 ∧ u.keepsRegs t [off] ∧
          (∀ i, i < 128 → t.pins.out.getLsbD i = (u.pins.out.getLsbD i && !decide (i = m.val)) ∧
            t.pins.dir.getLsbD i = (u.pins.dir.getLsbD i && !decide (i = m.val))) ∧
          { t with regs := u.regs, pins := u.pins } = u ∧ { t.pins with out := u.pins.out, dir := u.pins.dir } = u.pins) ∧
        (¬ his ∨ (kind ≠ own ∧ kind ≠ 0) → refused))))

/-- R475, R476, R478 to R482: the polls of the input bus and their answers, the bus conditions, the power slots, the energy limits, and the grants of a
frame boundary. -/
def Obligations.PowerArbiter : Prop :=
  ∀ (s : State) (dt : Nat) (req : Req) (v : Word) (level : Bool) (n : Fin 16) (off : BitVec 22),
    let k := (s.pass dt).blk
    let does (i : Instr) (post : Blk → Prop) : Prop := Happens i s dt fun u t => u.keepsMem t ∧ post t.blk
    let slot (u : Blk) (i : Nat) : Nat := u.fld (F.SB_SLOT_CFG_STATE i)
    let tells (u : Blk) (t : Blk) (x c i : Nat) : Prop := u.tells t x (some (c, i)) [] ∧ u.alikeButRegs t
    -- polls
    (let p := k.pwr
     let due := k.fld F.SB_PWR_CTRL_POLLEN = 1 ∧ p.pollAt + 20000000 ≤ k.now
     (due → does (.pmbusPoll dt) fun t => Blk.startsPm { k with pwr := { p with pollAt := p.pollAt + 20000000, wait := p.wait ++ [.vin, .iin] } } t) ∧
     (¬ due → does (.pmbusPoll dt) fun t => t = k)) ∧
    ((∀ i, ¬ k.hasFifos i) → does (.pmbusAnswer dt) fun t => t = k) ∧
    (∀ i, k.hasFifos i →
      ((k.pe i).rx = [] → does (.pmbusAnswer dt) fun t => t = k) ∧
      (∀ w r, (k.pe i).rx = w :: r → does (.pmbusAnswer dt) fun t => ∃ a : Blk, (∀ j, a.pe j = if j = i then { k.pe i with rx := r } else k.pe j) ∧
        { a with pes := k.pes } = k ∧ (k.pwr.cur = none → t = a) ∧
        (∀ x at_, k.pwr.cur = some (x, at_) → a.endsPm t x (if w.toNat / 2 ^ 24 = 0 ∧ k.now ≤ at_ + 2000000 then some (w.setWidth 16) else none)))) ∧
    (let late (at_ : Nat) := at_ + 2000000 < k.now
     (∀ x at_, k.pwr.cur = some (x, at_) → (late at_ → does (.pmbusTimeout dt) fun t => k.endsPm t x none) ∧ (¬ late at_ → does (.pmbusTimeout dt) fun t => t = k)) ∧
     (k.pwr.cur = none → does (.pmbusTimeout dt) fun t => t = k)) ∧
    -- conditions
    (let a := { k with pwr := { k.pwr with alerts := k.pwr.alerts ++ [k.now] } }
     does (.pwrAlertNAssert dt) fun t => (k.fld F.SB_PWR_STAT_ALERT = 1 → t = a) ∧
       (k.fld F.SB_PWR_STAT_ALERT = 0 → tells (a.setFld F.SB_PWR_STAT_ALERT 1) t 14 0x01 0)) ∧
    does (.pwrGoodChange dt level) (fun t => (level = true → t = k.setFld F.SB_PWR_STAT_PGOOD 1) ∧
      (level = false → (k.setFld F.SB_PWR_STAT_PGOOD 0).entersUv t 0x02)) ∧
    -- slots
    (let cfg (u t : Blk) (st : Nat → Nat) : Prop := (∀ i, i < 16 → slot t i = st i ∧
         t.rd (F.SB_SLOT_CFG_off i) &&& 0x1FFFFFFF = u.rd (F.SB_SLOT_CFG_off i) &&& 0x1FFFFFFF) ∧
       (∀ i, i < 32 → t.rbit F.SB_SLOT_REQ_off i = if i < 16 ∧ st i ≠ slot u i then decide (st i = 1) else u.rbit F.SB_SLOT_REQ_off i) ∧
       u.onlyRegs t (F.SB_SLOT_REQ_off :: (List.range 16).map F.SB_SLOT_CFG_off)
     Performs (.slotRequest req v) s req F.SB_SLOT_REQ_off (fun u t =>
       cfg u t fun i => if v.getLsbD i = true ∧ (slot u i = 0 ∨ 4 ≤ slot u i) then 1 else slot u i) ∧
     Performs (.slotOff req v) s req F.SB_SLOT_OFF_off (fun u t => let offs := (List.range 16).filter fun i => v.getLsbD i && decide (slot u i = 3)
       (offs = [] → t = u) ∧ (offs ≠ [] → ∃ y, cfg u y (fun i => if i ∈ offs then 0 else slot u i) ∧
         Blk.startsPm { y with pwr := { y.pwr with wait := y.pwr.wait ++ offs.map PmTxn.off } } t))) ∧
    (let i := n.val
     let turn := slot k i = 1 ∧ (∀ j, j < i → slot k j ≠ 1) ∧ (∀ j, j < 16 → slot k j ≠ 2) ∧ ∀ c, k.pwr.slotAt = some c → c + 100000000 ≤ k.now
     let bus := k.fld F.SB_PWR_STAT_UV = 1 ∨ k.fld F.SB_PWR_STAT_OV = 1 ∨ k.fld F.SB_PWR_STAT_PMFAIL = 1
     let passes := k.fld (F.SB_SLOT_CFG_ILIM i) * k.fld F.SB_PWR_VLIM_VHIGH * k.fld (F.SB_SLOT_CFG_TTRIP i) ≤ k.fld F.SB_SLOT_ELIM_ELIM * 100000
     let start := does (.slotStart dt n)
     (¬ turn → start fun t => t = k) ∧
     (turn → bus → start fun t => ∃ y, k.slotTo y i 4 ∧ tells y t 18 0x21 i) ∧
     (turn → ¬ bus → ¬ passes → start fun t => ∃ y, k.slotTo y i 4 ∧ tells y t 18 0x20 i) ∧
     (turn → ¬ bus → passes → start fun t => ∃ y, k.slotTo y i 2 ∧
       Blk.startsPm { y with pwr := { k.pwr with slotAt := some k.now, wait := k.pwr.wait ++ [.slot i 0] } } t)) ∧
    -- the energy limits
    Performs (.energyLimitWrite req off v) s req off.toNat (fun u t =>
      let passes (ilim vhigh ttrip elim : Nat) : Prop := ilim * vhigh * ttrip ≤ elim * 100000
      let tops (vhigh elim j : Nat) : Prop := j < 16 ∧ slot u j ≠ 0 ∧ ¬ passes (u.fld (F.SB_SLOT_CFG_ILIM j)) vhigh (u.fld (F.SB_SLOT_CFG_TTRIP j)) elim
      let vhigh := u.fld F.SB_PWR_VLIM_VHIGH
      let elim := u.fld F.SB_SLOT_ELIM_ELIM
      let takes (mask : Word) : Prop := t.rd off.toNat = (u.rd off.toNat &&& ~~~mask) ||| (v &&& mask) ∧ u.onlyRegs t [off.toNat]
      let refused (j : Nat) : Prop := tells (u.setFld F.SB_PWR_STAT_ELREF 1) t 18 0x22 j
      let limit (vhigh elim : Nat) (mask : Word) : Prop := ((∀ j, ¬ tops vhigh elim j) → takes mask) ∧
        (∀ j, tops vhigh elim j → (∀ m, m < j → ¬ tops vhigh elim m) → refused j)
      (off = 0x3044 → limit vhigh (v.toNat % 2 ^ 16) 0xFFFF) ∧ (off = 0x3030 → limit (v.toNat / 2 ^ 16) elim 0xFFFFFFFF) ∧
      (∀ j, j < 16 → off.toNat = 0x3080 + 4 * j → let ok := passes (v.toNat / 2 ^ 12 % 2 ^ 10) vhigh (v.toNat % 2 ^ 12) elim
        (1 ≤ slot u j → slot u j ≤ 3 → t = u) ∧ (slot u j = 0 ∨ 4 ≤ slot u j → (ok → takes 0x1FFFFFFF) ∧ (¬ ok → refused j))) ∧
      (off ≠ 0x3044 → off ≠ 0x3030 → (∀ j, j < 16 → off.toNat ≠ 0x3080 + 4 * j) → t = u)) ∧
    -- the grants
    (∀ u : Blk, let t := u.powerFrame
      let order (i : Nat) : Nat := ([0, 3, 4, 6, 5] ++ (List.range 32).map (8 + ·) ++ [1, 2] ++ (List.range 32).map (40 + ·)).getD i 0
      let bnd := u.tb.bndAt
      let alert := ∃ c, c ∈ u.pwr.alerts ∧ c < bnd
      let low := (u.fld F.SB_PWR_STAT_UV = 1 ∧ u.pwr.uvOn < bnd) ∨ (∃ c, u.pwr.uvOff = some c ∧ u.pwr.bndAt < c) ∨
        (u.fld F.SB_PWR_STAT_PMFAIL = 1 ∧ u.pwr.pmOn < bnd) ∨ (∃ c, u.pwr.pmOff = some c ∧ u.pwr.bndAt < c)
      let zeroed (c : Nat) : Prop := low ∧ (c = 1 ∨ c = 2 ∨ 40 ≤ c)
      let spent (c : Nat) : Int := ((pget u.freshNow.met c).map (· - u.meterOf c)).getD 0
      let floor (c : Nat) : Nat := u.fld (F.SB_TOK_GRANT_FLOOR c)
      let sum (f : Nat → Nat) (i : Nat) : Nat := ((List.range i).map f).sum
      ∃ (avail : Nat) (give extra : Nat → Nat),
        (∀ x, avail ≤ x ↔ u.fld F.SB_PWR_BUDGET_BUDGET ≤ x ∨ (alert ∧ u.fld F.SB_PWR_BUDGET_ALERTB ≤ x) ∨ (low ∧ u.fld F.SB_PWR_HOLDB_HOLDB ≤ x)) ∧
        (∀ i, i < 71 → let c := order i
          (zeroed c → give i = 0 ∧ extra i = 0) ∧
          (¬ zeroed c → give i = min (floor c) (avail - sum give i) ∧
            extra i = min (max (u.fld (F.SB_TOK_GRANT_GRANT c)) (floor c) - give i) (avail - sum give 71 - sum extra i)) ∧
          t.fld (F.SB_TOK_COST_GIVEN c) = give i + extra i ∧ t.fld (F.SB_TOK_COST_COST c) = u.fld (F.SB_TOK_COST_COST c) ∧
          t.meterOf c = ((give i + extra i) * 65536 * u.fld F.SC_TB_SPEED_SPEED / 0x200000 : Nat) - spent c) ∧
        (let short := ∃ i, i < 71 ∧ ¬ zeroed (order i) ∧ give i < floor (order i)
         let regs := F.SB_PWR_STAT_off :: (List.range 71).map fun i => F.SB_TOK_COST_off (order i)
         (t.pwr.short = true ↔ short) ∧ (short → u.pwr.short = false → u.tells t 21 (some (0x06, 0)) regs) ∧
         (¬ short ∨ u.pwr.short = true → t.ev = u.ev ∧ u.keepsRegs t regs)) ∧
        (t.fld F.SB_PWR_STAT_ALERT = if u.pwr.alerts = [] then 0 else u.fld F.SB_PWR_STAT_ALERT) ∧
        t.rd F.SB_PWR_STAT_off &&& 0xFFFFFFFE = u.rd F.SB_PWR_STAT_off &&& 0xFFFFFFFE ∧
        t.pwr = { u.pwr with bndAt := bnd, short := t.pwr.short, uvOff := none, pmOff := none, alerts := u.pwr.alerts.filter fun c => decide (bnd ≤ c) } ∧
        t.fresh.met = [] ∧ { t with regs := u.regs, ev := u.ev, meter := u.meter, pwr := u.pwr, fresh := u.fresh } = u)

/-- R418, R419, R486 to R489, R494, R515, R559: the end of fuse load, the derivation of the keys, the load of a certificate chain, and a failed health
test. -/
def Obligations.FusesAndIdentity : Prop :=
  ∀ (s : State) (dt : Nat) (req : Req) (v : Word) (img : FuseImage) (nonce : BitVec 384),
    let k := (s.pass dt).blk
    let read {w : Nat} (i : Nat) (x : BitVec w) : BitVec w := if img.bad.getLsbD i then 0 else x
    let life := read 2 (img.a.life ||| img.b.life)
    let own := read 3 (img.a.own ||| img.b.own)
    let unit_ := read 1 (img.a.unitid ||| img.b.unitid)
    let revoke := read 6 (img.a.revoke ||| img.b.revoke)
    let rep := read 7 (img.a.rep ||| img.b.rep ||| k.burnt)
    let all : List Nat := List.range 32
    TdHappens (.fuseLoadComplete dt img nonce) s dt (fun u t =>
      (k.fld F.BLK_STAT_FUSEDONE = 1 → t = u) ∧
      (k.fld F.BLK_STAT_FUSEDONE = 0 → ∃ x y : Blk,
        x.td = { k.td with fuses := ⟨read 0 (img.a.uds ||| img.b.uds), unit_, life, own, read 4 (img.a.pwd ||| img.b.pwd),
                                     read 5 (img.a.psec ||| img.b.psec), revoke, rep⟩ } ∧
        x.fld F.TD_LIFE_FUSEOK = (decide (img.bad = 0)).toNat ∧ x.fld F.TD_LIFE_PREVOKE = revoke.toNat ∧
        x.fld F.TD_LIFE_OWNSET = (decide (own ≠ 0)).toNat ∧ x.fld F.TD_LIFE_LIFE = life.toNat ∧
        x.rd F.TD_UNITID_LO_off = unit_.setWidth 32 ∧ x.rd F.TD_UNITID_HI_off = unit_.extractLsb' 32 32 ∧
        (∀ (b a i : Nat), b < 32 → a < 5 → i < 4 → let e := (rep.toNat / 2 ^ (7 * (20 * b + 4 * a + i))) % 2 ^ 7
          x.fld ⟨F.BM_REPAIR_off b a, 8 * i, 8⟩ = e / 64 * 128 + e % 64) ∧
        x.fld F.TD_DBG_STAT_LEVEL = (if life = 0 then 3 else k.fld F.TD_DBG_STAT_LEVEL) ∧
        (∀ i, i < 12 → x.rd (F.TD_DBG_NONCE_off i) = if k.td.rbgBad then k.rd (F.TD_DBG_NONCE_off i) else nonce.extractLsb' (32 * i) 32) ∧
        x.fld F.BLK_STAT_FUSEDONE = 1 ∧
        (img.bad = 0 → x.ev = k.ev) ∧ (img.bad ≠ 0 → x.rbit ((srcPage 5).1 + 0xC) (5 - (srcPage 5).2) = true) ∧
        (∀ i : Fin 8, (∀ j : Fin 8, img.bad.getLsbD j = decide (j = i)) → k.tells x 5 (some (0x30, i.val)) ([F.TD_LIFE_off, F.TD_UNITID_LO_off,
          F.TD_UNITID_HI_off, F.TD_DBG_STAT_off, F.BLK_STAT_off] ++ (List.range 12).map F.TD_DBG_NONCE_off ++
          all.flatMap fun b => (List.range 5).map (F.BM_REPAIR_off b))) ∧
        { x with td := k.td, regs := k.regs, ev := k.ev, fresh := k.fresh } = k ∧
        (k.td.goHeld = true → y = { x with td := { x.td with goHeld := false } }.patchGo) ∧ (k.td.goHeld = false → y = x) ∧
        -- the self-test of every bay memory begins
        (∀ a, memByte t.mem a = if a < 2 ^ 25 then 0 else memByte u.mem a) ∧
        (∀ a, pget t.blk.bmErr a = if a < 2 ^ 24 then none else pget y.bmErr a) ∧
        (∀ b, b < 32 → t.blk.fld (F.BM_CTRL_BIST b) = 1 ∧ t.blk.fld (F.BM_STAT_READY b) = 0 ∧ t.blk.fld (F.BM_STAT_CLEARING b) = 0 ∧
          pget t.blk.bistAt b = some k.now ∧ pget t.blk.clearAt b = none) ∧
        t.blk.fld F.BLK_STAT_CLEARED = 0 ∧
        y.keepsRegs t.blk (F.BLK_STAT_off :: all.map F.BM_CTRL_off ++ all.map F.BM_STAT_off) ∧
        { t.blk with regs := y.regs, bmErr := y.bmErr, bistAt := y.bistAt, clearAt := y.clearAt } = y)) ∧
    -- the keys
    (let scalar (key : List Byte) (info : List Byte) : BitVec 384 := BitVec.ofNat 384 (Config.hkdf key info 56 % (p384Order - 1) + 1)
     let kry : List Byte := [0x4B, 0x52, 0x59, 0x2D]
     let uds := k.td.fuses.uds
     let device := scalar (bytesBE 48 uds) (kry ++ [0x44, 0x45, 0x56, 0x49, 0x44])
     let third := Config.measurement3 k.td.fuses.life k.td.fuses.revoke k.td.fuses.own
     let cdi := Config.hmac384 (bytesBE 48 uds) (bytesBE 48 Config.measurement1 ++ bytesBE 48 third)
     let due := k.fld F.BLK_STAT_FUSEDONE = 1 ∧ k.fld F.BLK_STAT_TDKEYS = 0
     TdHappens (.keyDerivationComplete dt) s dt (fun u t => (¬ due → t = u) ∧
       (due → u.keepsMem t ∧ t.blk.fld F.BLK_STAT_TDKEYS = 1 ∧ k.keepsRegs t.blk [F.BLK_STAT_off] ∧ { t.blk with regs := k.regs, td := k.td } = k ∧
         t.blk.td = { k.td with ident := some (Config.p384Public device, scalar (bytesBE 48 cdi) (kry ++ [0x41, 0x4C, 0x49, 0x41, 0x53])),
                                fuses := { k.td.fuses with uds := 0 } }))) ∧
    -- the certificate chain
    Performs (.certLoad req v) s req F.TD_CERT_CTRL_off (fun u t =>
      let n := v.toNat % 2 ^ 11
      let w := u.setFld F.TD_CERT_CTRL_LEN n
      ∃ bs : List Byte, bs.length = n ∧ (∀ i, i < n → bs[i]? = some ((u.rd (F.TD_CERT_off (i / 4))).extractLsb' (8 * (i % 4)) 8)) ∧
        let known (pub : BitVec 768) (al : BitVec 384) : Prop := u.fld F.TD_LIFE_LIFE ≠ 0 ∧ u.td.ident = some (pub, al) ∧ Config.deviceIdKey bs = some pub
        (u.fld F.TD_CERT_CTRL_OK = 1 → t = w) ∧
        (∀ pub al, u.fld F.TD_CERT_CTRL_OK = 0 → known pub al →
          t = { w.setFld F.TD_CERT_CTRL_OK 1 with td := { u.td with chain := some (bs ++ Config.aliasCert pub al) } }) ∧
        (u.fld F.TD_CERT_CTRL_OK = 0 → (∀ pub al, ¬ known pub al) → w.tells t 4 (some (0x20, 0)) [] ∧ w.alikeButRegs t)) ∧
    TdHappens (.rbgHealthFail dt) s dt (fun u t => u.keepsMem t ∧
      let w := { k with td := { k.td with rbgBad := true } }
      w.tells t.blk 4 (some (0x21, 0)) [] ∧ w.alikeButRegs t.blk)

/-- R487, R489 to R491, R515: the SPDM requests, the responses in order, and a signed response. What each response holds is the model's reading of the
messages that R490 names (log 112). -/
def Obligations.SpdmResponder : Prop :=
  ∀ (s : State) (dt slot off len : Nat) (meas index code : Byte) (sign : Bool) (nonce : BitVec 256),
    let k := (s.pass dt).blk
    let td := k.td
    let with_ (t : State) (f : Trust) : Prop := t.blk = { k with td := f } ∧ t.mem = (s.pass dt).mem
    let sends (t : State) (r : SpdmRsp) : Prop := with_ t { td with spdmTx := td.spdmTx ++ [r] }
    let blank := k.fld F.TD_LIFE_LIFE = 0
    let asks (i : Instr) (post : State → Prop) : Prop := TdHappens i s dt fun _ t => (blank → sends t (.error .blank)) ∧
      (¬ blank → td.spdm ≠ none → sends t (.error .busy)) ∧ (¬ blank → td.spdm = none → post t)
    let signs (t : State) (ok : Prop) (r : SpdmReq) : Prop := (td.rbgBad = true → sends t (.error .busy)) ∧
      (td.rbgBad = false → ok → td.ident ≠ none → with_ t { td with spdm := some r }) ∧
      (td.rbgBad = false → (¬ ok ∨ td.ident = none) → sends t (.error .unspecified))
    -- the measurements (R491)
    let two (d : BitVec 384) : Prop := (∀ p, k.patch = some p → k.fld F.CS_PATCH_STAT_STATE = 4 → d = Config.sha384 (td.payload ++ bytesLE 4 (p.level.setWidth 32))) ∧
      ((k.patch = none ∨ k.fld F.CS_PATCH_STAT_STATE ≠ 4) → d = Config.sha384 (List.replicate 48 0))
    let digest (i : Nat) (d : BitVec 384) : Prop := (i = 1 → d = Config.measurement1) ∧ (i = 2 → two d) ∧
      (i = 3 → d = Config.measurement3 td.fuses.life td.fuses.revoke td.fuses.own) ∧
      (i = 4 → d = Config.sha384 [BitVec.ofNat 8 td.top.1, BitVec.ofNat 8 td.top.2])
    let blocks (l : List (Nat × BitVec 384)) (index : Byte) : Prop := (∀ x, x ∈ l → digest x.1 x.2) ∧
      l.map Prod.fst = if index = 0xFF then [1, 2, 3, 4] else if index = 0 ∨ 4 < index.toNat then [] else [index.toNat]
    asks (.getVersion dt) (fun t => sends t (.version 0x12)) ∧
    asks (.getCapabilities dt) (fun t => sends t (.capabilities true true 2)) ∧
    asks (.negotiateAlgorithms dt) (fun t => sends t (.algorithms true true true)) ∧
    asks (.spdmUnsupportedRequest dt code) (fun t => sends t (.error .unsupported)) ∧
    asks (.getDigests dt) (fun t => (∀ c, td.chain = some c → sends t (.digests (Config.sha384 c))) ∧ (td.chain = none → sends t (.error .unspecified))) ∧
    asks (.getCertificate dt slot off len) (fun t =>
      (∀ c, td.chain = some c → slot = 0 → off ≤ c.length → ∃ part : List Byte, sends t (.certificate part (c.length - off - part.length)) ∧
        part.length = min len (c.length - off) ∧ ∀ i, i < part.length → part[i]? = (c.drop off)[i]?) ∧
      ((td.chain = none ∨ slot ≠ 0 ∨ ∃ c, td.chain = some c ∧ c.length < off) → sends t (.error .unspecified))) ∧
    asks (.challenge dt slot meas nonce) (fun t => signs t (slot = 0 ∧ td.chain ≠ none) (.challenge meas nonce)) ∧
    asks (.getMeasurements dt index sign nonce) (fun t =>
      (4 < index.toNat → index ≠ 0xFF → sends t (.error .unspecified)) ∧
      ((index.toNat ≤ 4 ∨ index = 0xFF) → (sign = true → signs t True (.measurements index nonce)) ∧
        (sign = false → ∃ l, blocks l index ∧ sends t (.measurements l none)))) ∧
    TdHappens (.spdmSignedResponse dt) s dt (fun u t =>
      ((td.spdm = none ∨ td.ident = none) → t = u) ∧
      (∀ r x, td.spdm = some r → td.ident = some x →
        (td.rbgBad = true → with_ t { td with spdm := none, spdmTx := td.spdmTx ++ [.error .busy] }) ∧
        (td.rbgBad = false → ∃ a, with_ t { td with spdm := none, sigs := td.sigs + 1, spdmTx := td.spdmTx ++ [a] } ∧
          let sig := Config.signature x.2 td.sigs
          (∀ m n, r = .challenge m n → ∃ d1 d2 d3 d4, digest 1 d1 ∧ digest 2 d2 ∧ digest 3 d3 ∧ digest 4 d4 ∧
            a = .challengeAuth (Config.sha384 (td.chain.getD [])) (Config.summary m [d1, d2, d3, d4]) n sig) ∧
          (∀ i n, r = .measurements i n → ∃ l, blocks l i ∧ a = .measurements l (some sig)))))

/-- R494 to R497: the writes that begin an authorisation attempt or drop the level, what a token and a password grant, and the end of the attempt. -/
def Obligations.DebugAuthorisation : Prop :=
  ∀ (s : State) (dt : Nat) (req : Req) (v : Word) (nonce : BitVec 384),
    let mode := F.TD_DBG_CTRL_MODE
    let auth := F.TD_DBG_CTRL_AUTH
    let stat := F.TD_DBG_STAT_off
    let byte (l : List Byte) (i : Nat) : Nat := (l.getD i 0).toNat
    -- the start of an attempt
    let attempt (u t : Blk) (password : Bool) : Prop :=
      let ignored := u.fld F.TD_LIFE_LIFE = 0 ∨ u.fld F.TD_DBG_STAT_LOCKOUT = 1 ∨ u.fld auth = 1
      (ignored → t = u) ∧
      (¬ ignored → ∃ g, t = { u.setFld auth 1 with td := { u.td with auth := some (password, g) } } ∧
        ∃ tok : List Byte, tok.length = 256 ∧ (∀ i, i < 256 → tok[i]? = some ((tget (fun _ => 0) u.td.token (i / 4)).extractLsb' (8 * (i % 4)) 8)) ∧
          let level := byte tok 6
          let key := (tok.drop 64).take 96
          let be (l : List Byte) : Nat := l.foldl (fun a b => a * 256 + b.toNat) 0
          let verifies (pub : BitVec 768) : Prop := Config.p384Verify pub (Config.sha384 (tok.take 160)) (BitVec.ofNat 768 (be ((tok.drop 160).take 96))) = true
          let head := tok.take 6 = [0x4B, 0x44, 0x42, 0x54, 1, 0] ∧ 1 ≤ level ∧ (∀ i, i < 8 → byte tok (8 + i) = u.td.fuses.unitid.toNat / 256 ^ i % 256) ∧
            ∀ i, i < 48 → byte tok (16 + i) = (u.rd (F.TD_DBG_NONCE_off (i / 4))).toNat / 256 ^ (i % 4) % 256
          let vendor := head ∧ byte tok 7 = 0 ∧ (∀ b, b ∈ key → b = 0) ∧ level ≤ 3 ∧ verifies Config.vendorDebugKey
          let owner := head ∧ byte tok 7 = 1 ∧ u.fld F.TD_LIFE_OWNSET = 1 ∧ Config.sha384 key = u.td.fuses.own ∧ level ≤ 2 ∧ verifies (BitVec.ofNat 768 (be key))
          let pass := u.fld F.TD_LIFE_LIFE = 1 ∧ Config.sha384 (bytesLE 8 u.td.fuses.unitid ++ tok.take 32) = u.td.fuses.pwd
          let bad := u.td.rbgBad = true
          (∀ l c, g = some (l, c) ↔ ¬ bad ∧ ((password = true ∧ pass ∧ l = 3 ∧ c = 3) ∨ (password = false ∧ vendor ∧ l = level ∧ c = 1) ∨
            (password = false ∧ owner ∧ l = level ∧ c = 2))))
    let acts (i : Instr) (mode_ : Nat) (drop start : Bool) : Prop := Performs i s req F.TD_DBG_CTRL_off fun u t => ∃ y : Blk,
      (drop = true → (u.setFld mode mode_).dropsLevel y) ∧ (drop = false → y = u.setFld mode mode_) ∧
      (start = true → attempt y t (decide (mode_ = 1))) ∧ (start = false → t = y)
    acts (.debugAuthToken req v) 0 (v.getLsbD 3) true ∧ acts (.debugAuthPassword req v) 1 (v.getLsbD 3) true ∧
    acts (.debugDrop req v) (v.toNat / 2 % 2) true (v.getLsbD 0) ∧
    -- the end
    (let k := (s.pass dt).blk
     let code (a : Option (Bool × Option (Nat × Nat))) : Nat := match a with | some (_, some _) => 0x01 | some (true, none) => 0x03 | _ => 0x02
     let fails := min 3 (k.fld F.TD_DBG_STAT_FAILS + 1)
     TdHappens (.debugAuthResult dt nonce) s dt fun u t => (k.td.auth = none → t = u) ∧
       (∀ pw g, k.td.auth = some (pw, g) → u.keepsMem t ∧ ∃ w : Blk,
         -- AUTH reads 0, and a new nonce is drawn
         w.fld auth = 0 ∧ w.fld mode = k.fld mode ∧
         (∀ i, i < 12 → w.rd (F.TD_DBG_NONCE_off i) = if k.td.rbgBad then k.rd (F.TD_DBG_NONCE_off i) else nonce.extractLsb' (32 * i) 32) ∧
         (∀ l c, g = some (l, c) → l < 4 → c < 4 → w.fld F.TD_DBG_STAT_LEVEL = l ∧ w.fld F.TD_DBG_STAT_SRC = c ∧ w.fld F.TD_DBG_STAT_RESULT = 1 ∧
           w.fld F.TD_DBG_STAT_FAILS = 0 ∧ w.fld F.TD_DBG_STAT_LOCKOUT = k.fld F.TD_DBG_STAT_LOCKOUT ∧
           w.td = { k.td with auth := none, top := if k.td.top.1 < l then (l, c) else k.td.top }) ∧
         (g = none → w.fld F.TD_DBG_STAT_LEVEL = k.fld F.TD_DBG_STAT_LEVEL ∧ w.fld F.TD_DBG_STAT_SRC = k.fld F.TD_DBG_STAT_SRC ∧
           w.fld F.TD_DBG_STAT_RESULT = 2 ∧ w.fld F.TD_DBG_STAT_FAILS = fails ∧ w.fld F.TD_DBG_STAT_LOCKOUT = k.fld F.TD_DBG_STAT_LOCKOUT ∧
           w.td = { k.td with auth := none }) ∧
         k.keepsRegs w (F.TD_DBG_CTRL_off :: stat :: (List.range 12).map F.TD_DBG_NONCE_off) ∧ { w with regs := k.regs, td := k.td, fresh := k.fresh } = k ∧
         (g ≠ none ∨ fails < 3 → w.tells t.blk 2 (some (code k.td.auth, 0)) [] ∧ w.alikeButRegs t.blk) ∧
         (g = none → fails = 3 → ∃ y : Blk, w.tells y 2 (some (code k.td.auth, 0)) [] ∧ w.alikeButRegs y ∧
           (y.setFld F.TD_DBG_STAT_LOCKOUT 1).tells t.blk 2 (some (0x04, 0)) [] ∧ (y.setFld F.TD_DBG_STAT_LOCKOUT 1).alikeButRegs t.blk)))

/-- R498 to R502, R504, R512, R530, R543: the door of the monitor and its commands. A FUSE_PROG beyond the ratings ends in a fault. -/
def Obligations.MonitorCommands : Prop :=
  ∀ (s : State) (dt : Nat) (req : Req) (v : Word) (off : BitVec 22) (count : Nat) (normal : Bool) (vals : List Word),
    Performs (.monitorDoor req v) s req F.TD_MON_DOOR_off (fun u t =>
      let y : Blk := { u.setFld F.TD_MON_STAT_BUSY 1 with td := { u.td with seq := v.setWidth 8 } }
      let code := (u.rd (F.TD_MON_CMD_off 0)).toNat % 256
      (u.fld F.TD_MON_STAT_BUSY = 1 → t = u.hwSet F.TD_MON_STAT_DOORREF) ∧
      (u.fld F.TD_MON_STAT_BUSY = 0 → (code ≤ 0x0D → t = y) ∧ (0x0D < code → y.answers t 6 []))) ∧
    Monitors (.monStatus dt) s dt 0x00 0 (fun u t =>
      let count (p : Nat → Bool) (n : Nat) : Word := BitVec.ofNat 32 ((List.range n).filter p).length
      u.says t 0 [BitVec.ofNat 32 (u.blk.fld F.TD_DBG_STAT_LEVEL), BitVec.ofNat 32 (u.blk.fld F.TD_DBG_STAT_SRC), count u.blk.halted 256,
        count (fun b => u.blk.rbit F.TD_HSTATB_off b) 32]) ∧
    -- the control window
    (let cause (o : Nat) : Option Nat := if o % 4 ≠ 0 then some 0 else if 0x400000 ≤ o ∨ pageOf (o % 0x200000) = none then some 1 else none
     let bad (wr : Bool) (o n : Nat) (u t : State) : Prop := ∀ i c, i < n → cause (o + 4 * i) = some c → (∀ j, j < i → cause (o + 4 * j) = none) →
       t.mem = u.mem ∧ (u.blk.accErr .monitor wr c ((o + 4 * i) % 0x400000)).answers t.blk 4 []
     let good (o n : Nat) : Prop := ∀ i, i < n → cause (o + 4 * i) = none
     let at_ (o i : Nat) : BitVec 22 := BitVec.ofNat 22 (o + 4 * i)
     let first := if normal then off.toNat else off.toNat % 0x200000 + 0x200000
     Monitors (.monReadReg dt off count normal) s dt 0x01 1 (fun u t =>
       let level := u.blk.fld F.TD_DBG_STAT_LEVEL
       let may := normal = false ∨ 3 ≤ level
       (¬ may → u.says t 1 []) ∧ (may → count = 0 ∨ 14 < count → u.says t 2 []) ∧
       (may → 1 ≤ count → count ≤ 14 → bad false first count u t ∧
         (good first count → ∃ y l, eachAccess (fun i => .captureRead .monitor (at_ first i) 32) 0 count u y l ∧ y.says t 0 l))) ∧
     Monitors (.monWriteReg dt off vals) s dt 0x02 3 (fun u t =>
       let n := vals.length
       (n = 0 ∨ 13 < n → u.says t 2 []) ∧
       (1 ≤ n → n ≤ 13 → bad true off.toNat n u t ∧
         (good off.toNat n → ∃ y l, eachAccess (fun i => .registerWrite .monitor (at_ off.toNat i) 32 (vals.getD i 0)) 0 n u y l ∧ y.says t 0 [])))) ∧
    -- bay memory
    (∀ (bay addr n : Nat) (ws : List Half),
      let word (i : Nat) : Nat := 2 ^ 19 * bay + addr + i
      let range (n most : Nat) : Prop := bay < 32 ∧ 0 < n ∧ n ≤ most ∧ addr + n ≤ 2 ^ 19
      Monitors (.monReadBm dt bay addr n) s dt 0x03 1 (fun u t =>
        let ready := u.blk.fld (F.BM_STAT_READY bay) = 1
        let err (i : Nat) : Option WordErr := pget u.blk.bmErr (word i)
        (¬ range n 28 → u.says t 2 []) ∧ (range n 28 → ¬ ready → t = u) ∧
        (range n 28 → ready → ∃ (k : Nat) (y z : State) (l : List Word), k ≤ n ∧ (∀ i, i < k → err i ≠ some .double) ∧ (k < n → err k = some .double) ∧
          l.length = (k + 1) / 2 ∧ (∀ j, 2 * j < k → l[j]? = some (BitVec.ofNat 32 ((u.peek bay (addr + 2 * j)).toNat +
            2 ^ 16 * (if 2 * j + 1 < k then (u.peek bay (addr + 2 * j + 1)).toNat else 0)))) ∧
          -- corrected words wait for their write-back
          (∀ a, pget y.blk.bmErr a = if (∃ i, i < k ∧ a = word i ∧ err i = some .single) then some .found else pget u.blk.bmErr a) ∧
          y.blk.fld (F.BM_CE_CNT_COUNT bay) = (let c := ((List.range k).filter fun i => err i == some .single).length
            if c = 0 then u.blk.fld (F.BM_CE_CNT_COUNT bay) else min (2 ^ (F.BM_CE_CNT_COUNT bay).w - 1) (u.blk.fld (F.BM_CE_CNT_COUNT bay) + c)) ∧
          u.blk.keepsRegs y.blk [F.BM_CE_CNT_off bay] ∧ y.mem = u.mem ∧ { y.blk with bmErr := u.blk.bmErr, regs := u.blk.regs, ports := u.blk.ports, fresh := u.blk.fresh } = u.blk ∧
          (k = n → z = y) ∧
          (k < n → z.mem = u.mem ∧ z.blk.fld (F.BM_UE_CNT_COUNT bay) = min (2 ^ (F.BM_UE_CNT_COUNT bay).w - 1) (u.blk.fld (F.BM_UE_CNT_COUNT bay) + 1) ∧
            z.blk.fld (F.BM_UE_REQ bay) = 12 ∧ z.blk.fld (F.BM_UE_ADDR bay) = addr + k ∧
            y.blk.tells z.blk (58 + 4 * bay) (some (0x09, 12 * 2 ^ 28 + addr + k)) [F.BM_UE_CNT_off bay, F.BM_UE_off bay] ∧ y.blk.alikeButRegs { z.blk with ports := y.blk.ports }) ∧
          z.says t (if k = n then 0 else 4) l)) ∧
      Monitors (.monWriteBm dt bay addr ws) s dt 0x04 3 (fun u t =>
        let n := ws.length
        let ready := u.blk.fld (F.BM_STAT_READY bay) = 1
        (¬ range n 24 → u.says t 2 []) ∧ (range n 24 → ¬ ready → t = u) ∧
        (range n 24 → ready → ∃ y : State, y.says t 0 [] ∧ (∀ i, i < n → ws[i]? = some (y.peek bay (addr + i))) ∧
          (∀ a, (∀ i, i < n → a / 2 ≠ word i) → memByte y.mem a = memByte u.mem a) ∧
          (∀ a, pget y.blk.bmErr a = if (∃ i, i < n ∧ a = word i) then none else pget u.blk.bmErr a) ∧
          (∀ j, y.blk.ctx j = if j / 64 = bay ∧ (∃ i, i < n ∧ (u.blk.ctx j).resv = some (addr + i)) then { u.blk.ctx j with resv := none } else u.blk.ctx j) ∧
          { y.blk with bmErr := u.blk.bmErr, ctxs := u.blk.ctxs, ports := u.blk.ports } = u.blk))) ∧
    -- contexts
    (∀ (e c item n : Nat) (v : Word),
      let j := 8 * e + c
      Monitors (.monReadCtx dt e c item n) s dt 0x08 1 (fun u t =>
        let x := u.blk.ctx j
        let bad := 255 < e ∨ 7 < c ∨ n = 0 ∨ 14 < n ∨ 0x82 < item + n
        (bad → u.says t 2 []) ∧ (¬ bad → u.blk.halted e = false → u.says t 3 []) ∧
        (¬ bad → u.blk.halted e = true → ∃ l : List Word, u.says t 0 l ∧ l.length = n ∧ ∀ i w, l[i]? = some w → let m := item + i
          (m < 0x40 → (w.setWidth 16 : Half) = tget (fun _ => 0) x.g m ∧ w.toNat / 2 ^ 16 = if u.blk.pendingReg j m then 2 ^ 15 else 0) ∧
          (0x40 ≤ m → m < 0x80 → w = (u.blk.sysRead j (m - 0x40)).setWidth 32) ∧ (m = 0x80 → w = x.pc.setWidth 32) ∧
          (m = 0x81 → w = (x.cb ++ x.bk).setWidth 32))) ∧
      Monitors (.monWriteCtx dt e c item v) s dt 0x09 3 (fun u t =>
        let x := u.blk.ctx j
        let h : Half := v.setWidth 16
        let n := item - 0x40
        let bad := 255 < e ∨ 7 < c ∨ 0x81 < item
        let open_ := ¬ bad ∧ u.blk.halted e = true
        let gives (z : Ctx) : Prop := ∃ y : State, y.says t 0 [] ∧ y.mem = u.mem ∧ { y.blk.ctx j with wd := z.wd } = z ∧ (∀ i, i ≠ j → y.blk.ctx i = u.blk.ctx i) ∧
          u.blk.keepsRegs y.blk [] ∧ u.blk.near y.blk
        (bad → u.says t 2 []) ∧ (¬ bad → u.blk.halted e = false → u.says t 3 []) ∧
        (open_ → item < 0x40 → (u.blk.pendingReg j item = true → u.says t 5 []) ∧
          (u.blk.pendingReg j item = false → gives { x with g := tset (fun _ => 0) x.g item h, gErr := pdel x.gErr item })) ∧
        (open_ → item = 0x40 → gives { x with sw := (x.sw &&& 0x7000) ||| (h &&& 0x8C0F) }) ∧ (open_ → item = 0x41 → gives { x with bk := h.setWidth 8 }) ∧
        (open_ → item = 0x42 ∨ item = 0x43 ∨ item = 0x59 ∨ item = 0x5A → gives x) ∧
        (open_ → (8 ≤ n ∧ n ≤ 0x13) ∨ (0x20 ≤ n ∧ n ≤ 0x3F) → 0x40 ≤ item → gives (x.setSr n (if 0x20 ≤ n ∧ n % 4 = 3 then h &&& 0xF800 else h))) ∧
        (open_ → item = 0x58 → gives (x.setSr 0x18 ((h &&& 0xF800) |||
          (if x.cpfHw.1 = u.blk.now then x.cpfHw.2.setWidth 16 <<< 11 else 0) ||| (x.sr 0x18 &&& 0x001F)))) ∧
        (open_ → 0x40 ≤ item → (4 ≤ n ∧ n ≤ 7) ∨ (0x14 ≤ n ∧ n ≤ 0x17) ∨ (0x1B ≤ n ∧ n ≤ 0x1F) → u.says t 2 []) ∧
        (open_ → item = 0x80 → gives { x with pc := h, farBad := false }) ∧ (open_ → item = 0x81 → gives { x with cb := h.extractLsb' 8 8, bk := h.setWidth 8, farBad := false }))) ∧
    -- breakpoints, cross triggers, events, fuses
    (∀ (bay n : Nat) (en : Bool) (rom : BitVec 13) (mask : Byte), Monitors (.monBreak dt bay n en rom mask) s dt 0x0A 2 (fun u t =>
      let k := u.blk
      let patches (m : Nat) : Prop := k.fld (F.CS_MATCH_ADDR_EN bay m) = 1 ∧ k.fld (F.CS_MATCH_ADDR_KIND bay m) = 0
      let refused := patches n ∨ ∃ m, m < 64 ∧ patches m ∧ k.fld (F.CS_MATCH_ADDR_ROMADDR bay m) = rom.toNat
      let bad := 31 < bay ∨ 63 < n
      let off := F.CS_MATCH_ADDR_off bay n
      t.mem = u.mem ∧ (bad → k.answers t.blk 2 []) ∧
      (¬ bad → refused → ∃ y : Blk, y.answers t.blk 5 [] ∧ (k.setFld (F.CS_BAY_STAT_CONFLICT bay) 1).tells y 49 (some (0x30, bay * 2 ^ 24 + n)) [] ∧
        (k.setFld (F.CS_BAY_STAT_CONFLICT bay) 1).alikeButRegs y) ∧
      (¬ bad → ¬ refused → ∃ y : Blk, y.answers t.blk 0 [] ∧ y.rd off = BitVec.ofNat 32 (en.toNat * 2 ^ 31 + 2 ^ 30 + mask.toNat * 2 ^ 16 + rom.toNat) ∧
        k.keepsRegs y [off] ∧ (∀ m, pget y.td.brk m = if m = 64 * bay + n then (if en then some () else none) else pget k.td.brk m) ∧
        { y.td with brk := k.td.brk } = k.td ∧ { y with td := k.td, regs := k.regs, matchOld := k.matchOld } = k))) ∧
    (∀ (ch : Nat) (cfg : XtCfg), Monitors (.monXtCfg dt ch cfg) s dt 0x0B 2 (fun u t =>
      t.mem = u.mem ∧ (7 < ch → u.blk.answers t.blk 2 []) ∧
      (ch ≤ 7 → ∃ y : Blk, y.answers t.blk 0 [] ∧ (∀ w, w < 8 → y.rd (F.TD_XT_ENG_off ch w) = cfg.eng.extractLsb' (32 * w) 32) ∧ y.rd (F.TD_XT_BAY_off ch) = cfg.bay ∧
        y.rd (F.TD_XT_CTL_off ch) = (u.blk.setFld (F.TD_XT_CTL_BLOCK ch) cfg.block.toNat).rd (F.TD_XT_CTL_off ch) ∧ y.rd (F.TD_XT_BRK_off ch) = cfg.brk ∧
        u.blk.onlyRegs y ((List.range 11).map fun i => 0x1400 + 0x40 * ch + 4 * i)))) ∧
    Monitors (.monEvents dt) s dt 0x0C 1 (fun u t => let l := u.blk.td.sage
      t.mem = u.mem ∧ Blk.answers { u.blk with td := { u.blk.td with sage := l.drop 14 } } t.blk 0 ((l.take 14).map (BitVec.ofNat 32))) ∧
    (∀ (bay arr ent : Nat) (vpp : Vpp) (fail : BitVec 7),
      (vpp = .beyond → exec (.monFuseProg dt bay arr ent vpp fail) s = .fault .beyondRatings) ∧
      (vpp ≠ .beyond → Monitors (.monFuseProg dt bay arr ent vpp fail) s dt 0x0D 3 (fun u t =>
        let k := u.blk
        let place := 7 * (20 * bay + 4 * arr + ent)
        let entry (lo w : Nat) : Fld := ⟨F.BM_REPAIR_off bay arr, 8 * ent + lo, w⟩
        let fused := (k.td.fuses.rep ||| k.burnt).getLsbD (place + 6) = true
        let bad := 31 < bay ∨ 4 < arr ∨ 3 < ent ∨ k.fld (entry 6 1) = 0 ∨ fused
        let closed := vpp ≠ .programming ∨ k.fld (F.EA_BAY_CTRL_EN bay) = 1
        let want (i : Nat) : Bool := i == 6 || (k.fld (entry 0 6)).testBit i
        t.mem = u.mem ∧ (bad → k.answers t.blk 2 []) ∧ (¬ bad → closed → k.answers t.blk 5 []) ∧
        (¬ bad → ¬ closed → ∃ w y : Blk, y.answers t.blk 0 [] ∧
          (∀ i, w.burnt.getLsbD i = (k.burnt.getLsbD i || (decide (place ≤ i ∧ i < place + 7) && want (i - place) && !fail.getLsbD (i - place)))) ∧
          { w with burnt := k.burnt } = k ∧
          w.tells y 5 (some (if (List.range 7).any (fun i => want i && fail.getLsbD i) then 0x32 else 0x31, bay * 2 ^ 24 + arr * 2 ^ 16 + ent)) [] ∧
          w.alikeButRegs y))))

/-- R503 to R508, R509: HALT, RELEASE and STEP of the monitor, the trigger of deferred halts, and the end of a cycle, in which the halts asked for and those
of the cross-trigger channels pulsed take effect, each domain once. -/
def Obligations.HaltsAndSteps : Prop :=
  ∀ (s : State) (dt : Nat) (d : Domain) (force : Bool),
    let on (u t : State) (y : Blk) (status : Nat) : Prop := t.mem = u.mem ∧ y.answers t.blk status []
    Monitors (.monHalt dt d force) s dt 0x05 2 (fun u t => let k := u.blk
      let asks := on u t { k with td := { k.td with asks := k.td.asks ++ [(d, force)] } } 0
      (∀ n, d = .engine n → (n < 256 → asks) ∧ (256 ≤ n → on u t k 2)) ∧ (∀ n, d = .bay n → (n < 32 → asks) ∧ (32 ≤ n → on u t k 2)) ∧
      (d = .block → asks) ∧ (d = .other → on u t k 2)) ∧
    Monitors (.monRelease dt d) s dt 0x06 2 (fun u t => let k := u.blk
      (∀ n, d = .engine n → (n < 256 → ∃ y ok, k.releasesEngine y n ok ∧ on u t y (if ok then 0 else 5)) ∧ (256 ≤ n → on u t k 2)) ∧
      (∀ n, d = .bay n → (n < 32 → ∃ y, k.releasesBay y n ∧ on u t y 0) ∧ (32 ≤ n → on u t k 2)) ∧
      (d = .block → ∃ y, k.releasesBlock y ∧ on u t y 0) ∧ (d = .other → on u t k 2)) ∧
    (∀ (e c : Nat) (uword : Bool), Monitors (.monStep dt e c uword) s dt 0x07 2 (fun u t =>
      let k := u.blk
      let j := 8 * e + c
      let x := k.ctx j
      let bad := 255 < e ∨ 7 < c
      -- a context that was READY or RUN, in an engine that nothing but its halt keeps from executing
      let may := k.fld F.TD_HSTATX_BLOCK = 0 ∧ x.st = .halt ∧ (x.under = .ready ∨ x.under = .run) ∧ k.fld (F.EA_BAY_CTRL_EN (e / 8)) = 1 ∧
        k.fld ⟨F.EA_SLOT_STAT_off (e / 8), 3 * k.slotOf e, 3⟩ = 0 ∧ k.rbit F.EV_BAYSTOP_off (e / 8) = false
      (bad → on u t k 2) ∧ (¬ bad → k.halted e = false → on u t k 3) ∧ (¬ bad → k.halted e = true → ¬ may → on u t k 5) ∧
      (¬ bad → k.halted e = true → may → t.mem = u.mem ∧ t.blk.td = { k.td with step := some (j, uword) } ∧ k.keepsRegs t.blk [] ∧
        (t.blk.ctx j).st = .run ∧ (t.blk.ctx j).waitFor = none ∧ (∀ i, i / 8 ≠ e → t.blk.ctx i = k.ctx i) ∧
        (∀ i, i / 8 = e → i ≠ j → (k.ctx i).st = .halt → (t.blk.ctx i).st = .halt) ∧
        (∀ n op r, pget k.cops n = some op → op.held = some r → op.ctx / 8 = e → pget t.blk.cops n = none) ∧
        ((∀ x, x ∈ k.cops → x.2.held = none) → (∀ i, i ≠ j → t.blk.ctx i = k.ctx i) ∧
          { t.blk.ctx j with st := x.st, waitFor := x.waitFor, wd := x.wd } = x ∧ t.blk.cops = k.cops) ∧
        { t.blk with ctxs := k.ctxs, engs := k.engs, engWd := k.engWd, idle := k.idle, idleAt := k.idleAt, cops := k.cops, td := k.td } = k))) ∧
    -- deferred halts
    TdHappens (.deferredHaltTrigger dt) s dt (fun u t => t.mem = u.mem ∧ ∃ y : Blk,
      eachStep (fun e x z => let held := (∃ j, j / 8 = e ∧ (x.ctx j).lock = true) ∨ ∃ j, j ∈ x.dawn.locks ∧ j / 8 = e
        (held → z = x) ∧ (¬ held → x.rbit F.TD_HSTATB_off (e / 8) = true → x.stopsEngine z e false) ∧
        (¬ held → x.rbit F.TD_HSTATB_off (e / 8) = false → ∃ w, x.stopsEngine w e false ∧
          (w.setFld ⟨F.TD_HSTAT_off (e / 32), e % 32, 1⟩ 1).tellsHalt z 0x10)) (u.blk.td.defer.map Prod.fst) u.blk y ∧
      (y.td.deferBlk = true → y.dawn.locks = [] → (∀ x, x ∈ y.ctxs → x.2.lock = false) → y.haltsBlock t.blk true) ∧
      ((y.td.deferBlk = false ∨ y.dawn.locks ≠ [] ∨ ∃ x, x ∈ y.ctxs ∧ x.2.lock = true) → t.blk = y)) ∧
    -- the matrix
    (∀ u : Blk,
      let m := u.atDawn
      let hit (d : Domain) (mask : Nat → Prop) : Prop := (∃ f, (d, f) ∈ u.td.asks) ∨ ∃ c, c ∈ u.td.pulses ∧ mask c
      let force (d : Domain) (b : Bool) : Prop := b = true ↔ (d, true) ∈ u.td.asks
      let engine (e : Nat) : Prop := hit (.engine e) fun c => m.rbit (F.TD_XT_ENG_off c (e / 32)) (e % 32) = true
      let bay (b : Nat) : Prop := hit (.bay b) fun c => m.rbit (F.TD_XT_BAY_off c) b = true
      let all := hit .block fun c => m.fld (F.TD_XT_CTL_BLOCK c) = 1
      (u.td.asks = [] → u.td.pulses = [] → u.haltsDue = u) ∧
      (u.td.asks ≠ [] ∨ u.td.pulses ≠ [] → ∃ x y z : Blk,
        eachStep (fun e v w => (engine e → ∃ f, force (.engine e) f ∧ v.haltsEngine w e f) ∧ (¬ engine e → w = v)) (List.range 256) u x ∧
        eachStep (fun b v w => (bay b → ∃ f, force (.bay b) f ∧ v.haltsBay w b f) ∧ (¬ bay b → w = v)) (List.range 32) x y ∧
        (all → ∃ f, force .block f ∧ y.haltsBlock z f) ∧ (¬ all → z = y) ∧
        u.haltsDue = { z with td := { z.td with asks := [], pulses := [] } }))

/-- R470, R560, R561: the boot program of a bay, its descriptor and the copy of the image; the common command codes of the management port. -/
def Obligations.BootAndManagement : Prop :=
  ∀ (s : State) (dt : Nat) (bay : Bay) (a : BitVec 7) (d : BitVec 7) (code : Byte),
    let k := (s.pass dt).blk
    let b := bay.val
    let e := 8 * b + k.fld (F.EA_BAY_CTRL_SUPV b)
    let j := 8 * e
    let runs := k.executes e = true ∧ ((k.ctx j).st = .run ∨ (k.ctx j).st = .ready) ∧ ∀ r, pget k.boots b = some r → r.ended = false
    let sets (u t : Blk) (r : BootRun) : Prop := (∀ i, pget t.boots i = if i = b then some r else pget u.boots i) ∧ { t with boots := u.boots } = u
    -- the program raises its event and ends its context
    let fails (u t : Blk) (r : BootRun) : Prop := ∃ y z : Blk, sets u y { r with busy := false, ended := true } ∧
      y.tells z (58 + 4 * b) (some (0x0F, y.slotOf e * 2 ^ 24 + e)) [] ∧ y.alikeButRegs z ∧
      (t.ctx j).st = .idle ∧ (t.ctx j).waitFor = none ∧ (∀ i, (t.ctx i).alike (z.ctx i)) ∧ (∀ i, i / 8 ≠ e → t.ctx i = z.ctx i) ∧
      { t with ctxs := z.ctxs, engs := z.engs, engWd := z.engWd, idle := z.idle, idleAt := z.idleAt } = z
    (let due := (∀ r, pget k.boots b = some r → r.busy = false ∧ r.at_ + 1024 ≤ k.now)
     let w (i : Nat) : Nat := (k.rd (F.BLK_SCRATCH_off i)).toNat
     let lines := w 1 / 2 ^ 16
     let cb := w 3 / 2 ^ 16 % 2 ^ 8
     let r : BootRun := ⟨k.now, lines, BitVec.ofNat 32 (w 2), BitVec.ofNat 8 cb, BitVec.ofNat 16 (w 3), false, false⟩
     let magic := w 3 / 2 ^ 24 = 0xB0
     let far := lines = 0 ∨ 14336 < lines ∨ 6 < cb
     (¬ (runs ∧ due) → Happens (.bootDescriptorPoll dt bay) s dt fun u t => t = u) ∧
     (runs → due → ¬ magic → Happens (.bootDescriptorPoll dt bay) s dt fun u t => u.keepsMem t ∧ sets k t.blk r) ∧
     (runs → due → magic → far → Happens (.bootDescriptorPoll dt bay) s dt fun u t => u.keepsMem t ∧ fails k t.blk r) ∧
     (runs → due → magic → ¬ far → Settles (.bootDescriptorPoll dt bay) s dt fun u z => ∃ y, sets u y { r with busy := true } ∧
       eachStep (fun i x y =>
         let at_ : PAddr := BitVec.ofNat 48 ((w 1 % 2 ^ 16) * 2 ^ 32 + w 0 / 64 * 64 + 64 * i)
         let ok := k.segOk (segOf at_) = true
         (ok → ∃ j : Job, x.addsJob y j (.boot b i) .rd at_ (some 2)) ∧ (¬ ok → y = { x with got := x.got ++ [(.boot b i, .bad 0x01)] }))
         (List.range lines) y z)) ∧
    -- the end of the copy
    (∀ r, pget k.boots b = some r →
      let asked := r.busy = true ∧ runs ∧ k.moverRuns b = true
      let done (l : List JobOut) : Prop := r.lines ≤ 14336 ∧ l.length = r.lines ∧ ∀ i, i < r.lines → k.gotOf (.boot b i) = l[i]?
      (¬ asked → Happens (.bootImageCopyComplete dt bay) s dt fun u t => t = u) ∧
      (asked → (∃ i, i < r.lines ∧ k.gotOf (.boot b i) = none) → Happens (.bootImageCopyComplete dt bay) s dt fun u t => t = u) ∧
      (∀ l, asked → done l → Happens (.bootImageCopyComplete dt bay) s dt fun u t => ∃ y : State,
        u.linesPut y b 0 (l.map fun o => (goodLine o).getD 0) ∧
        (∀ i, y.blk.gotOf (.boot b i) = none) ∧ (∀ o, (∀ i, o ≠ .boot b i) → y.blk.gotOf o = u.blk.gotOf o) ∧
        (∀ i, pget y.blk.bmErr i = if i / 2 ^ 19 = b ∧ i % 2 ^ 19 < 32 * l.length then none else pget u.blk.bmErr i) ∧
        (∀ i, { y.blk.ctx i with resv := (u.blk.ctx i).resv } = u.blk.ctx i) ∧
        { y.blk with got := u.blk.got, bmErr := u.blk.bmErr, ctxs := u.blk.ctxs, ports := u.blk.ports } = u.blk ∧ t.mem = y.mem ∧
        let image := l.flatMap fun o => bytesLE 64 ((goodLine o).getD 0)
        let good := (∀ o, o ∈ l → goodLine o ≠ none) ∧ crc32c image = r.sum
        (good → ∃ z, sets y.blk z { r with busy := false, ended := true } ∧ (∀ i, i ≠ j → t.blk.ctx i = z.ctx i) ∧
          { t.blk.ctx j with wd := (z.ctx j).wd } = { z.ctx j with cb := r.cb, pc := r.pc } ∧
          { t.blk with ctxs := z.ctxs, engWd := z.engWd, idle := z.idle, idleAt := z.idleAt } = z) ∧
        (¬ good → fails y.blk t.blk r))) ∧
    (pget k.boots b = none → Happens (.bootImageCopyComplete dt bay) s dt fun u t => t = u) ∧
    -- common command codes
    (let p := k.i3c
     let port (c : I3cCcc) (q : I3cPort) : Prop := TdHappens (.ccc dt c) s dt fun u t => t.mem = u.mem ∧ t.blk = { k with i3c := q }
     let mine : BitVec 7 := if k.fld F.TW_STAT_SIDE = 1 then 0x3D else 0x3C
     let tells (c : I3cCcc) (v : BitVec 64) : Prop := port c { p with tx := p.tx ++ [if p.dyn = some a then some v else none] }
     port (.entdaa d) { p with dyn := if p.dyn = none then some d else p.dyn } ∧
     port (.setdasa a d) { p with dyn := if p.dyn = none ∧ a = mine then some d else p.dyn } ∧ port .rstdaa { p with dyn := none } ∧
     tells (.getpid a) (Config.i3cPid.setWidth 64) ∧ tells (.getbcr a) (Config.i3cBcr.setWidth 64) ∧ tells (.getdcr a) (Config.i3cDcr.setWidth 64) ∧
     tells (.getstatus a) ((Config.i3cStatus p.tx.length).setWidth 64) ∧ tells (.getmwl a) (Config.i3cMwl.setWidth 64) ∧
     tells (.getmrl a) (Config.i3cMrl.setWidth 64) ∧ port (.other code) { p with tx := p.tx ++ [none] })

/-- The queue (the block's form): a step takes the command at the front and runs it with the rest of the queue; an idle block lets one cycle pass
(DESIGN CHOICE, log 2). -/
def Obligations.StepRunsTheFront : Prop :=
  (∀ (c : Instr) (s : State) (rest : List Instr), step { s with pending := c :: rest } = exec c { s with pending := rest }) ∧
  ∀ s : State, s.pending = [] → step s = .next (s.pass 1) ∧ (s.blk.xfer = [] → step s = .next { s with blk := s.blk.pass 1 })

/-- No command changes the queue, and none but a FUSE_PROG with VPP_FUSE beyond its ratings (R543) stops the block. -/
def Obligations.CommandsComplete : Prop :=
  ∀ (i : Instr) (s : State), (Answers (exec i s) fun t => t.pending = s.pending) ∨
    (exec i s = .fault .beyondRatings ∧ ∃ dt bay arr ent fail, i = .monFuseProg dt bay arr ent .beyond fail)

/-- R421: bay memory keeps its one form with every step. -/
def Obligations.MemoryStaysCanonical : Prop :=
  ∀ s t : State, Memory.wf s.mem = true → step s = .next t → Memory.wf t.mem = true

/-- R13: registers after reset, and the block's idle units. -/
def Obligations.ResetState : Prop :=
  let b := State.reset.blk
  Memory.wf State.reset.mem = true ∧ State.reset.pending = [] ∧ b.live = true ∧
  (∀ off, b.rd off = regReset off) ∧
  b.rd F.SB_PWR_VLIM_off = 0x1D4C0E10 ∧ b.rd F.SB_PWR_VHYST_off = 0x64 ∧ b.rd F.SB_SLOT_ELIM_off = 10000 ∧
  (∀ n, n < 32 → b.fld (F.SB_PE_DIV_INT n) = 1 ∧ b.fld (F.SB_PE_PINS_PWID n) = 1 ∧ b.fld (F.SB_PE_CTRL_EN n) = 0) ∧
  (∀ k, (b.ctx k).st = .idle ∧ (b.ctx k).sw.getLsbD 15 = false) ∧ (∀ p i, (b.ent p i).st = .free) ∧ b.jobs = [] ∧ b.twState = 0

/-- The reset, the lock of the PLL and the test port. -/
def Obligations.ResetAndTestPort : Prop := Sys2Proof.Claims.ResetAndLock ∧ Sys2Proof.Claims.TestPort

/-- What comes to the tracker. -/
def Obligations.TimebaseEvents : Prop := Sys2Proof.Claims.TimebaseEdges ∧ Sys2Proof.Claims.HoldoverAndCompareHits ∧ Sys2Proof.Claims.IndexEdges

/-- The registers of the tracker and of its compare channels. -/
def Obligations.TimebaseRegisters : Prop := Sys2Proof.Claims.TimebaseControl ∧ Sys2Proof.Claims.CompareRegisters

/-- The slot and the frame boundary. -/
def Obligations.FrameBoundaries : Prop := Sys2Proof.Claims.Boundaries ∧ Sys2Proof.Claims.RetirementAtBoundary

/-- The schedule tables, their switch and the budgets. -/
def Obligations.ScheduleTables : Prop := Sys2Proof.Claims.TableSwitching ∧ Sys2Proof.Claims.FrameTables

/-- The ledgers of the Host Ports. -/
def Obligations.Ledgers : Prop := Sys2Proof.Claims.LedgerProgress ∧ Sys2Proof.Claims.LedgerEntryBits ∧ Sys2Proof.Claims.LedgerEnds

/-- The segment table and the placement of lines. -/
def Obligations.Segments : Prop := Sys2Proof.Claims.SegmentTable ∧ Sys2Proof.Claims.LinePlacement

/-- The codec's outcomes and the channel controllers' events. -/
def Obligations.CodecAndMedia : Prop := Sys2Proof.Claims.CodecOutcomes ∧ Sys2Proof.Claims.MediaEvents

/-- The channel queues and their issue windows. -/
def Obligations.ChannelQueues : Prop := Sys2Proof.Claims.IssueWindows ∧ Sys2Proof.Claims.ChannelQueue

/-- What a Sieve unit makes of its lines. -/
def Obligations.SieveUnits : Prop := Sys2Proof.Claims.SieveLines ∧ Sys2Proof.Claims.SievePredicates ∧ Sys2Proof.Claims.SieveSelection

/-- The compressed tier, its neighbours and the fabric. -/
def Obligations.Tiers : Prop := Sys2Proof.Claims.TierOperations ∧ Sys2Proof.Claims.TierAnswers ∧ Sys2Proof.Claims.NeighbourAnswers

/-- The messages of the twin link, and mirrored writes. -/
def Obligations.TwinLink : Prop := Sys2Proof.Claims.TwinMessages ∧ Sys2Proof.Claims.MirroredWrites

/-- The coprocessor port: dispatch and results. -/
def Obligations.Coprocessors : Prop := Sys2Proof.Claims.CoprocessorDispatch ∧ Sys2Proof.Claims.CoprocessorResults

/-- The floating-point unit: the tables of its operations and the rounding. -/
def Obligations.FloatingPoint : Prop := Sys2Proof.Claims.FloatingPointTables ∧ Sys2Proof.Claims.FloatingPointRounding

/-- The data mover: copies and completion. -/
def Obligations.DataMover : Prop := Sys2Proof.Claims.DataMoverCopies ∧ Sys2Proof.Claims.DataMoverCompletes

/-- The control window: refused writes and plain accesses. -/
def Obligations.WindowAccess : Prop := Sys2Proof.Claims.RefusedWrites ∧ Sys2Proof.Claims.RegisterAccess
end

