-- ==== Sys2Proof/Laws/Tab.lean ====
section
/-! SUPPORT. The laws of the sparse tables: a read after a write, and that every operation keeps the canonical form. -/

namespace Sys2Proof.Machine

@[simp] theorem pget_pset_same {α : Type} (m : List (Nat × α)) (k : Nat) (v : α) : pget (pset m k v) k = some v := by
  induction m with
  | nil => simp [pset, pget]
  | cons p r ih =>
    obtain ⟨j, w⟩ := p
    unfold pset
    split
    · simp [pget]
    · split
      · simp [pget]
      · rename_i h1 h2
        simp [pget, ih, Ne.symm h2]

theorem pget_pset_ne {α : Type} (m : List (Nat × α)) {k i : Nat} (v : α) (h : i ≠ k) :
    pget (pset m k v) i = pget m i := by
  induction m with
  | nil => simp [pset, pget, Ne.symm h]
  | cons p r ih =>
    obtain ⟨j, w⟩ := p
    unfold pset
    split
    · simp [pget, Ne.symm h]
    · split
      · rename_i h1 h2; subst h2; simp [pget, Ne.symm h]
      · simp [pget, ih]

@[simp] theorem pget_pdel_same {α : Type} (m : List (Nat × α)) (k : Nat) : pget (pdel m k) k = none := by
  induction m with
  | nil => rfl
  | cons p r ih =>
    obtain ⟨j, w⟩ := p
    unfold pdel
    split
    · exact ih
    · rename_i h; simp [pget, ih, Ne.symm h]

theorem pget_pdel_ne {α : Type} (m : List (Nat × α)) {k i : Nat} (h : i ≠ k) : pget (pdel m k) i = pget m i := by
  induction m with
  | nil => rfl
  | cons p r ih =>
    obtain ⟨j, w⟩ := p
    unfold pdel
    split
    · rename_i h2; subst h2; simp [pget, ih, Ne.symm h]
    · simp [pget, ih]

@[simp] theorem tget_tset_same {α : Type} [DecidableEq α] (d : Nat → α) (m : List (Nat × α)) (k : Nat) (v : α) :
    tget d (tset d m k v) k = v := by
  unfold tget tset
  split
  · rename_i h; simp [h]
  · simp

theorem tget_tset_ne {α : Type} [DecidableEq α] (d : Nat → α) (m : List (Nat × α)) {k i : Nat} (v : α) (h : i ≠ k) :
    tget d (tset d m k v) i = tget d m i := by
  unfold tget tset
  split
  · rw [pget_pdel_ne m h]
  · rw [pget_pset_ne m v h]

theorem rising_mono {α : Type} {m : List (Nat × α)} {a b : Nat} (h : rising b m = true) (hab : a ≤ b) :
    rising a m = true := by
  cases m with
  | nil => rfl
  | cons p r =>
    simp only [rising, Bool.and_eq_true, decide_eq_true_eq] at *
    exact ⟨by omega, h.2⟩

theorem rising_pset {α : Type} {m : List (Nat × α)} {lo k : Nat} {v : α} (h : rising lo m = true) (hk : lo ≤ k) :
    rising lo (pset m k v) = true := by
  induction m generalizing lo with
  | nil => simp [pset, rising, hk]
  | cons p r ih =>
    obtain ⟨j, w⟩ := p
    simp only [rising, Bool.and_eq_true, decide_eq_true_eq] at h
    unfold pset
    split
    · simp only [rising, Bool.and_eq_true, decide_eq_true_eq]
      exact ⟨hk, by omega, h.2⟩
    · split
      · rename_i h1 h2; subst h2
        simp only [rising, Bool.and_eq_true, decide_eq_true_eq]; exact h
      · simp only [rising, Bool.and_eq_true, decide_eq_true_eq]
        exact ⟨h.1, ih h.2 (by omega)⟩

theorem rising_pdel {α : Type} {m : List (Nat × α)} {lo k : Nat} (h : rising lo m = true) :
    rising lo (pdel m k) = true := by
  induction m generalizing lo with
  | nil => rfl
  | cons p r ih =>
    obtain ⟨j, w⟩ := p
    simp only [rising, Bool.and_eq_true, decide_eq_true_eq] at h
    unfold pdel
    split
    · exact ih (rising_mono h.2 (by omega))
    · simp only [rising, Bool.and_eq_true, decide_eq_true_eq]
      exact ⟨h.1, ih h.2⟩

theorem pwf_pset {α : Type} {m : List (Nat × α)} (k : Nat) (v : α) (h : pwf m = true) : pwf (pset m k v) = true :=
  rising_pset h (Nat.zero_le k)

theorem pwf_pdel {α : Type} {m : List (Nat × α)} (k : Nat) (h : pwf m = true) : pwf (pdel m k) = true :=
  rising_pdel h

theorem all_pset {α : Type} {f : Nat × α → Bool} {m : List (Nat × α)} {k : Nat} {v : α} (h : m.all f = true)
    (hv : f (k, v) = true) : (pset m k v).all f = true := by
  induction m with
  | nil => simp [pset, hv]
  | cons p r ih =>
    obtain ⟨j, w⟩ := p
    simp only [List.all_cons, Bool.and_eq_true] at h
    unfold pset
    split
    · simp [hv, h.1, h.2]
    · split
      · simp [hv, h.2]
      · simp [h.1, ih h.2]

theorem all_pdel {α : Type} {f : Nat × α → Bool} {m : List (Nat × α)} {k : Nat} (h : m.all f = true) :
    (pdel m k).all f = true := by
  induction m with
  | nil => rfl
  | cons p r ih =>
    obtain ⟨j, w⟩ := p
    simp only [List.all_cons, Bool.and_eq_true] at h
    unfold pdel
    split
    · exact ih h.2
    · simp [h.1, ih h.2]

theorem twf_tset {α : Type} [DecidableEq α] (d : Nat → α) {m : List (Nat × α)} (k : Nat) (v : α)
    (h : twf d m = true) : twf d (tset d m k v) = true := by
  simp only [twf, Bool.and_eq_true] at *
  unfold tset
  split
  · exact ⟨rising_pdel h.1, all_pdel h.2⟩
  · rename_i hv
    exact ⟨rising_pset h.1 (Nat.zero_le k), all_pset h.2 (by simpa using hv)⟩

end Sys2Proof.Machine
end

