-- ==== Sys2Proof/Laws/Reg.lean ====
section
/-! SUPPORT. The laws of the control window's registers and fields: a read after a write, of the same and of another register or field. -/

namespace Sys2Proof.Machine

theorem lowMask_getLsbD (w i : Nat) : (lowMask w).getLsbD i = (decide (i < 32) && decide (i < w)) := by
  simp [lowMask, BitVec.getLsbD_ofNat, Nat.testBit_two_pow_sub_one]

theorem Fld.get_put {f : Fld} (v : Word) {n : Nat} (hw : f.lo + f.w ≤ 32) (hn : n < 2 ^ f.w) : f.get (f.put v n) = n := by
  have h : ((f.put v n) >>> f.lo) &&& lowMask f.w = BitVec.ofNat 32 n := by
    apply BitVec.eq_of_getLsbD_eq
    intro i hi
    simp only [Fld.put, BitVec.getLsbD_and, BitVec.getLsbD_ushiftRight, BitVec.getLsbD_or, BitVec.getLsbD_not, BitVec.getLsbD_shiftLeft,
      lowMask_getLsbD, BitVec.getLsbD_ofNat]
    by_cases h1 : i < f.w
    · have h2 : f.lo + i < 32 := by omega
      have h3 : ¬ f.lo + i < f.lo := by omega
      simp [h1, h2, h3, hi]
    · have : n.testBit i = false :=
        Nat.testBit_lt_two_pow (Nat.lt_of_lt_of_le hn (Nat.pow_le_pow_right (by decide) (by omega)))
      simp [h1, this]
  unfold Fld.get
  rw [h, BitVec.toNat_ofNat, Nat.mod_eq_of_lt]
  exact Nat.lt_of_lt_of_le hn (Nat.pow_le_pow_right (by decide) (by omega))

theorem Fld.get_put_ne {f g : Fld} (v : Word) (n : Nat) (hd : g.lo + g.w ≤ f.lo ∨ f.lo + f.w ≤ g.lo) : g.get (f.put v n) = g.get v := by
  have h : ((f.put v n) >>> g.lo) &&& lowMask g.w = (v >>> g.lo) &&& lowMask g.w := by
    apply BitVec.eq_of_getLsbD_eq
    intro i hi
    simp only [Fld.put, BitVec.getLsbD_and, BitVec.getLsbD_ushiftRight, BitVec.getLsbD_or, BitVec.getLsbD_not, BitVec.getLsbD_shiftLeft,
      lowMask_getLsbD, BitVec.getLsbD_ofNat]
    by_cases h1 : i < g.w
    · by_cases h2 : g.lo + i < 32
      · rcases hd with hd | hd
        · have h3 : g.lo + i < f.lo := by omega
          simp [h1, h2, h3, hi]
        · have h3 : ¬ g.lo + i < f.lo := by omega
          have h4 : ¬ g.lo + i - f.lo < f.w := by omega
          simp [h1, h2, h3, h4, hi]
      · simp [BitVec.getLsbD_of_ge _ _ (Nat.not_lt.mp h2), h2]
    · simp [h1]
  unfold Fld.get
  rw [h]

@[simp] theorem Blk.rd_wr (s : Blk) (off : Nat) (v : Word) : (s.wr off v).rd off = v := by simp [Blk.rd, Blk.wr]
theorem Blk.rd_wr_ne (s : Blk) {off o : Nat} (v : Word) (h : o ≠ off) : (s.wr off v).rd o = s.rd o := by
  simp [Blk.rd, Blk.wr, tget_tset_ne _ _ _ h]
@[simp] theorem Blk.rd_setFld (s : Blk) (f : Fld) (n : Nat) : (s.setFld f n).rd f.off = f.put (s.rd f.off) n := by simp [Blk.setFld]
theorem Blk.rd_setFld_ne (s : Blk) {f : Fld} {o : Nat} (n : Nat) (h : o ≠ f.off) : (s.setFld f n).rd o = s.rd o := by
  simp [Blk.setFld, Blk.rd_wr_ne _ _ h]
theorem Blk.fld_setFld (s : Blk) {f : Fld} {n : Nat} (hw : f.lo + f.w ≤ 32) (hn : n < 2 ^ f.w) : (s.setFld f n).fld f = n := by
  simp [Blk.fld, Fld.get_put _ hw hn]
theorem Blk.fld_setFld_ne (s : Blk) {f g : Fld} (n : Nat) (h : g.off ≠ f.off ∨ g.lo + g.w ≤ f.lo ∨ f.lo + f.w ≤ g.lo) :
    (s.setFld f n).fld g = s.fld g := by
  by_cases ho : g.off = f.off
  · rw [Blk.fld, ho, Blk.rd_setFld, Fld.get_put_ne _ _ (by omega), ← ho]; rfl
  · simp [Blk.fld, Blk.rd_setFld_ne _ _ ho]
theorem Blk.fld_wr (s : Blk) (f : Fld) (v : Word) : (s.wr f.off v).fld f = f.get v := by simp [Blk.fld]
theorem Blk.fld_wr_ne (s : Blk) {f : Fld} {off : Nat} (v : Word) (h : f.off ≠ off) : (s.wr off v).fld f = s.fld f := by
  simp [Blk.fld, Blk.rd_wr_ne _ _ h]

/-- Every change of a field is `setFld`. -/
@[simp] theorem Blk.set1_eq (s : Blk) (f : Fld) : s.set1 f = s.setFld f 1 := rfl
@[simp] theorem Blk.clr1_eq (s : Blk) (f : Fld) : s.clr1 f = s.setFld f 0 := rfl
@[simp] theorem Blk.setBit_eq (s : Blk) (f : Fld) (b : Bool) : s.setBit f b = s.setFld f b.toNat := rfl
@[simp] theorem Blk.setRbit_eq (s : Blk) (off i : Nat) (b : Bool) : s.setRbit off i b = s.setFld ⟨off, i, 1⟩ b.toNat := rfl
theorem Blk.bit_eq (s : Blk) (f : Fld) : s.bit f = (s.fld f != 0) := rfl

/-- A register or field change changes the register file alone. -/
theorem Blk.wr_eq (s : Blk) (off : Nat) (v : Word) : s.wr off v = { s with regs := (s.wr off v).regs } := rfl
theorem Blk.setFld_eq (s : Blk) (f : Fld) (n : Nat) : s.setFld f n = { s with regs := (s.setFld f n).regs } := rfl

/-! ### Updates by hardware (R10, R11) -/

@[simp] theorem Blk.rd_hwPut (s : Blk) (off : Nat) (v z : Word) : (s.hwPut off v z).rd off = v := s.rd_wr off v
theorem Blk.rd_hwPut_ne (s : Blk) {off o : Nat} (v z : Word) (h : o ≠ off) : (s.hwPut off v z).rd o = s.rd o := s.rd_wr_ne v h
/-- An update by hardware changes the register file and the record of the cycle alone. -/
theorem Blk.hwPut_eq (s : Blk) (off : Nat) (v z : Word) :
    s.hwPut off v z = { s with regs := (s.wr off v).regs, fresh := (s.hwPut off v z).fresh } := rfl
theorem Blk.rd_hw (s : Blk) (f : Fld) (g : Nat → Nat) : (s.hw f g).rd f.off = f.put (s.rd f.off) (g (s.fld f)) := s.rd_wr f.off _
theorem Blk.rd_hw_ne (s : Blk) {f : Fld} (g : Nat → Nat) {o : Nat} (h : o ≠ f.off) : (s.hw f g).rd o = s.rd o := s.rd_wr_ne _ h
theorem Blk.fld_hw (s : Blk) {f : Fld} {g : Nat → Nat} (hw : f.lo + f.w ≤ 32) (hn : g (s.fld f) < 2 ^ f.w) : (s.hw f g).fld f = g (s.fld f) := by
  rw [Blk.fld, Blk.rd_hw, Fld.get_put _ hw hn]
theorem Blk.fld_hwSet (s : Blk) {f : Fld} (hw : f.lo + f.w ≤ 32) (h1 : 0 < f.w) : (s.hwSet f).fld f = 1 :=
  s.fld_hw (g := fun _ => 1) hw (Nat.one_lt_two_pow (by omega))
theorem Blk.fld_bump (s : Blk) {f : Fld} (k : Nat) (hw : f.lo + f.w ≤ 32) : (s.bump f k).fld f = min (s.fld f + k) (2 ^ f.w - 1) :=
  s.fld_hw (g := fun n => min (n + k) (2 ^ f.w - 1)) hw (by have := Nat.two_pow_pos f.w; omega)

end Sys2Proof.Machine
end

