-- ==== Sys2Proof/Laws/State.lean ====
section
/-! SUPPORT. One lemma for each field of the block and each update of its registers: none but the register file changes, and, for an update by
hardware, the record of the cycle; and for each field of a context and each update of one part of it. -/

namespace Sys2Proof.Machine

@[simp] theorem Blk.wr_now (s : Blk) (off : Nat) (v : Word) : (s.wr off v).now = s.now := rfl
@[simp] theorem Blk.wr_phase (s : Blk) (off : Nat) (v : Word) : (s.wr off v).phase = s.phase := rfl
@[simp] theorem Blk.wr_pll (s : Blk) (off : Nat) (v : Word) : (s.wr off v).pll = s.pll := rfl
@[simp] theorem Blk.wr_lockLost (s : Blk) (off : Nat) (v : Word) : (s.wr off v).lockLost = s.lockLost := rfl
@[simp] theorem Blk.wr_cyc (s : Blk) (off : Nat) (v : Word) : (s.wr off v).cyc = s.cyc := rfl
@[simp] theorem Blk.wr_fresh (s : Blk) (off : Nat) (v : Word) : (s.wr off v).fresh = s.fresh := rfl
@[simp] theorem Blk.wr_dawn (s : Blk) (off : Nat) (v : Word) : (s.wr off v).dawn = s.dawn := rfl
@[simp] theorem Blk.wr_caps (s : Blk) (off : Nat) (v : Word) : (s.wr off v).caps = s.caps := rfl
@[simp] theorem Blk.wr_winRsp (s : Blk) (off : Nat) (v : Word) : (s.wr off v).winRsp = s.winRsp := rfl
@[simp] theorem Blk.wr_dusk (s : Blk) (off : Nat) (v : Word) : (s.wr off v).dusk = s.dusk := rfl
@[simp] theorem Blk.wr_lost (s : Blk) (off : Nat) (v : Word) : (s.wr off v).lost = s.lost := rfl
@[simp] theorem Blk.wr_tb (s : Blk) (off : Nat) (v : Word) : (s.wr off v).tb = s.tb := rfl
@[simp] theorem Blk.wr_sched (s : Blk) (off : Nat) (v : Word) : (s.wr off v).sched = s.sched := rfl
@[simp] theorem Blk.wr_ev (s : Blk) (off : Nat) (v : Word) : (s.wr off v).ev = s.ev := rfl
@[simp] theorem Blk.wr_blkWd (s : Blk) (off : Nat) (v : Word) : (s.wr off v).blkWd = s.blkWd := rfl
@[simp] theorem Blk.wr_bayWd (s : Blk) (off : Nat) (v : Word) : (s.wr off v).bayWd = s.bayWd := rfl
@[simp] theorem Blk.wr_engWd (s : Blk) (off : Nat) (v : Word) : (s.wr off v).engWd = s.engWd := rfl
@[simp] theorem Blk.wr_peTrig (s : Blk) (off : Nat) (v : Word) : (s.wr off v).peTrig = s.peTrig := rfl
@[simp] theorem Blk.wr_idle (s : Blk) (off : Nat) (v : Word) : (s.wr off v).idle = s.idle := rfl
@[simp] theorem Blk.wr_latch (s : Blk) (off : Nat) (v : Word) : (s.wr off v).latch = s.latch := rfl
@[simp] theorem Blk.wr_idleAt (s : Blk) (off : Nat) (v : Word) : (s.wr off v).idleAt = s.idleAt := rfl
@[simp] theorem Blk.wr_relAt (s : Blk) (off : Nat) (v : Word) : (s.wr off v).relAt = s.relAt := rfl
@[simp] theorem Blk.wr_led (s : Blk) (off : Nat) (v : Word) : (s.wr off v).led = s.led := rfl
@[simp] theorem Blk.wr_seqNo (s : Blk) (off : Nat) (v : Word) : (s.wr off v).seqNo = s.seqNo := rfl
@[simp] theorem Blk.wr_s2m (s : Blk) (off : Nat) (v : Word) : (s.wr off v).s2m = s.s2m := rfl
@[simp] theorem Blk.wr_qCnt (s : Blk) (off : Nat) (v : Word) : (s.wr off v).qCnt = s.qCnt := rfl
@[simp] theorem Blk.wr_segBad (s : Blk) (off : Nat) (v : Word) : (s.wr off v).segBad = s.segBad := rfl
@[simp] theorem Blk.wr_bells (s : Blk) (off : Nat) (v : Word) : (s.wr off v).bells = s.bells := rfl
@[simp] theorem Blk.wr_cmdQ (s : Blk) (off : Nat) (v : Word) : (s.wr off v).cmdQ = s.cmdQ := rfl
@[simp] theorem Blk.wr_jobs (s : Blk) (off : Nat) (v : Word) : (s.wr off v).jobs = s.jobs := rfl
@[simp] theorem Blk.wr_jobNo (s : Blk) (off : Nat) (v : Word) : (s.wr off v).jobNo = s.jobNo := rfl
@[simp] theorem Blk.wr_mu (s : Blk) (off : Nat) (v : Word) : (s.wr off v).mu = s.mu := rfl
@[simp] theorem Blk.wr_cmdNo (s : Blk) (off : Nat) (v : Word) : (s.wr off v).cmdNo = s.cmdNo := rfl
@[simp] theorem Blk.wr_ans (s : Blk) (off : Nat) (v : Word) : (s.wr off v).ans = s.ans := rfl
@[simp] theorem Blk.wr_fin (s : Blk) (off : Nat) (v : Word) : (s.wr off v).fin = s.fin := rfl
@[simp] theorem Blk.wr_crypt (s : Blk) (off : Nat) (v : Word) : (s.wr off v).crypt = s.crypt := rfl
@[simp] theorem Blk.wr_fabTx (s : Blk) (off : Nat) (v : Word) : (s.wr off v).fabTx = s.fabTx := rfl
@[simp] theorem Blk.wr_meter (s : Blk) (off : Nat) (v : Word) : (s.wr off v).meter = s.meter := rfl
@[simp] theorem Blk.wr_tw (s : Blk) (off : Nat) (v : Word) : (s.wr off v).tw = s.tw := rfl
@[simp] theorem Blk.wr_got (s : Blk) (off : Nat) (v : Word) : (s.wr off v).got = s.got := rfl
@[simp] theorem Blk.wr_tgot (s : Blk) (off : Nat) (v : Word) : (s.wr off v).tgot = s.tgot := rfl
@[simp] theorem Blk.wr_ctxs (s : Blk) (off : Nat) (v : Word) : (s.wr off v).ctxs = s.ctxs := rfl
@[simp] theorem Blk.wr_engs (s : Blk) (off : Nat) (v : Word) : (s.wr off v).engs = s.engs := rfl
@[simp] theorem Blk.wr_moves (s : Blk) (off : Nat) (v : Word) : (s.wr off v).moves = s.moves := rfl
@[simp] theorem Blk.wr_moveQ (s : Blk) (off : Nat) (v : Word) : (s.wr off v).moveQ = s.moveQ := rfl
@[simp] theorem Blk.wr_regCe (s : Blk) (off : Nat) (v : Word) : (s.wr off v).regCe = s.regCe := rfl
@[simp] theorem Blk.wr_opNo (s : Blk) (off : Nat) (v : Word) : (s.wr off v).opNo = s.opNo := rfl
@[simp] theorem Blk.wr_cops (s : Blk) (off : Nat) (v : Word) : (s.wr off v).cops = s.cops := rfl
@[simp] theorem Blk.wr_fu (s : Blk) (off : Nat) (v : Word) : (s.wr off v).fu = s.fu := rfl
@[simp] theorem Blk.wr_pools (s : Blk) (off : Nat) (v : Word) : (s.wr off v).pools = s.pools := rfl
@[simp] theorem Blk.wr_dms (s : Blk) (off : Nat) (v : Word) : (s.wr off v).dms = s.dms := rfl
@[simp] theorem Blk.wr_tierRes (s : Blk) (off : Nat) (v : Word) : (s.wr off v).tierRes = s.tierRes := rfl
@[simp] theorem Blk.wr_bmErr (s : Blk) (off : Nat) (v : Word) : (s.wr off v).bmErr = s.bmErr := rfl
@[simp] theorem Blk.wr_bistDone (s : Blk) (off : Nat) (v : Word) : (s.wr off v).bistDone = s.bistDone := rfl
@[simp] theorem Blk.wr_bistAt (s : Blk) (off : Nat) (v : Word) : (s.wr off v).bistAt = s.bistAt := rfl
@[simp] theorem Blk.wr_clearAt (s : Blk) (off : Nat) (v : Word) : (s.wr off v).clearAt = s.clearAt := rfl
@[simp] theorem Blk.wr_ports (s : Blk) (off : Nat) (v : Word) : (s.wr off v).ports = s.ports := rfl
@[simp] theorem Blk.wr_xfer (s : Blk) (off : Nat) (v : Word) : (s.wr off v).xfer = s.xfer := rfl
@[simp] theorem Blk.wr_xdone (s : Blk) (off : Nat) (v : Word) : (s.wr off v).xdone = s.xdone := rfl
@[simp] theorem Blk.wr_rom (s : Blk) (off : Nat) (v : Word) : (s.wr off v).rom = s.rom := rfl
@[simp] theorem Blk.wr_matchOld (s : Blk) (off : Nat) (v : Word) : (s.wr off v).matchOld = s.matchOld := rfl
@[simp] theorem Blk.wr_asked (s : Blk) (off : Nat) (v : Word) : (s.wr off v).asked = s.asked := rfl
@[simp] theorem Blk.wr_patchNow (s : Blk) (off : Nat) (v : Word) : (s.wr off v).patchNow = s.patchNow := rfl
@[simp] theorem Blk.wr_patchRam (s : Blk) (off : Nat) (v : Word) : (s.wr off v).patchRam = s.patchRam := rfl
@[simp] theorem Blk.wr_patchBad (s : Blk) (off : Nat) (v : Word) : (s.wr off v).patchBad = s.patchBad := rfl
@[simp] theorem Blk.wr_patchWin (s : Blk) (off : Nat) (v : Word) : (s.wr off v).patchWin = s.patchWin := rfl
@[simp] theorem Blk.wr_patch (s : Blk) (off : Nat) (v : Word) : (s.wr off v).patch = s.patch := rfl
@[simp] theorem Blk.wr_straps (s : Blk) (off : Nat) (v : Word) : (s.wr off v).straps = s.straps := rfl
@[simp] theorem Blk.wr_svUnits (s : Blk) (off : Nat) (v : Word) : (s.wr off v).svUnits = s.svUnits := rfl
@[simp] theorem Blk.wr_svSubs (s : Blk) (off : Nat) (v : Word) : (s.wr off v).svSubs = s.svSubs := rfl
@[simp] theorem Blk.wr_svNo (s : Blk) (off : Nat) (v : Word) : (s.wr off v).svNo = s.svNo := rfl
@[simp] theorem Blk.wr_pes (s : Blk) (off : Nat) (v : Word) : (s.wr off v).pes = s.pes := rfl
@[simp] theorem Blk.wr_peFlags (s : Blk) (off : Nat) (v : Word) : (s.wr off v).peFlags = s.peFlags := rfl
@[simp] theorem Blk.wr_pins (s : Blk) (off : Nat) (v : Word) : (s.wr off v).pins = s.pins := rfl
@[simp] theorem Blk.wr_pwr (s : Blk) (off : Nat) (v : Word) : (s.wr off v).pwr = s.pwr := rfl
@[simp] theorem Blk.wr_td (s : Blk) (off : Nat) (v : Word) : (s.wr off v).td = s.td := rfl
@[simp] theorem Blk.wr_tap (s : Blk) (off : Nat) (v : Word) : (s.wr off v).tap = s.tap := rfl
@[simp] theorem Blk.wr_burnt (s : Blk) (off : Nat) (v : Word) : (s.wr off v).burnt = s.burnt := rfl
@[simp] theorem Blk.wr_boots (s : Blk) (off : Nat) (v : Word) : (s.wr off v).boots = s.boots := rfl
@[simp] theorem Blk.wr_i3c (s : Blk) (off : Nat) (v : Word) : (s.wr off v).i3c = s.i3c := rfl

@[simp] theorem Blk.setFld_now (s : Blk) (f : Fld) (n : Nat) : (s.setFld f n).now = s.now := rfl
@[simp] theorem Blk.setFld_phase (s : Blk) (f : Fld) (n : Nat) : (s.setFld f n).phase = s.phase := rfl
@[simp] theorem Blk.setFld_pll (s : Blk) (f : Fld) (n : Nat) : (s.setFld f n).pll = s.pll := rfl
@[simp] theorem Blk.setFld_lockLost (s : Blk) (f : Fld) (n : Nat) : (s.setFld f n).lockLost = s.lockLost := rfl
@[simp] theorem Blk.setFld_cyc (s : Blk) (f : Fld) (n : Nat) : (s.setFld f n).cyc = s.cyc := rfl
@[simp] theorem Blk.setFld_fresh (s : Blk) (f : Fld) (n : Nat) : (s.setFld f n).fresh = s.fresh := rfl
@[simp] theorem Blk.setFld_dawn (s : Blk) (f : Fld) (n : Nat) : (s.setFld f n).dawn = s.dawn := rfl
@[simp] theorem Blk.setFld_caps (s : Blk) (f : Fld) (n : Nat) : (s.setFld f n).caps = s.caps := rfl
@[simp] theorem Blk.setFld_winRsp (s : Blk) (f : Fld) (n : Nat) : (s.setFld f n).winRsp = s.winRsp := rfl
@[simp] theorem Blk.setFld_dusk (s : Blk) (f : Fld) (n : Nat) : (s.setFld f n).dusk = s.dusk := rfl
@[simp] theorem Blk.setFld_lost (s : Blk) (f : Fld) (n : Nat) : (s.setFld f n).lost = s.lost := rfl
@[simp] theorem Blk.setFld_tb (s : Blk) (f : Fld) (n : Nat) : (s.setFld f n).tb = s.tb := rfl
@[simp] theorem Blk.setFld_sched (s : Blk) (f : Fld) (n : Nat) : (s.setFld f n).sched = s.sched := rfl
@[simp] theorem Blk.setFld_ev (s : Blk) (f : Fld) (n : Nat) : (s.setFld f n).ev = s.ev := rfl
@[simp] theorem Blk.setFld_blkWd (s : Blk) (f : Fld) (n : Nat) : (s.setFld f n).blkWd = s.blkWd := rfl
@[simp] theorem Blk.setFld_bayWd (s : Blk) (f : Fld) (n : Nat) : (s.setFld f n).bayWd = s.bayWd := rfl
@[simp] theorem Blk.setFld_engWd (s : Blk) (f : Fld) (n : Nat) : (s.setFld f n).engWd = s.engWd := rfl
@[simp] theorem Blk.setFld_peTrig (s : Blk) (f : Fld) (n : Nat) : (s.setFld f n).peTrig = s.peTrig := rfl
@[simp] theorem Blk.setFld_idle (s : Blk) (f : Fld) (n : Nat) : (s.setFld f n).idle = s.idle := rfl
@[simp] theorem Blk.setFld_latch (s : Blk) (f : Fld) (n : Nat) : (s.setFld f n).latch = s.latch := rfl
@[simp] theorem Blk.setFld_idleAt (s : Blk) (f : Fld) (n : Nat) : (s.setFld f n).idleAt = s.idleAt := rfl
@[simp] theorem Blk.setFld_relAt (s : Blk) (f : Fld) (n : Nat) : (s.setFld f n).relAt = s.relAt := rfl
@[simp] theorem Blk.setFld_led (s : Blk) (f : Fld) (n : Nat) : (s.setFld f n).led = s.led := rfl
@[simp] theorem Blk.setFld_seqNo (s : Blk) (f : Fld) (n : Nat) : (s.setFld f n).seqNo = s.seqNo := rfl
@[simp] theorem Blk.setFld_s2m (s : Blk) (f : Fld) (n : Nat) : (s.setFld f n).s2m = s.s2m := rfl
@[simp] theorem Blk.setFld_qCnt (s : Blk) (f : Fld) (n : Nat) : (s.setFld f n).qCnt = s.qCnt := rfl
@[simp] theorem Blk.setFld_segBad (s : Blk) (f : Fld) (n : Nat) : (s.setFld f n).segBad = s.segBad := rfl
@[simp] theorem Blk.setFld_bells (s : Blk) (f : Fld) (n : Nat) : (s.setFld f n).bells = s.bells := rfl
@[simp] theorem Blk.setFld_cmdQ (s : Blk) (f : Fld) (n : Nat) : (s.setFld f n).cmdQ = s.cmdQ := rfl
@[simp] theorem Blk.setFld_jobs (s : Blk) (f : Fld) (n : Nat) : (s.setFld f n).jobs = s.jobs := rfl
@[simp] theorem Blk.setFld_jobNo (s : Blk) (f : Fld) (n : Nat) : (s.setFld f n).jobNo = s.jobNo := rfl
@[simp] theorem Blk.setFld_mu (s : Blk) (f : Fld) (n : Nat) : (s.setFld f n).mu = s.mu := rfl
@[simp] theorem Blk.setFld_cmdNo (s : Blk) (f : Fld) (n : Nat) : (s.setFld f n).cmdNo = s.cmdNo := rfl
@[simp] theorem Blk.setFld_ans (s : Blk) (f : Fld) (n : Nat) : (s.setFld f n).ans = s.ans := rfl
@[simp] theorem Blk.setFld_fin (s : Blk) (f : Fld) (n : Nat) : (s.setFld f n).fin = s.fin := rfl
@[simp] theorem Blk.setFld_crypt (s : Blk) (f : Fld) (n : Nat) : (s.setFld f n).crypt = s.crypt := rfl
@[simp] theorem Blk.setFld_fabTx (s : Blk) (f : Fld) (n : Nat) : (s.setFld f n).fabTx = s.fabTx := rfl
@[simp] theorem Blk.setFld_meter (s : Blk) (f : Fld) (n : Nat) : (s.setFld f n).meter = s.meter := rfl
@[simp] theorem Blk.setFld_tw (s : Blk) (f : Fld) (n : Nat) : (s.setFld f n).tw = s.tw := rfl
@[simp] theorem Blk.setFld_got (s : Blk) (f : Fld) (n : Nat) : (s.setFld f n).got = s.got := rfl
@[simp] theorem Blk.setFld_tgot (s : Blk) (f : Fld) (n : Nat) : (s.setFld f n).tgot = s.tgot := rfl
@[simp] theorem Blk.setFld_ctxs (s : Blk) (f : Fld) (n : Nat) : (s.setFld f n).ctxs = s.ctxs := rfl
@[simp] theorem Blk.setFld_engs (s : Blk) (f : Fld) (n : Nat) : (s.setFld f n).engs = s.engs := rfl
@[simp] theorem Blk.setFld_moves (s : Blk) (f : Fld) (n : Nat) : (s.setFld f n).moves = s.moves := rfl
@[simp] theorem Blk.setFld_moveQ (s : Blk) (f : Fld) (n : Nat) : (s.setFld f n).moveQ = s.moveQ := rfl
@[simp] theorem Blk.setFld_regCe (s : Blk) (f : Fld) (n : Nat) : (s.setFld f n).regCe = s.regCe := rfl
@[simp] theorem Blk.setFld_opNo (s : Blk) (f : Fld) (n : Nat) : (s.setFld f n).opNo = s.opNo := rfl
@[simp] theorem Blk.setFld_cops (s : Blk) (f : Fld) (n : Nat) : (s.setFld f n).cops = s.cops := rfl
@[simp] theorem Blk.setFld_fu (s : Blk) (f : Fld) (n : Nat) : (s.setFld f n).fu = s.fu := rfl
@[simp] theorem Blk.setFld_pools (s : Blk) (f : Fld) (n : Nat) : (s.setFld f n).pools = s.pools := rfl
@[simp] theorem Blk.setFld_dms (s : Blk) (f : Fld) (n : Nat) : (s.setFld f n).dms = s.dms := rfl
@[simp] theorem Blk.setFld_tierRes (s : Blk) (f : Fld) (n : Nat) : (s.setFld f n).tierRes = s.tierRes := rfl
@[simp] theorem Blk.setFld_bmErr (s : Blk) (f : Fld) (n : Nat) : (s.setFld f n).bmErr = s.bmErr := rfl
@[simp] theorem Blk.setFld_bistDone (s : Blk) (f : Fld) (n : Nat) : (s.setFld f n).bistDone = s.bistDone := rfl
@[simp] theorem Blk.setFld_bistAt (s : Blk) (f : Fld) (n : Nat) : (s.setFld f n).bistAt = s.bistAt := rfl
@[simp] theorem Blk.setFld_clearAt (s : Blk) (f : Fld) (n : Nat) : (s.setFld f n).clearAt = s.clearAt := rfl
@[simp] theorem Blk.setFld_ports (s : Blk) (f : Fld) (n : Nat) : (s.setFld f n).ports = s.ports := rfl
@[simp] theorem Blk.setFld_xfer (s : Blk) (f : Fld) (n : Nat) : (s.setFld f n).xfer = s.xfer := rfl
@[simp] theorem Blk.setFld_xdone (s : Blk) (f : Fld) (n : Nat) : (s.setFld f n).xdone = s.xdone := rfl
@[simp] theorem Blk.setFld_rom (s : Blk) (f : Fld) (n : Nat) : (s.setFld f n).rom = s.rom := rfl
@[simp] theorem Blk.setFld_matchOld (s : Blk) (f : Fld) (n : Nat) : (s.setFld f n).matchOld = s.matchOld := rfl
@[simp] theorem Blk.setFld_asked (s : Blk) (f : Fld) (n : Nat) : (s.setFld f n).asked = s.asked := rfl
@[simp] theorem Blk.setFld_patchNow (s : Blk) (f : Fld) (n : Nat) : (s.setFld f n).patchNow = s.patchNow := rfl
@[simp] theorem Blk.setFld_patchRam (s : Blk) (f : Fld) (n : Nat) : (s.setFld f n).patchRam = s.patchRam := rfl
@[simp] theorem Blk.setFld_patchBad (s : Blk) (f : Fld) (n : Nat) : (s.setFld f n).patchBad = s.patchBad := rfl
@[simp] theorem Blk.setFld_patchWin (s : Blk) (f : Fld) (n : Nat) : (s.setFld f n).patchWin = s.patchWin := rfl
@[simp] theorem Blk.setFld_patch (s : Blk) (f : Fld) (n : Nat) : (s.setFld f n).patch = s.patch := rfl
@[simp] theorem Blk.setFld_straps (s : Blk) (f : Fld) (n : Nat) : (s.setFld f n).straps = s.straps := rfl
@[simp] theorem Blk.setFld_svUnits (s : Blk) (f : Fld) (n : Nat) : (s.setFld f n).svUnits = s.svUnits := rfl
@[simp] theorem Blk.setFld_svSubs (s : Blk) (f : Fld) (n : Nat) : (s.setFld f n).svSubs = s.svSubs := rfl
@[simp] theorem Blk.setFld_svNo (s : Blk) (f : Fld) (n : Nat) : (s.setFld f n).svNo = s.svNo := rfl
@[simp] theorem Blk.setFld_pes (s : Blk) (f : Fld) (n : Nat) : (s.setFld f n).pes = s.pes := rfl
@[simp] theorem Blk.setFld_peFlags (s : Blk) (f : Fld) (n : Nat) : (s.setFld f n).peFlags = s.peFlags := rfl
@[simp] theorem Blk.setFld_pins (s : Blk) (f : Fld) (n : Nat) : (s.setFld f n).pins = s.pins := rfl
@[simp] theorem Blk.setFld_pwr (s : Blk) (f : Fld) (n : Nat) : (s.setFld f n).pwr = s.pwr := rfl
@[simp] theorem Blk.setFld_td (s : Blk) (f : Fld) (n : Nat) : (s.setFld f n).td = s.td := rfl
@[simp] theorem Blk.setFld_tap (s : Blk) (f : Fld) (n : Nat) : (s.setFld f n).tap = s.tap := rfl
@[simp] theorem Blk.setFld_burnt (s : Blk) (f : Fld) (n : Nat) : (s.setFld f n).burnt = s.burnt := rfl
@[simp] theorem Blk.setFld_boots (s : Blk) (f : Fld) (n : Nat) : (s.setFld f n).boots = s.boots := rfl
@[simp] theorem Blk.setFld_i3c (s : Blk) (f : Fld) (n : Nat) : (s.setFld f n).i3c = s.i3c := rfl

@[simp] theorem Blk.hwPut_now (s : Blk) (off : Nat) (v z : Word) : (s.hwPut off v z).now = s.now := rfl
@[simp] theorem Blk.hwPut_phase (s : Blk) (off : Nat) (v z : Word) : (s.hwPut off v z).phase = s.phase := rfl
@[simp] theorem Blk.hwPut_pll (s : Blk) (off : Nat) (v z : Word) : (s.hwPut off v z).pll = s.pll := rfl
@[simp] theorem Blk.hwPut_lockLost (s : Blk) (off : Nat) (v z : Word) : (s.hwPut off v z).lockLost = s.lockLost := rfl
@[simp] theorem Blk.hwPut_cyc (s : Blk) (off : Nat) (v z : Word) : (s.hwPut off v z).cyc = s.cyc := rfl
@[simp] theorem Blk.hwPut_dawn (s : Blk) (off : Nat) (v z : Word) : (s.hwPut off v z).dawn = s.dawn := rfl
@[simp] theorem Blk.hwPut_caps (s : Blk) (off : Nat) (v z : Word) : (s.hwPut off v z).caps = s.caps := rfl
@[simp] theorem Blk.hwPut_winRsp (s : Blk) (off : Nat) (v z : Word) : (s.hwPut off v z).winRsp = s.winRsp := rfl
@[simp] theorem Blk.hwPut_dusk (s : Blk) (off : Nat) (v z : Word) : (s.hwPut off v z).dusk = s.dusk := rfl
@[simp] theorem Blk.hwPut_lost (s : Blk) (off : Nat) (v z : Word) : (s.hwPut off v z).lost = s.lost := rfl
@[simp] theorem Blk.hwPut_tb (s : Blk) (off : Nat) (v z : Word) : (s.hwPut off v z).tb = s.tb := rfl
@[simp] theorem Blk.hwPut_sched (s : Blk) (off : Nat) (v z : Word) : (s.hwPut off v z).sched = s.sched := rfl
@[simp] theorem Blk.hwPut_ev (s : Blk) (off : Nat) (v z : Word) : (s.hwPut off v z).ev = s.ev := rfl
@[simp] theorem Blk.hwPut_blkWd (s : Blk) (off : Nat) (v z : Word) : (s.hwPut off v z).blkWd = s.blkWd := rfl
@[simp] theorem Blk.hwPut_bayWd (s : Blk) (off : Nat) (v z : Word) : (s.hwPut off v z).bayWd = s.bayWd := rfl
@[simp] theorem Blk.hwPut_engWd (s : Blk) (off : Nat) (v z : Word) : (s.hwPut off v z).engWd = s.engWd := rfl
@[simp] theorem Blk.hwPut_peTrig (s : Blk) (off : Nat) (v z : Word) : (s.hwPut off v z).peTrig = s.peTrig := rfl
@[simp] theorem Blk.hwPut_idle (s : Blk) (off : Nat) (v z : Word) : (s.hwPut off v z).idle = s.idle := rfl
@[simp] theorem Blk.hwPut_latch (s : Blk) (off : Nat) (v z : Word) : (s.hwPut off v z).latch = s.latch := rfl
@[simp] theorem Blk.hwPut_idleAt (s : Blk) (off : Nat) (v z : Word) : (s.hwPut off v z).idleAt = s.idleAt := rfl
@[simp] theorem Blk.hwPut_relAt (s : Blk) (off : Nat) (v z : Word) : (s.hwPut off v z).relAt = s.relAt := rfl
@[simp] theorem Blk.hwPut_led (s : Blk) (off : Nat) (v z : Word) : (s.hwPut off v z).led = s.led := rfl
@[simp] theorem Blk.hwPut_seqNo (s : Blk) (off : Nat) (v z : Word) : (s.hwPut off v z).seqNo = s.seqNo := rfl
@[simp] theorem Blk.hwPut_s2m (s : Blk) (off : Nat) (v z : Word) : (s.hwPut off v z).s2m = s.s2m := rfl
@[simp] theorem Blk.hwPut_qCnt (s : Blk) (off : Nat) (v z : Word) : (s.hwPut off v z).qCnt = s.qCnt := rfl
@[simp] theorem Blk.hwPut_segBad (s : Blk) (off : Nat) (v z : Word) : (s.hwPut off v z).segBad = s.segBad := rfl
@[simp] theorem Blk.hwPut_bells (s : Blk) (off : Nat) (v z : Word) : (s.hwPut off v z).bells = s.bells := rfl
@[simp] theorem Blk.hwPut_cmdQ (s : Blk) (off : Nat) (v z : Word) : (s.hwPut off v z).cmdQ = s.cmdQ := rfl
@[simp] theorem Blk.hwPut_jobs (s : Blk) (off : Nat) (v z : Word) : (s.hwPut off v z).jobs = s.jobs := rfl
@[simp] theorem Blk.hwPut_jobNo (s : Blk) (off : Nat) (v z : Word) : (s.hwPut off v z).jobNo = s.jobNo := rfl
@[simp] theorem Blk.hwPut_mu (s : Blk) (off : Nat) (v z : Word) : (s.hwPut off v z).mu = s.mu := rfl
@[simp] theorem Blk.hwPut_cmdNo (s : Blk) (off : Nat) (v z : Word) : (s.hwPut off v z).cmdNo = s.cmdNo := rfl
@[simp] theorem Blk.hwPut_ans (s : Blk) (off : Nat) (v z : Word) : (s.hwPut off v z).ans = s.ans := rfl
@[simp] theorem Blk.hwPut_fin (s : Blk) (off : Nat) (v z : Word) : (s.hwPut off v z).fin = s.fin := rfl
@[simp] theorem Blk.hwPut_crypt (s : Blk) (off : Nat) (v z : Word) : (s.hwPut off v z).crypt = s.crypt := rfl
@[simp] theorem Blk.hwPut_fabTx (s : Blk) (off : Nat) (v z : Word) : (s.hwPut off v z).fabTx = s.fabTx := rfl
@[simp] theorem Blk.hwPut_meter (s : Blk) (off : Nat) (v z : Word) : (s.hwPut off v z).meter = s.meter := rfl
@[simp] theorem Blk.hwPut_tw (s : Blk) (off : Nat) (v z : Word) : (s.hwPut off v z).tw = s.tw := rfl
@[simp] theorem Blk.hwPut_got (s : Blk) (off : Nat) (v z : Word) : (s.hwPut off v z).got = s.got := rfl
@[simp] theorem Blk.hwPut_tgot (s : Blk) (off : Nat) (v z : Word) : (s.hwPut off v z).tgot = s.tgot := rfl
@[simp] theorem Blk.hwPut_ctxs (s : Blk) (off : Nat) (v z : Word) : (s.hwPut off v z).ctxs = s.ctxs := rfl
@[simp] theorem Blk.hwPut_engs (s : Blk) (off : Nat) (v z : Word) : (s.hwPut off v z).engs = s.engs := rfl
@[simp] theorem Blk.hwPut_moves (s : Blk) (off : Nat) (v z : Word) : (s.hwPut off v z).moves = s.moves := rfl
@[simp] theorem Blk.hwPut_moveQ (s : Blk) (off : Nat) (v z : Word) : (s.hwPut off v z).moveQ = s.moveQ := rfl
@[simp] theorem Blk.hwPut_regCe (s : Blk) (off : Nat) (v z : Word) : (s.hwPut off v z).regCe = s.regCe := rfl
@[simp] theorem Blk.hwPut_opNo (s : Blk) (off : Nat) (v z : Word) : (s.hwPut off v z).opNo = s.opNo := rfl
@[simp] theorem Blk.hwPut_cops (s : Blk) (off : Nat) (v z : Word) : (s.hwPut off v z).cops = s.cops := rfl
@[simp] theorem Blk.hwPut_fu (s : Blk) (off : Nat) (v z : Word) : (s.hwPut off v z).fu = s.fu := rfl
@[simp] theorem Blk.hwPut_pools (s : Blk) (off : Nat) (v z : Word) : (s.hwPut off v z).pools = s.pools := rfl
@[simp] theorem Blk.hwPut_dms (s : Blk) (off : Nat) (v z : Word) : (s.hwPut off v z).dms = s.dms := rfl
@[simp] theorem Blk.hwPut_tierRes (s : Blk) (off : Nat) (v z : Word) : (s.hwPut off v z).tierRes = s.tierRes := rfl
@[simp] theorem Blk.hwPut_bmErr (s : Blk) (off : Nat) (v z : Word) : (s.hwPut off v z).bmErr = s.bmErr := rfl
@[simp] theorem Blk.hwPut_bistDone (s : Blk) (off : Nat) (v z : Word) : (s.hwPut off v z).bistDone = s.bistDone := rfl
@[simp] theorem Blk.hwPut_bistAt (s : Blk) (off : Nat) (v z : Word) : (s.hwPut off v z).bistAt = s.bistAt := rfl
@[simp] theorem Blk.hwPut_clearAt (s : Blk) (off : Nat) (v z : Word) : (s.hwPut off v z).clearAt = s.clearAt := rfl
@[simp] theorem Blk.hwPut_ports (s : Blk) (off : Nat) (v z : Word) : (s.hwPut off v z).ports = s.ports := rfl
@[simp] theorem Blk.hwPut_xfer (s : Blk) (off : Nat) (v z : Word) : (s.hwPut off v z).xfer = s.xfer := rfl
@[simp] theorem Blk.hwPut_xdone (s : Blk) (off : Nat) (v z : Word) : (s.hwPut off v z).xdone = s.xdone := rfl
@[simp] theorem Blk.hwPut_rom (s : Blk) (off : Nat) (v z : Word) : (s.hwPut off v z).rom = s.rom := rfl
@[simp] theorem Blk.hwPut_matchOld (s : Blk) (off : Nat) (v z : Word) : (s.hwPut off v z).matchOld = s.matchOld := rfl
@[simp] theorem Blk.hwPut_asked (s : Blk) (off : Nat) (v z : Word) : (s.hwPut off v z).asked = s.asked := rfl
@[simp] theorem Blk.hwPut_patchNow (s : Blk) (off : Nat) (v z : Word) : (s.hwPut off v z).patchNow = s.patchNow := rfl
@[simp] theorem Blk.hwPut_patchRam (s : Blk) (off : Nat) (v z : Word) : (s.hwPut off v z).patchRam = s.patchRam := rfl
@[simp] theorem Blk.hwPut_patchBad (s : Blk) (off : Nat) (v z : Word) : (s.hwPut off v z).patchBad = s.patchBad := rfl
@[simp] theorem Blk.hwPut_patchWin (s : Blk) (off : Nat) (v z : Word) : (s.hwPut off v z).patchWin = s.patchWin := rfl
@[simp] theorem Blk.hwPut_patch (s : Blk) (off : Nat) (v z : Word) : (s.hwPut off v z).patch = s.patch := rfl
@[simp] theorem Blk.hwPut_straps (s : Blk) (off : Nat) (v z : Word) : (s.hwPut off v z).straps = s.straps := rfl
@[simp] theorem Blk.hwPut_svUnits (s : Blk) (off : Nat) (v z : Word) : (s.hwPut off v z).svUnits = s.svUnits := rfl
@[simp] theorem Blk.hwPut_svSubs (s : Blk) (off : Nat) (v z : Word) : (s.hwPut off v z).svSubs = s.svSubs := rfl
@[simp] theorem Blk.hwPut_svNo (s : Blk) (off : Nat) (v z : Word) : (s.hwPut off v z).svNo = s.svNo := rfl
@[simp] theorem Blk.hwPut_pes (s : Blk) (off : Nat) (v z : Word) : (s.hwPut off v z).pes = s.pes := rfl
@[simp] theorem Blk.hwPut_peFlags (s : Blk) (off : Nat) (v z : Word) : (s.hwPut off v z).peFlags = s.peFlags := rfl
@[simp] theorem Blk.hwPut_pins (s : Blk) (off : Nat) (v z : Word) : (s.hwPut off v z).pins = s.pins := rfl
@[simp] theorem Blk.hwPut_pwr (s : Blk) (off : Nat) (v z : Word) : (s.hwPut off v z).pwr = s.pwr := rfl
@[simp] theorem Blk.hwPut_td (s : Blk) (off : Nat) (v z : Word) : (s.hwPut off v z).td = s.td := rfl
@[simp] theorem Blk.hwPut_tap (s : Blk) (off : Nat) (v z : Word) : (s.hwPut off v z).tap = s.tap := rfl
@[simp] theorem Blk.hwPut_burnt (s : Blk) (off : Nat) (v z : Word) : (s.hwPut off v z).burnt = s.burnt := rfl
@[simp] theorem Blk.hwPut_boots (s : Blk) (off : Nat) (v z : Word) : (s.hwPut off v z).boots = s.boots := rfl
@[simp] theorem Blk.hwPut_i3c (s : Blk) (off : Nat) (v z : Word) : (s.hwPut off v z).i3c = s.i3c := rfl

@[simp] theorem Ctx.setSr_st (c : Ctx) (n : Nat) (v : Half) : (c.setSr n v).st = c.st := rfl
@[simp] theorem Ctx.setSr_under (c : Ctx) (n : Nat) (v : Half) : (c.setSr n v).under = c.under := rfl
@[simp] theorem Ctx.setSr_base (c : Ctx) (n : Nat) (v : Half) : (c.setSr n v).base = c.base := rfl
@[simp] theorem Ctx.setSr_waitFor (c : Ctx) (n : Nat) (v : Half) : (c.setSr n v).waitFor = c.waitFor := rfl
@[simp] theorem Ctx.setSr_pc (c : Ctx) (n : Nat) (v : Half) : (c.setSr n v).pc = c.pc := rfl
@[simp] theorem Ctx.setSr_cb (c : Ctx) (n : Nat) (v : Half) : (c.setSr n v).cb = c.cb := rfl
@[simp] theorem Ctx.setSr_bk (c : Ctx) (n : Nat) (v : Half) : (c.setSr n v).bk = c.bk := rfl
@[simp] theorem Ctx.setSr_sw (c : Ctx) (n : Nat) (v : Half) : (c.setSr n v).sw = c.sw := rfl
@[simp] theorem Ctx.setSr_g (c : Ctx) (n : Nat) (v : Half) : (c.setSr n v).g = c.g := rfl
@[simp] theorem Ctx.setSr_gErr (c : Ctx) (n : Nat) (v : Half) : (c.setSr n v).gErr = c.gErr := rfl
@[simp] theorem Ctx.setSr_parErr (c : Ctx) (n : Nat) (v : Half) : (c.setSr n v).parErr = c.parErr := rfl
@[simp] theorem Ctx.setSr_ceil (c : Ctx) (n : Nat) (v : Half) : (c.setSr n v).ceil = c.ceil := rfl
@[simp] theorem Ctx.setSr_wclass (c : Ctx) (n : Nat) (v : Half) : (c.setSr n v).wclass = c.wclass := rfl
@[simp] theorem Ctx.setSr_fdepth (c : Ctx) (n : Nat) (v : Half) : (c.setSr n v).fdepth = c.fdepth := rfl
@[simp] theorem Ctx.setSr_df (c : Ctx) (n : Nat) (v : Half) : (c.setSr n v).df = c.df := rfl
@[simp] theorem Ctx.setSr_tripled (c : Ctx) (n : Nat) (v : Half) : (c.setSr n v).tripled = c.tripled := rfl
@[simp] theorem Ctx.setSr_scause (c : Ctx) (n : Nat) (v : Half) : (c.setSr n v).scause = c.scause := rfl
@[simp] theorem Ctx.setSr_lcause (c : Ctx) (n : Nat) (v : Half) : (c.setSr n v).lcause = c.lcause := rfl
@[simp] theorem Ctx.setSr_cause (c : Ctx) (n : Nat) (v : Half) : (c.setSr n v).cause = c.cause := rfl
@[simp] theorem Ctx.setSr_attempt (c : Ctx) (n : Nat) (v : Half) : (c.setSr n v).attempt = c.attempt := rfl
@[simp] theorem Ctx.setSr_kept (c : Ctx) (n : Nat) (v : Half) : (c.setSr n v).kept = c.kept := rfl
@[simp] theorem Ctx.setSr_lock (c : Ctx) (n : Nat) (v : Half) : (c.setSr n v).lock = c.lock := rfl
@[simp] theorem Ctx.setSr_lockLen (c : Ctx) (n : Nat) (v : Half) : (c.setSr n v).lockLen = c.lockLen := rfl
@[simp] theorem Ctx.setSr_lockPc (c : Ctx) (n : Nat) (v : Half) : (c.setSr n v).lockPc = c.lockPc := rfl
@[simp] theorem Ctx.setSr_resv (c : Ctx) (n : Nat) (v : Half) : (c.setSr n v).resv = c.resv := rfl
@[simp] theorem Ctx.setSr_lockOut (c : Ctx) (n : Nat) (v : Half) : (c.setSr n v).lockOut = c.lockOut := rfl
@[simp] theorem Ctx.setSr_pend (c : Ctx) (n : Nat) (v : Half) : (c.setSr n v).pend = c.pend := rfl
@[simp] theorem Ctx.setSr_en (c : Ctx) (n : Nat) (v : Half) : (c.setSr n v).en = c.en := rfl
@[simp] theorem Ctx.setSr_ckpt (c : Ctx) (n : Nat) (v : Half) : (c.setSr n v).ckpt = c.ckpt := rfl
@[simp] theorem Ctx.setSr_farBad (c : Ctx) (n : Nat) (v : Half) : (c.setSr n v).farBad = c.farBad := rfl
@[simp] theorem Ctx.setSr_defer (c : Ctx) (n : Nat) (v : Half) : (c.setSr n v).defer = c.defer := rfl
@[simp] theorem Ctx.setSr_tags (c : Ctx) (n : Nat) (v : Half) : (c.setSr n v).tags = c.tags := rfl
@[simp] theorem Ctx.setSr_cpl (c : Ctx) (n : Nat) (v : Half) : (c.setSr n v).cpl = c.cpl := rfl
@[simp] theorem Ctx.setSr_intV (c : Ctx) (n : Nat) (v : Half) : (c.setSr n v).intV = c.intV := rfl
@[simp] theorem Ctx.setSr_cpfHw (c : Ctx) (n : Nat) (v : Half) : (c.setSr n v).cpfHw = c.cpfHw := rfl
@[simp] theorem Ctx.setSr_tim (c : Ctx) (n : Nat) (v : Half) : (c.setSr n v).tim = c.tim := rfl
@[simp] theorem Ctx.setSr_timHit (c : Ctx) (n : Nat) (v : Half) : (c.setSr n v).timHit = c.timHit := rfl
@[simp] theorem Ctx.setSr_wd (c : Ctx) (n : Nat) (v : Half) : (c.setSr n v).wd = c.wd := rfl
@[simp] theorem Ctx.setSr_u (c : Ctx) (n : Nat) (v : Half) : (c.setSr n v).u = c.u := rfl

end Sys2Proof.Machine
end

