-- ==== Sys2Proof/Laws/Ctx.lean ====
section
/-! SUPPORT. The laws of contexts and engines: what a change of a context, a selection and a retirement leave as it was. -/

namespace Sys2Proof.Machine

/-! ### The relations -/

@[simp] theorem Ctx.alike_refl (x : Ctx) : x.alike x := ⟨rfl⟩
theorem Ctx.alike.trans {x y z : Ctx} (h : x.alike y) (g : y.alike z) : x.alike z := by
  obtain ⟨h⟩ := h; obtain ⟨g⟩ := g; rw [← h] at g; exact ⟨g⟩
theorem Ctx.alike.symm {x y : Ctx} (h : x.alike y) : y.alike x := by
  obtain ⟨h⟩ := h; exact ⟨by rw [← h]⟩
@[simp] theorem Ctx.alike_st (x : Ctx) (st : CtxSt) (w : Option WaitFor) : Ctx.alike { x with st := st, waitFor := w } x := ⟨rfl⟩
@[simp] theorem Ctx.alike_st' (x : Ctx) (st : CtxSt) : Ctx.alike { x with st := st } x := ⟨rfl⟩
@[simp] theorem Ctx.alike_wd (x : Ctx) (w : Wd) : Ctx.alike { x with wd := w } x := ⟨rfl⟩

@[simp] theorem Blk.near_refl (s : Blk) : s.near s := ⟨rfl⟩
theorem Blk.near.trans {s t u : Blk} (h : s.near t) (g : t.near u) : s.near u := by
  obtain ⟨h⟩ := h; obtain ⟨g⟩ := g; rw [← g] at h; exact ⟨h⟩
theorem Blk.near_setFld (s : Blk) (f : Fld) (n : Nat) : s.near (s.setFld f n) := ⟨rfl⟩
theorem Blk.near_bump (s : Blk) (f : Fld) (n : Nat) : s.near (s.bump f n) := ⟨rfl⟩

/-! ### Contexts -/

@[simp] theorem Blk.ctx_setEng (s : Blk) (e : Nat) (x : Eng) (j : Nat) : (s.setEng e x).ctx j = s.ctx j := rfl
@[simp] theorem Blk.ctx_engWatch (s : Blk) (e j : Nat) : (s.engWatch e).ctx j = s.ctx j := rfl
@[simp] theorem Blk.ctx_setFld (s : Blk) (f : Fld) (n j : Nat) : (s.setFld f n).ctx j = s.ctx j := rfl
@[simp] theorem Blk.eng_setFld (s : Blk) (f : Fld) (n e : Nat) : (s.setFld f n).eng e = s.eng e := rfl
@[simp] theorem Blk.eng_setEng (s : Blk) (e : Nat) (x : Eng) : (s.setEng e x).eng e = x := by simp [Blk.eng, Blk.setEng]
theorem Blk.eng_setEng_ne (s : Blk) {e i : Nat} (x : Eng) (h : i ≠ e) : (s.setEng e x).eng i = s.eng i := by
  simp [Blk.eng, Blk.setEng, tget_tset_ne _ _ _ h]

/-- What a change of a context's content does to the block, in one form. -/
theorem Blk.setCtx_form (s : Blk) (k : Nat) (c : Ctx) : ∃ ia idl ew, s.setCtx k c =
    { s with idleAt := ia, idle := idl, engWd := ew,
             ctxs := tset (fun _ => Ctx.reset) s.ctxs k { c with wd := c.wd.gate s.now (c.seen.watched && s.ctxReload != 0 && !s.stepsEngine (k / 8)) } } := by
  unfold Blk.setCtx Blk.unidle Blk.stir Blk.engWatch
  dsimp only
  split <;> split <;> exact ⟨_, _, _, rfl⟩

theorem Blk.ctx_setCtx (s : Blk) (k : Nat) (c : Ctx) : ((s.setCtx k c).ctx k).alike c := by
  obtain ⟨ia, idl, ew, h⟩ := s.setCtx_form k c
  rw [h]; simp [Blk.ctx]
theorem Blk.ctx_setCtx_ne (s : Blk) {k j : Nat} (c : Ctx) (hj : j ≠ k) : (s.setCtx k c).ctx j = s.ctx j := by
  obtain ⟨ia, idl, ew, h⟩ := s.setCtx_form k c
  rw [h]; simp [Blk.ctx, tget_tset_ne _ _ _ hj]
theorem Blk.near_setCtx (s : Blk) (k : Nat) (c : Ctx) : s.near (s.setCtx k c) := by
  obtain ⟨ia, idl, ew, h⟩ := s.setCtx_form k c
  rw [h]; exact ⟨rfl⟩
@[simp] theorem Blk.regs_setCtx (s : Blk) (k : Nat) (c : Ctx) : (s.setCtx k c).regs = s.regs := by
  obtain ⟨ia, idl, ew, h⟩ := s.setCtx_form k c
  rw [h]
@[simp] theorem Blk.now_setCtx (s : Blk) (k : Nat) (c : Ctx) : (s.setCtx k c).now = s.now := by
  obtain ⟨ia, idl, ew, h⟩ := s.setCtx_form k c
  rw [h]
@[simp] theorem Blk.engs_setCtx (s : Blk) (k : Nat) (c : Ctx) : (s.setCtx k c).engs = s.engs := by
  obtain ⟨ia, idl, ew, h⟩ := s.setCtx_form k c
  rw [h]
@[simp] theorem Blk.eng_setCtx (s : Blk) (k e : Nat) (c : Ctx) : (s.setCtx k c).eng e = s.eng e := by simp [Blk.eng]
@[simp] theorem Blk.rd_setCtx (s : Blk) (k : Nat) (c : Ctx) (o : Nat) : (s.setCtx k c).rd o = s.rd o := by simp [Blk.rd]
@[simp] theorem Blk.td_setCtx (s : Blk) (k : Nat) (c : Ctx) : (s.setCtx k c).td = s.td := by
  obtain ⟨ia, idl, ew, h⟩ := s.setCtx_form k c
  rw [h]

theorem Blk.ctx_onCtx (s : Blk) (k : Nat) (f : Ctx → Ctx) : ((s.onCtx k f).ctx k).alike (f (s.ctx k)) := s.ctx_setCtx k _
theorem Blk.ctx_onCtx_ne (s : Blk) {k j : Nat} (f : Ctx → Ctx) (hj : j ≠ k) : (s.onCtx k f).ctx j = s.ctx j := s.ctx_setCtx_ne _ hj
theorem Blk.near_onCtx (s : Blk) (k : Nat) (f : Ctx → Ctx) : s.near (s.onCtx k f) := s.near_setCtx k _
@[simp] theorem Blk.regs_onCtx (s : Blk) (k : Nat) (f : Ctx → Ctx) : (s.onCtx k f).regs = s.regs := s.regs_setCtx k _
@[simp] theorem Blk.now_onCtx (s : Blk) (k : Nat) (f : Ctx → Ctx) : (s.onCtx k f).now = s.now := s.now_setCtx k _
@[simp] theorem Blk.eng_onCtx (s : Blk) (k e : Nat) (f : Ctx → Ctx) : (s.onCtx k f).eng e = s.eng e := s.eng_setCtx k e _
@[simp] theorem Blk.td_onCtx (s : Blk) (k : Nat) (f : Ctx → Ctx) : (s.onCtx k f).td = s.td := s.td_setCtx k _

/-- A change of a context's content where it was, seen from any context. -/
theorem Blk.onCtx_alike (s : Blk) (k j : Nat) (f : Ctx → Ctx) (h : (f (s.ctx k)).alike (s.ctx k)) : ((s.onCtx k f).ctx j).alike (s.ctx j) := by
  by_cases hj : j = k
  · subst hj; exact (s.ctx_onCtx j f).trans h
  · rw [s.ctx_onCtx_ne f hj]; exact Ctx.alike_refl _

/-! ### Work and selection -/

theorem Blk.spend_form (s : Blk) (k n : Nat) : ∃ m f, s.spend k n = { s with meter := m, fresh := f } := by
  unfold Blk.spend; split <;> exact ⟨_, _, rfl⟩
theorem Blk.near_work (s : Blk) (e n : Nat) : s.near (s.work e n) := by
  unfold Blk.work
  obtain ⟨m, f, h⟩ := (s.spendE e n).spend_form (8 + e / 8) n
  rw [h]; exact ⟨rfl⟩
@[simp] theorem Blk.ctx_work (s : Blk) (e n j : Nat) : (s.work e n).ctx j = s.ctx j := by
  unfold Blk.work
  obtain ⟨m, f, h⟩ := (s.spendE e n).spend_form (8 + e / 8) n
  rw [h]; rfl
@[simp] theorem Blk.regs_work (s : Blk) (e n : Nat) : (s.work e n).regs = s.regs := by
  unfold Blk.work
  obtain ⟨m, f, h⟩ := (s.spendE e n).spend_form (8 + e / 8) n
  rw [h]; rfl
@[simp] theorem Blk.td_work (s : Blk) (e n : Nat) : (s.work e n).td = s.td := by
  unfold Blk.work
  obtain ⟨m, f, h⟩ := (s.spendE e n).spend_form (8 + e / 8) n
  rw [h]; rfl
theorem Blk.free_work (s : Blk) (e n : Nat) : ((s.work e n).eng e).free = max (s.eng e).free s.now + n := by
  unfold Blk.work
  obtain ⟨m, f, h⟩ := (s.spendE e n).spend_form (8 + e / 8) n
  rw [h]
  change ((s.spendE e n).eng e).free = _
  simp [Blk.spendE]

theorem Blk.near_setEng (s : Blk) (e : Nat) (x : Eng) : s.near (s.setEng e x) := ⟨rfl⟩
theorem Blk.near_turnTo (s : Blk) (e : Nat) : s.near (s.turnTo e) := ⟨rfl⟩
@[simp] theorem Blk.ctx_turnTo (s : Blk) (e j : Nat) : (s.turnTo e).ctx j = s.ctx j := rfl
@[simp] theorem Blk.regs_turnTo (s : Blk) (e : Nat) : (s.turnTo e).regs = s.regs := rfl
@[simp] theorem Blk.td_turnTo (s : Blk) (e : Nat) : (s.turnTo e).td = s.td := rfl
@[simp] theorem Blk.free_turnTo (s : Blk) (e : Nat) : ((s.turnTo e).eng e).free = max ((s.eng e).free + 1) (s.now + 2) := by
  simp [Blk.turnTo]
theorem Blk.near_spendE (s : Blk) (e n : Nat) : s.near (s.spendE e n) := ⟨rfl⟩
@[simp] theorem Blk.ctx_spendE (s : Blk) (e n j : Nat) : (s.spendE e n).ctx j = s.ctx j := rfl
@[simp] theorem Blk.regs_spendE (s : Blk) (e n : Nat) : (s.spendE e n).regs = s.regs := rfl
@[simp] theorem Blk.td_spendE (s : Blk) (e n : Nat) : (s.spendE e n).td = s.td := rfl
@[simp] theorem Blk.free_spendE (s : Blk) (e n : Nat) : ((s.spendE e n).eng e).free = max (s.eng e).free s.now + n := by
  simp [Blk.spendE]

/-- What a selection does: nothing, or a READY context enters RUN. -/
theorem Blk.select_cases (s : Blk) (e : Nat) :
    s.select e = s ∨ ∃ k f, (∀ c, (f c).alike c) ∧ s.select e = (s.onCtx k f).turnTo e := by
  unfold Blk.select
  split
  · exact .inl rfl
  · dsimp only
    split
    · exact .inr ⟨_, fun c => { c with st := .run }, fun _ => ⟨rfl⟩, rfl⟩
    · exact .inl rfl

theorem Blk.near_select (s : Blk) (e : Nat) : s.near (s.select e) := by
  rcases s.select_cases e with h | ⟨k, f, _, h⟩ <;> rw [h]
  · exact s.near_refl
  · exact (s.near_onCtx k f).trans (Blk.near_turnTo _ _)
theorem Blk.ctx_select (s : Blk) (e j : Nat) : ((s.select e).ctx j).alike (s.ctx j) := by
  rcases s.select_cases e with h | ⟨k, f, hf, h⟩ <;> rw [h]
  · exact Ctx.alike_refl _
  · rw [Blk.ctx_turnTo]; exact s.onCtx_alike k j f (hf _)
@[simp] theorem Blk.regs_select (s : Blk) (e : Nat) : (s.select e).regs = s.regs := by
  rcases s.select_cases e with h | ⟨k, f, _, h⟩ <;> rw [h]
  rw [Blk.regs_turnTo, Blk.regs_onCtx]
@[simp] theorem Blk.td_select (s : Blk) (e : Nat) : (s.select e).td = s.td := by
  rcases s.select_cases e with h | ⟨k, f, _, h⟩ <;> rw [h]
  rw [Blk.td_turnTo, Blk.td_onCtx]
theorem Blk.free_select (s : Blk) (e : Nat) : (s.eng e).free ≤ ((s.select e).eng e).free := by
  rcases s.select_cases e with h | ⟨k, f, _, h⟩
  · simp only [h, Nat.le_refl]
  · simp only [h, Blk.free_turnTo, Blk.eng_onCtx, Blk.now_onCtx]; omega

/-- What leaving RUN does before the selection. -/
theorem Blk.leave_form (s : Blk) (k : Nat) (st : CtxSt) (w : Option WaitFor) : ∃ f x, (∀ c, (f c).alike c) ∧ x.free = (s.eng (k / 8)).free ∧
    (s.leave k st w = (s.onCtx k f).select (k / 8) ∨ s.leave k st w = ((s.setEng (k / 8) x).onCtx k f).select (k / 8)) := by
  refine ⟨fun c => { c with st := st, waitFor := w }, { s.eng (k / 8) with last := k % 8 }, fun _ => ⟨rfl⟩, rfl, ?_⟩
  unfold Blk.leave
  by_cases h : (s.ctx k).st = .run
  · rw [if_pos h]; exact .inr rfl
  · rw [if_neg h]; exact .inl rfl

theorem Blk.near_leave (s : Blk) (k : Nat) (st : CtxSt) (w : Option WaitFor) : s.near (s.leave k st w) := by
  obtain ⟨f, x, _, _, h | h⟩ := s.leave_form k st w <;> rw [h]
  · exact (s.near_onCtx k f).trans (Blk.near_select _ _)
  · exact ((s.near_setEng _ x).trans (Blk.near_onCtx _ k f)).trans (Blk.near_select _ _)
theorem Blk.ctx_leave (s : Blk) (k j : Nat) (st : CtxSt) (w : Option WaitFor) : ((s.leave k st w).ctx j).alike (s.ctx j) := by
  obtain ⟨f, x, hf, _, h | h⟩ := s.leave_form k st w <;> rw [h]
  · exact (Blk.ctx_select _ _ _).trans (s.onCtx_alike k j f (hf _))
  · exact (Blk.ctx_select _ _ _).trans (Blk.onCtx_alike _ k j f (hf _))
@[simp] theorem Blk.regs_leave (s : Blk) (k : Nat) (st : CtxSt) (w : Option WaitFor) : (s.leave k st w).regs = s.regs := by
  obtain ⟨f, x, _, _, h | h⟩ := s.leave_form k st w <;> rw [h, Blk.regs_select, Blk.regs_onCtx]
  rfl
@[simp] theorem Blk.td_leave (s : Blk) (k : Nat) (st : CtxSt) (w : Option WaitFor) : (s.leave k st w).td = s.td := by
  obtain ⟨f, x, _, _, h | h⟩ := s.leave_form k st w <;> rw [h, Blk.td_select, Blk.td_onCtx]
  rfl
theorem Blk.free_leave (s : Blk) (k : Nat) (st : CtxSt) (w : Option WaitFor) : (s.eng (k / 8)).free ≤ ((s.leave k st w).eng (k / 8)).free := by
  obtain ⟨f, x, _, hx, h | h⟩ := s.leave_form k st w <;> rw [h]
  · refine Nat.le_trans ?_ (Blk.free_select _ _)
    simp only [Blk.eng_onCtx, Nat.le_refl]
  · refine Nat.le_trans ?_ (Blk.free_select _ _)
    simp only [Blk.eng_onCtx, Blk.eng_setEng, hx, Nat.le_refl]

theorem Blk.powerLeave_cases (s : Blk) (k : Nat) : s.powerLeave k = s ∨ s.powerLeave k = s.leave k .ready none := by
  unfold Blk.powerLeave; split
  · exact .inr rfl
  · exact .inl rfl

/-! ### Retirement -/

@[simp] theorem Blk.ctx_engKick (s : Blk) (e j : Nat) : (s.engKick e).ctx j = s.ctx j := rfl
theorem Blk.near_engKick (s : Blk) (e : Nat) : s.near (s.engKick e) := ⟨rfl⟩
@[simp] theorem Blk.regs_engKick (s : Blk) (e : Nat) : (s.engKick e).regs = s.regs := rfl
@[simp] theorem Blk.eng_engKick (s : Blk) (e i : Nat) : (s.engKick e).eng i = s.eng i := rfl
@[simp] theorem Blk.now_engKick (s : Blk) (e : Nat) : (s.engKick e).now = s.now := rfl
@[simp] theorem Blk.td_engKick (s : Blk) (e : Nat) : (s.engKick e).td = s.td := rfl

theorem Blk.busy_form (s : Blk) (k : Nat) (i : Bool) : ∃ l, s.busy k i = { s with idle := l } := by
  unfold Blk.busy; split <;> exact ⟨_, rfl⟩
@[simp] theorem Blk.ctx_busy (s : Blk) (k : Nat) (i : Bool) (j : Nat) : (s.busy k i).ctx j = s.ctx j := by
  obtain ⟨l, h⟩ := s.busy_form k i; rw [h]; rfl
theorem Blk.near_busy (s : Blk) (k : Nat) (i : Bool) : s.near (s.busy k i) := by
  obtain ⟨l, h⟩ := s.busy_form k i; rw [h]; exact ⟨rfl⟩
@[simp] theorem Blk.regs_busy (s : Blk) (k : Nat) (i : Bool) : (s.busy k i).regs = s.regs := by
  obtain ⟨l, h⟩ := s.busy_form k i; rw [h]
@[simp] theorem Blk.eng_busy (s : Blk) (k : Nat) (i : Bool) (e : Nat) : (s.busy k i).eng e = s.eng e := by
  obtain ⟨l, h⟩ := s.busy_form k i; rw [h]; rfl
@[simp] theorem Blk.now_busy (s : Blk) (k : Nat) (i : Bool) : (s.busy k i).now = s.now := by
  obtain ⟨l, h⟩ := s.busy_form k i; rw [h]
@[simp] theorem Blk.td_busy (s : Blk) (k : Nat) (i : Bool) : (s.busy k i).td = s.td := by
  obtain ⟨l, h⟩ := s.busy_form k i; rw [h]

@[simp] theorem Blk.ctx_retryCount (s : Blk) (k j : Nat) : (s.retryCount k).ctx j = s.ctx j := by
  unfold Blk.retryCount; split <;> rfl
theorem Blk.near_retryCount (s : Blk) (k : Nat) : s.near (s.retryCount k) := by
  unfold Blk.retryCount; split
  · exact s.near_refl
  · exact s.near_bump _ _
@[simp] theorem Blk.eng_retryCount (s : Blk) (k e : Nat) : (s.retryCount k).eng e = s.eng e := by
  unfold Blk.retryCount; split <;> rfl
@[simp] theorem Blk.now_retryCount (s : Blk) (k : Nat) : (s.retryCount k).now = s.now := by
  unfold Blk.retryCount; split <;> rfl
@[simp] theorem Blk.td_retryCount (s : Blk) (k : Nat) : (s.retryCount k).td = s.td := by
  unfold Blk.retryCount; split <;> rfl
theorem Blk.rd_retryCount (s : Blk) (k : Nat) {o : Nat} (ho : o ≠ F.EA_RETRY_CNT_off (k / 64)) : (s.retryCount k).rd o = s.rd o := by
  unfold Blk.retryCount; split
  · rfl
  · exact Blk.rd_wr_ne s _ ho

theorem Blk.retire_ctx (s : Blk) (k n : Nat) (i : Bool) (cb0 : Byte) (pc0 : Half) :
    ((s.retire k n i cb0 pc0).ctx k).alike ((s.ctx k).retired cb0 pc0) := by
  unfold Blk.retire
  dsimp only
  rw [Blk.ctx_work, Blk.ctx_busy, Blk.ctx_engKick]
  refine (Blk.ctx_onCtx _ k _).trans ?_
  rw [Blk.ctx_retryCount]
  exact ⟨rfl⟩
theorem Blk.retire_ctx_ne (s : Blk) {k j : Nat} (n : Nat) (i : Bool) (cb0 : Byte) (pc0 : Half) (hj : j ≠ k) :
    (s.retire k n i cb0 pc0).ctx j = s.ctx j := by
  unfold Blk.retire
  dsimp only
  rw [Blk.ctx_work, Blk.ctx_busy, Blk.ctx_engKick, Blk.ctx_onCtx_ne _ _ hj, Blk.ctx_retryCount]
theorem Blk.near_retire (s : Blk) (k n : Nat) (i : Bool) (cb0 : Byte) (pc0 : Half) : s.near (s.retire k n i cb0 pc0) := by
  unfold Blk.retire
  dsimp only
  exact (s.near_retryCount k).trans ((Blk.near_onCtx _ k _).trans
    ((Blk.near_engKick _ _).trans ((Blk.near_busy _ k i).trans (Blk.near_work _ _ n))))
theorem Blk.rd_retire (s : Blk) (k n : Nat) (i : Bool) (cb0 : Byte) (pc0 : Half) {o : Nat} (ho : o ≠ F.EA_RETRY_CNT_off (k / 64)) :
    (s.retire k n i cb0 pc0).rd o = s.rd o := by
  unfold Blk.retire
  dsimp only
  unfold Blk.rd
  rw [Blk.regs_work, Blk.regs_busy, Blk.regs_engKick, Blk.regs_onCtx]
  exact s.rd_retryCount k ho
@[simp] theorem Blk.td_retire (s : Blk) (k n : Nat) (i : Bool) (cb0 : Byte) (pc0 : Half) : (s.retire k n i cb0 pc0).td = s.td := by
  unfold Blk.retire
  dsimp only
  rw [Blk.td_work, Blk.td_busy, Blk.td_engKick, Blk.td_onCtx, Blk.td_retryCount]
theorem Blk.free_retire (s : Blk) (k n : Nat) (i : Bool) (cb0 : Byte) (pc0 : Half) :
    ((s.retire k n i cb0 pc0).eng (k / 8)).free = max (s.eng (k / 8)).free s.now + n := by
  unfold Blk.retire
  dsimp only
  rw [Blk.free_work, Blk.eng_busy, Blk.eng_engKick, Blk.eng_onCtx, Blk.eng_retryCount, Blk.now_busy, Blk.now_engKick, Blk.now_onCtx,
    Blk.now_retryCount]

end Sys2Proof.Machine
end

