-- ==== Sys2Proof/Laws/Mem.lean ====
section
/-! SUPPORT. The laws of bay memory: every operation on it keeps the one form of its list, a read after a write of the same and of another
word, and what a write leaves. -/

namespace Sys2Proof.Machine

/-! ### The form of the list -/

theorem setByte_wf {m : List Host.Cell} (k : Nat) (v : Byte) (h : Memory.wf m = true) : Memory.wf (setByte m k v) = true := twf_tset _ k v h

theorem State.poke_wf {s : State} (b w : Nat) (v : Half) (h : Memory.wf s.mem = true) : Memory.wf (s.poke b w v).mem = true :=
  setByte_wf _ _ (setByte_wf _ _ h)

theorem rising_filter {α : Type} {m : List (Nat × α)} (f : Nat × α → Bool) {lo : Nat} (h : rising lo m = true) :
    rising lo (m.filter f) = true := by
  induction m generalizing lo with
  | nil => rfl
  | cons p r ih =>
    obtain ⟨j, v⟩ := p
    simp only [rising, Bool.and_eq_true, decide_eq_true_eq] at h
    rw [List.filter_cons]
    split
    · simp only [rising, Bool.and_eq_true, decide_eq_true_eq]; exact ⟨h.1, ih h.2⟩
    · exact ih (rising_mono h.2 (by omega))

theorem Memory.wf_filter {m : List Host.Cell} (f : Host.Cell → Bool) (h : Memory.wf m = true) : Memory.wf (m.filter f) = true := by
  unfold Memory.wf twf at *
  simp only [Bool.and_eq_true, List.all_eq_true] at *
  exact ⟨rising_filter f h.1, fun p hp => h.2 p (List.mem_filter.1 hp).1⟩

theorem State.wipe_wf {s : State} (b : Nat) (h : Memory.wf s.mem = true) : Memory.wf (s.wipe b).mem = true := Memory.wf_filter _ h
/-- A grant and the note of a write of port A change the record of the cycle's accesses alone. -/
theorem Blk.grant_form (s : Blk) (b w req : Nat) : ∃ p, s.grant b w req = { s with ports := p } := ⟨_, rfl⟩
theorem State.wroteA_form (s : State) (b w : Nat) : ∃ p, s.wroteA b w = { s with blk := { s.blk with ports := p } } := by
  unfold State.wroteA; dsimp only; split
  · exact ⟨s.blk.ports, rfl⟩
  · exact ⟨_, rfl⟩
/-- What a write of a word does: the word, its errors, reservations on it, the record of the cycle's accesses. -/
theorem State.bmWrite_form (s : State) (b w : Nat) (v : Half) (self : Option Nat) (req : Nat) : ∃ p, s.bmWrite b w v self req =
    { s.poke b w v with blk := { s.blk with ports := p, bmErr := pdel s.blk.bmErr (bmKey b w), ctxs := breakResv s.blk.ctxs b w self } } := by
  unfold State.bmWrite
  obtain ⟨p, h⟩ := s.wroteA_form b w
  rw [h]
  exact ⟨_, rfl⟩
@[simp] theorem State.bmWrite_mem (s : State) (b w : Nat) (v : Half) (self : Option Nat) (req : Nat) :
    (s.bmWrite b w v self req).mem = (s.poke b w v).mem := by
  obtain ⟨p, h⟩ := s.bmWrite_form b w v self req; rw [h]
theorem State.bmWrite_wf {s : State} (b w : Nat) (v : Half) (self : Option Nat) (req : Nat) (h : Memory.wf s.mem = true) :
    Memory.wf (s.bmWrite b w v self req).mem = true := by
  rw [State.bmWrite_mem]; exact State.poke_wf b w v h
theorem State.bmStore_wf {s : State} (b w : Nat) (v : Half) (self : Option Nat) (h : Memory.wf s.mem = true) :
    Memory.wf (s.bmStore b w v self).mem = true := State.poke_wf b w v h

theorem State.bmWrites_wf {s : State} (b : Nat) (self : Option Nat) (l : List (Nat × Half)) (req : Nat) (h : Memory.wf s.mem = true) :
    Memory.wf (s.bmWrites b self l req).mem = true := by
  unfold State.bmWrites
  induction l generalizing s with
  | nil => exact h
  | cons a l ih => exact ih (State.bmWrite_wf _ _ _ _ _ h)

@[simp] theorem State.bmRead_mem (s : State) (b w req : Nat) : (s.bmRead b w req).1.mem = s.mem := by
  unfold State.bmRead; dsimp only; split <;> rfl
/-- A read of a word without errors changes the record of the cycle's accesses alone. -/
theorem State.bmRead_clean (s : State) {b w : Nat} (req : Nat) (h : pget s.blk.bmErr (bmKey b w) = none) :
    s.bmRead b w req = ({ s with blk := s.blk.grant b w req }, some (s.peek b w)) := by
  obtain ⟨p, hp⟩ := s.blk.grant_form b w req
  unfold State.bmRead; dsimp only
  rw [hp]; dsimp only; rw [h]; rfl
@[simp] theorem State.bmReads_mem (s : State) (b req : Nat) (l : List Nat) : (s.bmReads b req l).1.mem = s.mem := by
  induction l generalizing s with
  | nil => rfl
  | cons w l ih =>
    unfold State.bmReads
    have h := s.bmRead_mem b w req
    generalize s.bmRead b w req = r at h
    obtain ⟨t, o⟩ := r
    cases o with
    | none => exact h
    | some v =>
      dsimp only at h ⊢
      have h2 := ih t
      generalize t.bmReads b req l = r at h2
      obtain ⟨u, o⟩ := r
      cases o <;> exact h2.trans h
@[simp] theorem State.bmLine_mem (s : State) (b line req : Nat) : (s.bmLine b line req).1.mem = s.mem := by
  unfold State.bmLine
  have h := s.bmReads_mem b req ((List.range 32).map fun i => 32 * line + i)
  generalize s.bmReads b req ((List.range 32).map fun i => 32 * line + i) = r at h
  obtain ⟨t, o⟩ := r
  cases o <;> exact h
theorem State.bmPutLine_wf {s : State} (b line : Nat) (d : Line) (h : Memory.wf s.mem = true) : Memory.wf (s.bmPutLine b line d).mem = true :=
  State.bmWrites_wf _ _ _ _ h

/-! ### Reads and writes -/

@[simp] theorem memByte_setByte (m : List Host.Cell) (k : Nat) (v : Byte) : memByte (setByte m k v) k = v := tget_tset_same _ _ _ _
theorem memByte_setByte_ne (m : List Host.Cell) {k i : Nat} (v : Byte) (h : i ≠ k) : memByte (setByte m k v) i = memByte m i :=
  tget_tset_ne _ _ _ h

theorem memKey_inj {b w v : Nat} : memKey b w = memKey b v ↔ w = v := by unfold memKey; omega

theorem State.peek_poke (s : State) (b w : Nat) (v : Half) : (s.poke b w v).peek b w = v := by
  unfold State.peek State.poke
  dsimp only
  rw [memByte_setByte, memByte_setByte_ne _ _ (by omega), memByte_setByte]
  apply BitVec.eq_of_getLsbD_eq; intro i hi
  simp only [BitVec.getLsbD_append, BitVec.getLsbD_extractLsb', BitVec.getLsbD_setWidth]
  by_cases h : i < 8
  · simp [h]
  · have : i - 8 < 8 := by omega
    have : 8 + (i - 8) = i := by omega
    simp [*]

theorem State.byte_poke_ne (s : State) {b w a : Nat} (v : Half) (h : a ≠ memKey b w) (h' : a ≠ memKey b w + 1) :
    memByte (s.poke b w v).mem a = memByte s.mem a := by
  unfold State.poke
  dsimp only
  rw [memByte_setByte_ne _ _ h', memByte_setByte_ne _ _ h]

theorem State.peek_poke_ne (s : State) {b w u : Nat} (v : Half) (h : u ≠ w) : (s.poke b w v).peek b u = s.peek b u := by
  unfold State.peek
  rw [s.byte_poke_ne v (by unfold memKey; omega) (by unfold memKey; omega), s.byte_poke_ne v (by unfold memKey; omega) (by unfold memKey; omega)]

/-- What words written in a bay leave: each holds its last value. -/
theorem State.peek_bmWrites (s : State) (b : Nat) (self : Option Nat) {l : List (Nat × Half)} (req : Nat) (hd : (l.map (·.1)).Nodup) {p : Nat × Half} (hp : p ∈ l) :
    (s.bmWrites b self l req).peek b p.1 = p.2 := by
  unfold State.bmWrites
  have keep : ∀ (l : List (Nat × Half)) (s : State) (w : Nat), w ∉ l.map (·.1) →
      (l.foldl (fun s x => s.bmWrite b x.1 x.2 self req) s).peek b w = s.peek b w := by
    intro l
    induction l with
    | nil => intro s w _; rfl
    | cons a l ih =>
      intro s w hw
      simp only [List.map_cons, List.mem_cons, not_or] at hw
      rw [List.foldl_cons, ih _ _ hw.2]
      unfold State.peek; rw [State.bmWrite_mem]; exact s.peek_poke_ne a.2 hw.1
  induction l generalizing s with
  | nil => cases hp
  | cons a l ih =>
    simp only [List.map_cons, List.nodup_cons] at hd
    rw [List.foldl_cons]
    rcases List.mem_cons.1 hp with rfl | hp
    · rw [keep _ _ _ hd.1]; unfold State.peek; rw [State.bmWrite_mem]; exact s.peek_poke b p.1 p.2
    · exact ih _ hd.2 hp

theorem State.byte_bmWrites (s : State) (b : Nat) (self : Option Nat) {l : List (Nat × Half)} (req : Nat) {a : Nat}
    (h : ∀ p, p ∈ l → a ≠ memKey b p.1 ∧ a ≠ memKey b p.1 + 1) : memByte (s.bmWrites b self l req).mem a = memByte s.mem a := by
  unfold State.bmWrites
  induction l generalizing s with
  | nil => rfl
  | cons p l ih =>
    rw [List.foldl_cons, ih _ fun q hq => h q (by simp [hq]), State.bmWrite_mem]
    exact s.byte_poke_ne p.2 (h p (by simp)).1 (h p (by simp)).2

theorem State.bmErr_bmWrites (s : State) (b : Nat) (self : Option Nat) (l : List (Nat × Half)) (req i : Nat) :
    pget (s.bmWrites b self l req).blk.bmErr i = if i ∈ l.map (fun p => bmKey b p.1) then none else pget s.blk.bmErr i := by
  unfold State.bmWrites
  induction l generalizing s with
  | nil => rfl
  | cons p l ih =>
    rw [List.foldl_cons, ih]
    have e : pget (s.bmWrite b p.1 p.2 self req).blk.bmErr i = if i = bmKey b p.1 then none else pget s.blk.bmErr i := by
      obtain ⟨q, hq⟩ := s.bmWrite_form b p.1 p.2 self req
      rw [hq]
      change pget (pdel s.blk.bmErr (bmKey b p.1)) i = _
      by_cases h : i = bmKey b p.1
      · rw [if_pos h, h]; simp
      · rw [if_neg h, pget_pdel_ne _ h]
    rw [e, List.map_cons]
    by_cases h1 : i = bmKey b p.1
    · simp [h1]
    · by_cases h2 : i ∈ l.map (fun p => bmKey b p.1) <;> simp [h1, h2]

/-- A write of bay memory changes the errors and the reservations of the block and the record of the cycle's accesses, nothing else. -/
theorem State.bmWrites_blk (s : State) (b : Nat) (self : Option Nat) (l : List (Nat × Half)) (req : Nat) : ∃ q e c,
    (s.bmWrites b self l req).blk = { s.blk with ports := q, bmErr := e, ctxs := c } := by
  unfold State.bmWrites
  induction l generalizing s with
  | nil => exact ⟨_, _, _, rfl⟩
  | cons p l ih =>
    rw [List.foldl_cons]
    obtain ⟨q, e, c, h⟩ := ih (s := s.bmWrite b p.1 p.2 self req)
    obtain ⟨q2, h2⟩ := s.bmWrite_form b p.1 p.2 self req
    exact ⟨q, e, c, by rw [h, h2]⟩
@[simp] theorem State.bmWrites_pending (s : State) (b : Nat) (self : Option Nat) (l : List (Nat × Half)) (req : Nat) :
    (s.bmWrites b self l req).pending = s.pending := by
  unfold State.bmWrites
  induction l generalizing s with
  | nil => rfl
  | cons p l ih =>
    obtain ⟨q, h⟩ := s.bmWrite_form b p.1 p.2 self req
    rw [List.foldl_cons, ih, h]; rfl

theorem pget_map {α : Type} (f : Nat × α → Nat × α) (hf : ∀ p, (f p).1 = p.1) (m : List (Nat × α)) (k : Nat) :
    pget (m.map f) k = (pget m k).map fun v => (f (k, v)).2 := by
  induction m with
  | nil => rfl
  | cons p r ih =>
    obtain ⟨j, v⟩ := p
    rw [List.map_cons]
    have h := hf (j, v)
    generalize hq : f (j, v) = q at h ⊢
    obtain ⟨i, w⟩ := q
    dsimp only at h; subst h
    unfold pget
    by_cases hj : i = k
    · subst hj; simp [hq]
    · simp [hj, ih]

/-- A context after words are written by context `k`: the same, a reservation of another context of the bay on one of them broken. -/
theorem State.ctx_bmWrites (s : State) (b k : Nat) (l : List (Nat × Half)) (req j : Nat) :
    (s.bmWrites b (some k) l req).blk.ctx j = { s.blk.ctx j with
      resv := if j / 64 = b ∧ j ≠ k ∧ ∃ p, p ∈ l ∧ (s.blk.ctx j).resv = some p.1 then none else (s.blk.ctx j).resv } := by
  have one : ∀ (s : State) (p : Nat × Half), (s.bmWrite b p.1 p.2 (some k) req).blk.ctx j = { s.blk.ctx j with
      resv := if j / 64 = b ∧ j ≠ k ∧ (s.blk.ctx j).resv = some p.1 then none else (s.blk.ctx j).resv } := by
    intro s p
    obtain ⟨q, hq⟩ := s.bmWrite_form b p.1 p.2 (some k) req
    rw [hq]
    change tget (fun _ => Ctx.reset) (breakResv s.blk.ctxs b p.1 (some k)) j = _
    unfold breakResv tget Blk.ctx tget
    rw [pget_map _ (by intro q; split <;> rfl)]
    cases h : pget s.blk.ctxs j with
    | none => simp [Ctx.reset]
    | some x =>
      simp only [Option.map_some, Option.getD_some]
      by_cases hc : j / 64 = b ∧ j ≠ k ∧ x.resv = some p.1
      · rw [if_pos hc, if_pos ⟨hc.1, hc.2.2, fun e => hc.2.1 (Option.some.inj e).symm⟩]
      · rw [if_neg hc, if_neg fun e => hc ⟨e.1, fun f => e.2.2 (by rw [f]), e.2.1⟩]
  unfold State.bmWrites
  induction l generalizing s with
  | nil => simp
  | cons p l ih =>
    rw [List.foldl_cons, ih, one]
    dsimp only
    congr 1
    by_cases h1 : j / 64 = b
    · by_cases h2 : j = k
      · simp [h2]
      · by_cases h3 : (s.blk.ctx j).resv = some p.1
        · simp [h1, h2, h3]
        · have e : (∃ q, q ∈ p :: l ∧ (s.blk.ctx j).resv = some q.1) ↔ ∃ q, q ∈ l ∧ (s.blk.ctx j).resv = some q.1 := by
            simp [h3]
          rw [if_neg (c := j / 64 = b ∧ j ≠ k ∧ (s.blk.ctx j).resv = some p.1) fun f => h3 f.2.2]
          simp only [e]
    · simp [h1]

/-! ### Port B and passing time -/

theorem State.portBWord_wf {s : State} (b : Nat) (x : PortB) (i : Nat) (h : Memory.wf s.mem = true) : Memory.wf (s.portBWord b x i).1.mem = true := by
  unfold State.portBWord
  generalize xchgBase + 32 * x.line + i = w
  by_cases hw : x.wr = true
  · simp only [hw, if_true]
    by_cases ho : (pget s.blk.portsNow.wrote (bmKey b w)).isSome = true
    · simp only [ho, if_true]; exact h
    · simp only [ho, if_false, Bool.false_eq_true]; exact State.bmStore_wf _ _ _ _ h
  · simp only [hw, if_false, Bool.false_eq_true]; rw [State.bmRead_mem]; exact h
theorem State.portBOne_wf {s : State} (b : Nat) (h : Memory.wf s.mem = true) : Memory.wf (s.portBOne b).mem = true := by
  unfold State.portBOne
  split
  · rename_i x _
    split
    · have key : ∀ (l : List Nat) (t : State × PortB), Memory.wf t.1.mem = true →
          Memory.wf (l.foldl (fun (t : State × PortB) i => t.1.portBWord b t.2 (x.done + i)) t).1.mem = true := by
        intro l
        induction l with
        | nil => intro t ht; exact ht
        | cons i l ih => intro t ht; exact ih _ (State.portBWord_wf b t.2 _ ht)
      have := key (List.range 4) (s, x) h
      generalize List.foldl _ _ _ = r at this
      obtain ⟨t, y⟩ := r
      dsimp only at this ⊢
      split <;> exact this
    · exact h
  · exact h
theorem State.portB_wf (n : Nat) : ∀ {s : State}, Memory.wf s.mem = true → Memory.wf (s.portB n).mem = true := by
  induction n with
  | zero => intro s h; exact h
  | succ n ih =>
    intro s h
    have key : ∀ (l : List Nat) (t : State), Memory.wf t.mem = true → Memory.wf (l.foldl State.portBOne t).mem = true := by
      intro l
      induction l with
      | nil => intro t ht; exact ht
      | cons b l ih => intro t ht; exact ih _ (State.portBOne_wf b ht)
    unfold State.portB
    have h2 := key (List.range 32) s h
    generalize List.foldl State.portBOne s (List.range 32) = t at h2
    exact ih h2
/-- Passing time keeps the form of bay memory. -/
theorem State.pass_wf {s : State} (dt : Nat) (h : Memory.wf s.mem = true) : Memory.wf (s.pass dt).mem = true := by
  unfold State.pass State.portBFor
  dsimp only
  split
  · exact h
  · exact State.portB_wf _ h
theorem State.portBFor_zero (s : State) : s.portBFor 0 = s := by
  unfold State.portBFor
  by_cases h : (s.blk.xfer.isEmpty || s.blk.blockHalted) = true
  · simp only [h, if_true]
  · rw [if_neg h]
    have e : min 0 (8 * s.blk.xfer.length) = 0 := Nat.zero_min _
    simp only [e]
    rw [State.portB]
/-- No cycle passes. -/
@[simp] theorem State.pass_zero (s : State) : s.pass 0 = s := by
  unfold State.pass
  rw [State.portBFor_zero]; rfl

end Sys2Proof.Machine
end

