-- ==== Sys2Proof/Laws/Zaell.lean ====
section
/-! SUPPORT. What an instruction that can execute does: its own effect, then retirement; and that an operation on registers and flags changes
nothing else. -/

namespace Sys2Proof.Machine

/-! ### Changes of registers and flags -/

/-- `y` is `x` but for registers `dst` of the bank in use and the flags. -/
structure Ctx.Writes (x y : Ctx) (dst : List Nat) : Prop where
  same : { y with g := x.g, gErr := x.gErr, sw := x.sw } = x
  sw   : y.sw &&& 0xFFF0 = x.sw &&& 0xFFF0
  regs : ∀ i, i ∉ dst.map x.gi → tget (fun _ => 0) y.g i = tget (fun _ => 0) x.g i

theorem sw_bank {a b : Half} (h : a &&& 0xFFF0 = b &&& 0xFFF0) : a.getLsbD 12 = b.getLsbD 12 := by
  have := congrArg (fun v => v.getLsbD 12) h
  simpa using this

theorem Ctx.Writes.bank {x y : Ctx} {dst : List Nat} (h : x.Writes y dst) : y.gi = x.gi := by
  funext n; unfold Ctx.gi; rw [sw_bank h.sw]

theorem Ctx.Writes.refl (x : Ctx) (dst : List Nat) : x.Writes x dst := ⟨rfl, rfl, fun _ _ => rfl⟩

theorem Ctx.Writes.trans {x y z : Ctx} {dst : List Nat} (h : x.Writes y dst) (k : y.Writes z dst) : x.Writes z dst := by
  refine ⟨?_, k.sw.trans h.sw, fun i hi => ?_⟩
  · have h1 := h.same; have k1 := k.same; rw [← k1] at h1; exact h1
  · rw [k.regs i (by rw [h.bank]; exact hi), h.regs i hi]

theorem Ctx.gi_lt (x : Ctx) (n : Nat) : x.gi n < 64 := by unfold Ctx.gi; split <;> omega
theorem Ctx.gi_inj (x : Ctx) {m n : Nat} : x.gi m = x.gi n ↔ m % 32 = n % 32 := by unfold Ctx.gi; split <;> omega
@[simp] theorem Ctx.gi_mod (x : Ctx) (n : Nat) : x.gi (n % 32) = x.gi n := by unfold Ctx.gi; simp

theorem Ctx.gw_eq (x : Ctx) (n : Nat) (v : Half) :
    x.gw n v = { x with g := tset (fun _ => 0) x.g (x.gi n) v, gErr := pdel x.gErr (x.gi n) } := by
  unfold Ctx.gw Ctx.gset; rw [if_pos (x.gi_lt n)]

@[simp] theorem Ctx.gw_sw (x : Ctx) (n : Nat) (v : Half) : (x.gw n v).sw = x.sw := by rw [Ctx.gw_eq]
@[simp] theorem Ctx.gw_gi (x : Ctx) (n m : Nat) (v : Half) : (x.gw n v).gi m = x.gi m := by rw [Ctx.gw_eq]; rfl
@[simp] theorem Ctx.gw_flags (x : Ctx) (n : Nat) (v : Half) : (x.gw n v).flags = x.flags := by rw [Ctx.gw_eq]; rfl
theorem Ctx.gr_gw (x : Ctx) (n m : Nat) (v : Half) : (x.gw n v).gr m = if m % 32 = n % 32 then v else x.gr m := by
  unfold Ctx.gr; rw [Ctx.gw_gi, Ctx.gw_eq]
  by_cases h : m % 32 = n % 32
  · rw [if_pos h, (x.gi_inj).2 h]; simp
  · rw [if_neg h]; exact tget_tset_ne _ _ _ (fun e => h ((x.gi_inj).1 e))
@[simp] theorem Ctx.gr_mod (x : Ctx) (n : Nat) : x.gr (n % 32) = x.gr n := by unfold Ctx.gr; simp

theorem Ctx.writes_gw (x : Ctx) {n : Nat} (v : Half) {dst : List Nat} (h : x.gi n ∈ dst.map x.gi) : x.Writes (x.gw n v) dst := by
  rw [Ctx.gw_eq]
  exact ⟨rfl, rfl, fun i hi => tget_tset_ne _ _ _ (fun e => hi (e ▸ h))⟩

theorem Nzcv.bits_lt (f : Nzcv) : f.bits &&& 0xFFF0 = 0 := by
  obtain ⟨n, z, c, v⟩ := f
  cases n <;> cases z <;> cases c <;> cases v <;> decide

theorem Ctx.writes_setFlags (x : Ctx) (f : Nzcv) (dst : List Nat) : x.Writes (x.setFlags f) dst := by
  refine ⟨rfl, ?_, fun _ _ => rfl⟩
  unfold Ctx.setFlags
  have h := f.bits_lt
  generalize f.bits = w at h ⊢
  apply BitVec.eq_of_getLsbD_eq; intro i hi
  have h2 := congrArg (fun v => v.getLsbD i) h
  simp only [BitVec.getLsbD_and, BitVec.getLsbD_or] at h2 ⊢
  cases h3 : (0xFFF0 : Half).getLsbD i <;> simp_all

@[simp] theorem Ctx.flags_setFlags (x : Ctx) (f : Nzcv) : (x.setFlags f).flags = f := by
  obtain ⟨n, z, c, v⟩ := f
  cases n <;> cases z <;> cases c <;> cases v <;> simp [Ctx.setFlags, Ctx.flags, Nzcv.bits]
@[simp] theorem Ctx.g_setFlags (x : Ctx) (f : Nzcv) : (x.setFlags f).g = x.g := rfl
@[simp] theorem Ctx.gi_setFlags (x : Ctx) (f : Nzcv) : (x.setFlags f).gi = x.gi := (x.writes_setFlags f []).bank
@[simp] theorem Ctx.gr_setFlags (x : Ctx) (f : Nzcv) : (x.setFlags f).gr = x.gr := by
  funext n; unfold Ctx.gr; rw [Ctx.gi_setFlags]; rfl
@[simp] theorem Ctx.val_setFlags (x : Ctx) (f : Nzcv) (r n : Nat) : (x.setFlags f).val r n = x.val r n := by
  unfold Ctx.val; simp

theorem Ctx.foldl_writes (l : List Nat) (n : Nat → Nat) (v : Nat → Half) (dst : List Nat) :
    ∀ x : Ctx, (∀ i ∈ l, x.gi (n i) ∈ dst.map x.gi) → x.Writes (l.foldl (fun c i => c.gw (n i) (v i)) x) dst := by
  induction l with
  | nil => intro x _; exact .refl x dst
  | cons a l ih =>
    intro x h
    have h1 := x.writes_gw (v a) (h a (by simp))
    refine h1.trans (ih _ fun i hi => ?_)
    rw [h1.bank]; exact h i (by simp [hi])

theorem Ctx.writes_put (x : Ctx) (r n v : Nat) : x.Writes (x.put r n v) (regsOf r n) := by
  unfold Ctx.put
  refine Ctx.foldl_writes _ _ _ _ x fun i hi => ?_
  simp only [regsOf, List.map_map, List.mem_map, Function.comp]
  exact ⟨i, hi, rfl⟩

@[simp] theorem Ctx.flags_put (x : Ctx) (r n v : Nat) : (x.put r n v).flags = x.flags := by
  unfold Ctx.put
  generalize List.range n = l
  generalize hf : (fun (c : Ctx) i => c.gw ((r + i) % 32) (BitVec.ofNat 16 (v / 2 ^ (16 * (n - 1 - i))))) = f
  have : ∀ c i, (f c i).flags = c.flags := by intro c i; subst hf; simp
  clear hf
  induction l generalizing x with
  | nil => rfl
  | cons a l ih => simp only [List.foldl_cons]; rw [ih, this]

/-- An operand that takes a value holds it, when its registers are different ones. -/
theorem Ctx.val_put (x : Ctx) (r : Nat) {n v : Nat} (hn : n = 1 ∨ n = 2 ∨ n = 4) (hv : v < 2 ^ (16 * n)) : (x.put r n v).val r n = v := by
  rcases hn with rfl | rfl | rfl
  · simp [Ctx.put, Ctx.val, regsOf, List.range_succ, Ctx.gr_gw]
    omega
  · have h1 : ¬ r % 32 = (r + 1) % 32 := by omega
    simp [Ctx.put, Ctx.val, regsOf, List.range_succ, Ctx.gr_gw, h1]
    omega
  · have h1 : ¬ r % 32 = (r + 1) % 32 := by omega
    have h2 : ¬ r % 32 = (r + 2) % 32 := by omega
    have h3 : ¬ r % 32 = (r + 3) % 32 := by omega
    have h4 : ¬ (r + 1) % 32 = (r + 2) % 32 := by omega
    have h5 : ¬ (r + 1) % 32 = (r + 3) % 32 := by omega
    have h6 : ¬ (r + 2) % 32 = (r + 3) % 32 := by omega
    simp [Ctx.put, Ctx.val, regsOf, List.range_succ, Ctx.gr_gw, h1, h2, h3, h4, h5, h6]
    omega

theorem Ctx.val_lt (x : Ctx) (r : Nat) {n : Nat} : x.val r n < 2 ^ (16 * n) := by
  have key : ∀ (l : List Nat) (a m : Nat), a < 2 ^ (16 * m) →
      l.foldl (fun a i => a * 2 ^ 16 + (x.gr i).toNat) a < 2 ^ (16 * (m + l.length)) := by
    intro l
    induction l with
    | nil => intro a m h; simpa using h
    | cons i l ih =>
      intro a m h
      simp only [List.foldl_cons, List.length_cons]
      have := ih (a * 2 ^ 16 + (x.gr i).toNat) (m + 1) (by
        have h2 := (x.gr i).isLt
        have : 2 ^ (16 * (m + 1)) = 2 ^ (16 * m) * 2 ^ 16 := by rw [Nat.mul_add, Nat.pow_add]
        rw [this]; omega)
      rw [show m + (l.length + 1) = m + 1 + l.length by omega]; exact this
  have := key (regsOf r n) 0 0 (by simp)
  simpa [Ctx.val, regsOf] using this

/-! ### Execution -/

/-- Reads of words without errors change the record of the cycle's accesses alone. -/
theorem bmReads_clean (s : State) (b req : Nat) (l : List Nat) (h : ∀ w ∈ l, pget s.blk.bmErr (bmKey b w) = none) :
    ∃ p, s.bmReads b req l = ({ s with blk := { s.blk with ports := p } }, some (l.map (s.peek b))) := by
  induction l generalizing s with
  | nil => exact ⟨s.blk.ports, rfl⟩
  | cons w l ih =>
    have h1 := s.bmRead_clean req (h w (by simp))
    obtain ⟨q, hq⟩ := s.blk.grant_form b w req
    obtain ⟨p, hp⟩ := ih { s with blk := s.blk.grant b w req } fun v hv => by rw [hq]; exact h v (by simp [hv])
    unfold State.bmReads; rw [h1]; dsimp only; rw [hp]; dsimp only
    exact ⟨p, by rw [hq]; rfl⟩

/-- The requester code of a context's engine depends on the registers alone. -/
theorem Blk.engReq_congr {s t : Blk} (h : t.regs = s.regs) (k : Nat) : t.engReq k = s.engReq k := by
  unfold Blk.engReq Blk.slotOf Blk.bit Blk.fld Blk.rd; rw [h]
@[simp] theorem Blk.regs_regFix (s : Blk) (k : Nat) (l : List Nat) : (s.regFix k l).regs = s.regs := by
  unfold Blk.regFix; dsimp only; rw [Blk.regs_onCtx]

/-- Where bay memory serves a context, its instruction meets no other requester's grant. -/
theorem Blk.serves_clash {s : Blk} {k : Nat} (h : s.serves k = true) (t : Blk) : s.clash t (k / 64) (s.engReq k) = false := by
  unfold Blk.serves at h
  simp only [Bool.and_eq_true, List.all_eq_true] at h
  unfold Blk.clash
  rw [List.any_eq_false]
  intro x hx
  have := h.2 x hx
  simp only [Bool.or_eq_true, bne_iff_ne, beq_iff_eq, Bool.and_eq_true, not_and] at this ⊢
  intro h1
  rcases this with (h2 | h2) | h2
  · exact absurd h1.1.1 h2
  · exact absurd h2 h1.1.2
  · exact absurd h2 h1.2

/-- One instruction that can execute: its own effect on the state, its end applied. -/
theorem zaellRun_runs {s : State} {c : CtxRef} {len : Nat} {alu : Bool} {regs : ZRegs} (h : s.runs c len alu regs = true) (i : Bool)
    (body : State → State × ZEnd) :
    s.zaellRun c len true alu i regs body = (s.fixed c len regs).zend (body (s.fixed c len regs)).1 (ctxKey c) len i (body (s.fixed c len regs)).2 := by
  simp only [State.runs, Bool.and_eq_true, Bool.not_eq_true', List.all_eq_true, List.mem_range, Option.isNone_iff_eq_none] at h
  obtain ⟨⟨⟨⟨⟨⟨⟨⟨⟨⟨⟨⟨h1, h2⟩, h3⟩, _⟩, _⟩, h6⟩, h7⟩, h8⟩, h9⟩, h10⟩, h11⟩, h12⟩, _⟩ := h
  have hready : s.blk.bmReady (ctxKey c / 64) = true := by unfold Blk.serves at h11; simp only [Bool.and_eq_true] at h11; exact h11.1
  have hcode : ((List.range len).map fun i => (s.blk.ctx (ctxKey c)).pc.toNat + i).find?
      (fun o => (s.blk.ctx (ctxKey c)).farBad || !codeAt (s.blk.ctx (ctxKey c)).cb.toNat o) = none := by
    simp only [List.find?_eq_none, List.mem_map, List.mem_range]
    rintro o ⟨i, hi, rfl⟩
    simp [(h6 i hi).1, h12]
  obtain ⟨p, hread⟩ := bmReads_clean s (ctxKey c / 64) (s.blk.engReq (ctxKey c))
    (((List.range len).map fun i => (s.blk.ctx (ctxKey c)).pc.toNat + i).map fun o => bayWord (s.blk.ctx (ctxKey c)).cb.toNat o) (by
      simp only [List.mem_map, List.mem_range]
      rintro w ⟨o, ⟨i, hi, rfl⟩, rfl⟩
      exact (h6 i hi).2)
  have hpend : ((s.blk.ctx (ctxKey c)).allPlaces regs.reads ++ (s.blk.ctx (ctxKey c)).allPlaces regs.writes).find?
      (fun i => s.blk.pendingReg (ctxKey c) i) = none := by
    simp only [List.find?_eq_none]
    intro i hi; simp [h7 i hi]
  have hpar : ((s.blk.ctx (ctxKey c)).allPlaces regs.reads).any (fun i => (pget (s.blk.ctx (ctxKey c)).parErr i).isSome) = false := by
    simp only [List.any_eq_false]
    intro i hi; simp [h9 i hi]
  unfold State.zaellRun State.fixed
  dsimp only
  rw [if_neg (by simp [h1]), if_neg (by simp [hready]), if_neg (by simp [h2]), if_neg (by simp [h3]), hcode]
  dsimp only
  rw [show (s.ctxOf c) = s.blk.ctx (ctxKey c) from rfl, hread]
  dsimp only
  have hp2 : ∀ i, ({ s.blk with ports := p } : Blk).pendingReg (ctxKey c) i = s.blk.pendingReg (ctxKey c) i := fun _ => rfl
  have hi2 : ({ s.blk with ports := p } : Blk).injects (ctxKey c) = s.blk.injects (ctxKey c) := rfl
  simp only [hp2, hi2]
  rw [if_neg (by simp), hpend]
  dsimp only
  rw [if_neg (by simp [h8]), if_neg (by simp [hpar]), if_neg (by simp [h10])]
  generalize body _ = r
  obtain ⟨t, e⟩ := r
  dsimp only
  rw [if_neg (by rw [Blk.engReq_congr (s := s.blk) (by rw [Blk.regs_regFix]), Blk.serves_clash h11]; simp)]

/-- The same for an instruction whose own effect does not reach the Trust and Debug Unit, with what surrounds it. -/
theorem zaell_runs {s : State} {c : CtxRef} {len : Nat} {alu : Bool} {regs : ZRegs} (h : s.runs c len alu regs = true) (i : Bool)
    (body : State → State × ZEnd)
    (ht : ((s.fixed c len regs).zend (body (s.fixed c len regs)).1 (ctxKey c) len i (body (s.fixed c len regs)).2).blk.td = s.blk.td) :
    s.zaell c len true alu i regs body = (s.fixed c len regs).zend (body (s.fixed c len regs)).1 (ctxKey c) len i (body (s.fixed c len regs)).2 := by
  have h' := h
  simp only [State.runs, Bool.and_eq_true, Bool.not_eq_true', Option.isNone_iff_eq_none] at h
  obtain ⟨⟨⟨⟨⟨⟨⟨⟨⟨⟨⟨⟨_, _⟩, _⟩, h4⟩, h5⟩, _⟩, _⟩, _⟩, _⟩, _⟩, _⟩, _⟩, _⟩ := h
  unfold State.zaell
  rw [if_neg (by rw [h5]; simp), if_neg (by rw [h4]; simp)]
  dsimp only
  rw [zaellRun_runs h']
  unfold State.stepDone
  split
  · generalize hu : State.zend _ _ _ _ _ _ = u at ht ⊢
    have : u.blk.stepEnd (ctxKey c) = u.blk := by unfold Blk.stepEnd; rw [ht, h5]
    rw [this]
  · rfl

/-- What the count of a lock changes. -/
theorem Ctx.countLock_form (x : Ctx) : x.countLock =
    { x with lock := x.countLock.lock, lockLen := x.countLock.lockLen, resv := x.countLock.resv, lockOut := x.countLock.lockOut } := by
  unfold Ctx.countLock Ctx.unlock
  by_cases h : x.lock
  · rw [if_pos h]
    by_cases h2 : x.lockLen + 1 < 16
    · rw [if_pos h2]
    · rw [if_neg h2]
  · rw [if_neg h]

/-- It depends on the lock alone. -/
theorem Ctx.countLock_congr {x y : Ctx} (h1 : x.lock = y.lock) (h2 : x.lockLen = y.lockLen) (h3 : x.resv = y.resv) (h4 : x.lockOut = y.lockOut) :
    x.countLock.lock = y.countLock.lock ∧ x.countLock.lockLen = y.countLock.lockLen ∧ x.countLock.resv = y.countLock.resv ∧
    x.countLock.lockOut = y.countLock.lockOut := by
  unfold Ctx.countLock Ctx.unlock
  rw [h1, h2]
  by_cases h : y.lock
  · rw [if_pos h, if_pos h]
    by_cases h2 : y.lockLen + 1 < 16
    · rw [if_pos h2, if_pos h2]; exact ⟨rfl, rfl, h3, h4⟩
    · rw [if_neg h2, if_neg h2]; exact ⟨rfl, rfl, rfl, rfl⟩
  · rw [if_neg h, if_neg h]; exact ⟨h1, h2, h3, h4⟩

theorem Ctx.retired_form (x : Ctx) (cb0 : Byte) (pc0 : Half) : x.retired cb0 pc0 =
    { x with lock := x.countLock.lock, lockLen := x.countLock.lockLen, resv := x.countLock.resv, lockOut := x.countLock.lockOut,
             attempt := 0, u := { x.u with start := none, issued := false }, tripled := (x.retired cb0 pc0).tripled } := by
  unfold Ctx.retired
  dsimp only
  rw [x.countLock_form]

theorem Ctx.alike.retired {x y : Ctx} (h : x.alike y) (cb0 : Byte) (pc0 : Half) : (x.retired cb0 pc0).alike (y.retired cb0 pc0) := by
  obtain ⟨h⟩ := h
  obtain ⟨e1, e2, e3, e4⟩ := Ctx.countLock_congr (x := x) (y := y) (by rw [← h]) (by rw [← h]) (by rw [← h]) (by rw [← h])
  have e5 : (x.retired cb0 pc0).tripled = (y.retired cb0 pc0).tripled := by rw [← h]; rfl
  rw [x.retired_form, y.retired_form, e1, e2, e3, e4, e5]
  generalize y.countLock.lock = a
  generalize y.countLock.lockLen = b
  generalize y.countLock.resv = c
  generalize y.countLock.lockOut = d
  generalize (y.retired cb0 pc0).tripled = e
  rw [← h]
  exact ⟨rfl⟩

theorem Ctx.alike.withPc {x y : Ctx} (h : x.alike y) (p : Half) : Ctx.alike { x with pc := p } { y with pc := p } := by
  obtain ⟨h⟩ := h; rw [← h]; exact ⟨rfl⟩

/-- The end of an instruction that retires and is followed by the next. -/
theorem zend_next (s0 s : State) (k len cyc : Nat) (i : Bool) :
    let t := (s0.zend s k len i (.next cyc))
    (t.blk.ctx k).alike { (s.blk.ctx k).retired (s0.blk.ctx k).cb (s0.blk.ctx k).pc with pc := (s0.blk.ctx k).pc + BitVec.ofNat 16 len } ∧
    (∀ j, j ≠ k → (t.blk.ctx j).alike (s.blk.ctx j)) ∧ s.blk.near t.blk ∧
    (∀ o, o ≠ F.EA_RETRY_CNT_off (k / 64) → t.blk.rd o = s.blk.rd o) ∧ t.blk.td = s.blk.td ∧
    max (s.blk.eng (k / 8)).free s.blk.now + cyc ≤ (t.blk.eng (k / 8)).free ∧ t.mem = s.mem ∧ t.pending = s.pending := by
  dsimp only [State.zend]
  generalize hc0 : s0.blk.ctx k = c0
  generalize hr : s.blk.retire k cyc i c0.cb c0.pc = r
  generalize hf : (fun c : Ctx => { c with pc := c0.pc + BitVec.ofNat 16 len }) = f
  have hk : (r.onCtx k f).ctx k |>.alike { (s.blk.ctx k).retired c0.cb c0.pc with pc := c0.pc + BitVec.ofNat 16 len } := by
    refine (r.ctx_onCtx k f).trans ?_
    subst hf hr
    exact (s.blk.retire_ctx k cyc i c0.cb c0.pc).withPc _
  have hj : ∀ j, j ≠ k → (r.onCtx k f).ctx j = s.blk.ctx j := by
    intro j hj
    rw [r.ctx_onCtx_ne f hj, ← hr, s.blk.retire_ctx_ne _ _ _ _ hj]
  have hn : s.blk.near (r.onCtx k f) := by
    rw [← hr]; exact (s.blk.near_retire _ _ _ _ _).trans (Blk.near_onCtx _ _ _)
  have ho : ∀ o, o ≠ F.EA_RETRY_CNT_off (k / 64) → (r.onCtx k f).rd o = s.blk.rd o := by
    intro o ho; unfold Blk.rd; rw [r.regs_onCtx, ← hr]; exact s.blk.rd_retire _ _ _ _ _ ho
  have ht : (r.onCtx k f).td = s.blk.td := by rw [r.td_onCtx, ← hr, s.blk.td_retire]
  have he : max (s.blk.eng (k / 8)).free s.blk.now + cyc = ((r.onCtx k f).eng (k / 8)).free := by
    rw [r.eng_onCtx, ← hr, s.blk.free_retire]
  generalize r.onCtx k f = u at hk hj hn ho ht he
  rcases u.powerLeave_cases k with h | h <;> rw [h]
  · exact ⟨hk, fun j h => by rw [hj j h]; exact Ctx.alike_refl _, hn, ho, ht, Nat.le_of_eq he, rfl, rfl⟩
  · refine ⟨(u.ctx_leave k k _ _).trans hk, fun j h => ?_, hn.trans (u.near_leave _ _ _), fun o h => ?_, (u.td_leave k _ _).trans ht, ?_, rfl, rfl⟩
    · have := u.ctx_leave k j .ready none; rw [hj j h] at this; exact this
    · unfold Blk.rd; rw [u.regs_leave]; exact ho o h
    · rw [he]; exact u.free_leave k _ _

theorem Ctx.alike.form {x y : Ctx} (h : x.alike y) : ∃ a b w, x = { y with st := a, waitFor := b, wd := w } := by
  obtain ⟨h⟩ := h.symm; exact ⟨_, _, _, h.symm⟩
theorem Ctx.Writes.form {x y : Ctx} {dst : List Nat} (h : x.Writes y dst) : ∃ g e w, y = { x with g := g, gErr := e, sw := w } := by
  obtain ⟨h, _, _⟩ := h; exact ⟨y.g, y.gErr, y.sw, by rw [← h]⟩

/-- What the fetch and the correction of registers do for an instruction that can execute. -/
theorem fixed_form {s : State} {c : CtxRef} {len : Nat} {alu : Bool} {regs : ZRegs} (h : s.runs c len alu regs = true) :
    ∃ p, s.fixed c len regs = { s with blk := ({ s.blk with ports := p }).regFix (ctxKey c) ((s.ctxOf c).allPlaces regs.reads) } := by
  simp only [State.runs, Bool.and_eq_true, Bool.not_eq_true', List.all_eq_true, List.mem_range, Option.isNone_iff_eq_none] at h
  obtain ⟨⟨⟨⟨⟨⟨⟨⟨⟨⟨⟨⟨_, _⟩, _⟩, _⟩, _⟩, h6⟩, _⟩, _⟩, _⟩, _⟩, _⟩, _⟩, _⟩ := h
  obtain ⟨p, hread⟩ := bmReads_clean s (ctxKey c / 64) (s.blk.engReq (ctxKey c))
    (((List.range len).map fun i => (s.ctxOf c).pc.toNat + i).map fun o => bayWord (s.ctxOf c).cb.toNat o) (by
      simp only [List.mem_map, List.mem_range]
      rintro w ⟨o, ⟨i, hi, rfl⟩, rfl⟩
      exact (h6 i hi).2)
  exact ⟨p, by unfold State.fixed; dsimp only; rw [hread]⟩
/-- A correction of registers is a change of the context and of the count. -/
theorem regFix_form (s : Blk) (k : Nat) (l : List Nat) : ∃ n, s.regFix k l = ({ s with regCe := n }).onCtx k fun x => x.regFix l := ⟨_, rfl⟩
theorem fixed_ctx {s : State} {c : CtxRef} {len : Nat} {alu : Bool} {regs : ZRegs} (h : s.runs c len alu regs = true) :
    ((s.fixed c len regs).ctxOf c).alike { s.ctxOf c with gErr := ((s.fixed c len regs).ctxOf c).gErr } := by
  obtain ⟨p, hp⟩ := fixed_form h
  obtain ⟨n, hn⟩ := regFix_form { s.blk with ports := p } (ctxKey c) ((s.ctxOf c).allPlaces regs.reads)
  rw [hp, hn]
  have h : ((({ s.blk with ports := p, regCe := n } : Blk).onCtx (ctxKey c) fun x => x.regFix ((s.ctxOf c).allPlaces regs.reads)).ctx (ctxKey c)).alike
      ((s.ctxOf c).regFix ((s.ctxOf c).allPlaces regs.reads)) := Blk.ctx_onCtx _ _ _
  obtain ⟨a, b, w, h⟩ := h.form
  rw [State.ctxOf]; dsimp only; rw [h]; exact ⟨rfl⟩
theorem fixed_near {s : State} {c : CtxRef} {len : Nat} {alu : Bool} {regs : ZRegs} (h : s.runs c len alu regs = true) :
    s.blk.near (s.fixed c len regs).blk := by
  obtain ⟨p, hp⟩ := fixed_form h
  obtain ⟨n, hn⟩ := regFix_form { s.blk with ports := p } (ctxKey c) ((s.ctxOf c).allPlaces regs.reads)
  rw [hp, hn]
  generalize hu : ({ s.blk with ports := p, regCe := n } : Blk) = u
  have h1 : s.blk.near u := by subst hu; exact ⟨rfl⟩
  exact h1.trans (u.near_onCtx (ctxKey c) fun x => x.regFix ((s.ctxOf c).allPlaces regs.reads))
/-- What they leave as it was. -/
theorem fixed_keeps {s : State} {c : CtxRef} {len : Nat} {alu : Bool} {regs : ZRegs} (h : s.runs c len alu regs = true) :
    let t := s.fixed c len regs
    t.blk.td = s.blk.td ∧ (∀ j, j ≠ ctxKey c → t.blk.ctx j = s.blk.ctx j) ∧ t.blk.regs = s.blk.regs ∧ (∀ e, t.blk.eng e = s.blk.eng e) ∧
      t.blk.now = s.blk.now ∧ t.mem = s.mem ∧ t.pending = s.pending := by
  obtain ⟨p, hp⟩ := fixed_form h
  obtain ⟨n, hn⟩ := regFix_form { s.blk with ports := p } (ctxKey c) ((s.ctxOf c).allPlaces regs.reads)
  dsimp only
  rw [hp, hn]
  exact ⟨Blk.td_onCtx _ _ _, fun j hj => Blk.ctx_onCtx_ne _ _ hj, Blk.regs_onCtx _ _ _, fun e => Blk.eng_onCtx _ _ _ _, Blk.now_onCtx _ _ _, rfl, rfl⟩

/-- A context `t` after retirement of an instruction that takes `y`, which is `x` with errors corrected, to `z`: the rest is as in `x`. -/
theorem rest_kept {x y z t : Ctx} {dst : List Nat} {cb0 : Byte} {pc0 p : Half} (hu : x.u.start = none) (hi : x.u.issued = false) (hy : y.alike { x with gErr := y.gErr })
    (hz : y.Writes z dst) (ht : t.alike { z.retired cb0 pc0 with pc := p }) :
    { t with
      g := x.g, gErr := x.gErr, sw := x.sw, pc := x.pc, lock := x.lock, lockLen := x.lockLen, resv := x.resv, lockOut := x.lockOut,
      attempt := x.attempt, tripled := x.tripled, st := x.st, waitFor := x.waitFor, wd := x.wd } = x := by
  rw [z.retired_form] at ht
  obtain ⟨hy⟩ := hy
  have hz := hz.same
  obtain ⟨ht⟩ := ht
  have hm : ({ x.u with start := none, issued := false } : Micro) = x.u := by rw [← hu, ← hi]
  cases x; cases y; cases z; cases t
  simp only [Ctx.mk.injEq] at *
  simp_all

/-- What an instruction leaves that only writes registers `dst` and flags: it retires, with the registers and flags of its own effect `g` on
a context `y` that is the one from before, single-bit errors corrected. -/
theorem zaell_next {s : State} {c : CtxRef} {len : Nat} {alu : Bool} {regs : ZRegs} (h : s.runs c len alu regs = true) (i : Bool) (cyc : Nat)
    (g : Ctx → Ctx) {dst : List Nat} (hg : ∀ x : Ctx, x.Writes (g x) dst) :
    ∃ y : Ctx, ∃ t, s.zaell c len true alu i regs (fun s => (s.setCtx c (g (s.ctxOf c)), .next cyc)) = t ∧
      y.alike { s.ctxOf c with gErr := y.gErr } ∧ (t.ctxOf c).g = (g y).g ∧ (t.ctxOf c).sw = (g y).sw ∧ s.Retires t c len cyc dst := by
  have hy := fixed_ctx h
  have hn1 := fixed_near h
  obtain ⟨k1, k2, k3, k4, k5, k6, k7⟩ := fixed_keeps h
  have hu : (s.ctxOf c).u.start = none ∧ (s.ctxOf c).u.issued = false := by
    simp only [State.runs, Bool.and_eq_true, Bool.not_eq_true', Option.isNone_iff_eq_none] at h
    exact ⟨h.1.1.1.1.1.1.1.1.1.2, h.2⟩
  generalize hs1 : s.fixed c len regs = s1 at hy hn1
  generalize hs2 : s1.setCtx c (g (s1.ctxOf c)) = s2
  obtain ⟨hk, hj, hn, ho, ht, he, hm, hp⟩ := zend_next s1 s2 (ctxKey c) len cyc i
  have h2 : (s2.blk.ctx (ctxKey c)).alike (g (s1.ctxOf c)) := by subst hs2; exact s1.blk.ctx_setCtx _ _
  have hn2 : s1.blk.near s2.blk := by subst hs2; exact s1.blk.near_setCtx _ _
  have htd : s2.blk.td = s.blk.td := by
    subst hs2 hs1; exact (Blk.td_setCtx _ _ _).trans k1
  have hj2 : ∀ j, j ≠ ctxKey c → s2.blk.ctx j = s.blk.ctx j := by
    intro j h; subst hs2 hs1; exact (Blk.ctx_setCtx_ne _ _ h).trans (k2 j h)
  have ho2 : ∀ o, s2.blk.rd o = s.blk.rd o := by
    intro o; subst hs2 hs1; exact (Blk.rd_setCtx _ _ _ _).trans (by unfold Blk.rd; rw [k3])
  have he2 : ∀ e, s2.blk.eng e = s.blk.eng e := by
    intro e; subst hs2 hs1; exact (Blk.eng_setCtx _ _ _ _).trans (k4 e)
  have hw2 : s2.blk.now = s.blk.now := by
    subst hs2 hs1; exact (Blk.now_setCtx _ _ _).trans k5
  have hz := zaell_runs h i (fun s => (s.setCtx c (g (s.ctxOf c)), .next cyc)) (by rw [hs1]; dsimp only; rw [hs2]; exact ht.trans htd)
  rw [hs1] at hz; dsimp only at hz; rw [hs2] at hz
  have hm2 : s2.mem = s.mem ∧ s2.pending = s.pending := by subst hs2 hs1; exact ⟨k6, k7⟩
  generalize s1.zend s2 (ctxKey c) len i (.next cyc) = t at hz hk hj hn ho ht he hm hp
  have hgw := hg (s1.ctxOf c)
  have hyk : s1.blk.ctx (ctxKey c) = s1.ctxOf c := rfl
  rw [hyk] at hk
  generalize s1.ctxOf c = y at *
  have hkk := hk.trans ((h2.retired _ _).withPc _)
  have hkr := hkk
  rw [show t.blk.ctx (ctxKey c) = t.ctxOf c from rfl] at hkr hkk
  rw [(g y).retired_form] at hkk
  have hlock := Ctx.countLock_congr (x := g y) (y := s.ctxOf c)
  obtain ⟨a1, b1, w1, e1⟩ := hkk.form
  obtain ⟨a2, b2, w2, e2⟩ := hy.form
  obtain ⟨a3, b3, w3, e3⟩ := hgw.form
  have hlock := hlock (by rw [e3, e2]) (by rw [e3, e2]) (by rw [e3, e2]) (by rw [e3, e2])
  have tg : (t.ctxOf c).g = (g y).g := by rw [e1]
  have tsw : (t.ctxOf c).sw = (g y).sw := by rw [e1]
  have hgi : y.gi = (s.ctxOf c).gi := by funext n; unfold Ctx.gi; rw [e2]
  refine ⟨y, t, hz, hy, tg, tsw, ?_⟩
  constructor
  · rw [e1, e2]
  · intro i hi; rw [tg, hgw.regs i (by rw [hgi]; exact hi), e2]
  · rw [tsw, hgw.sw, e2]
  · exact rest_kept hu.1 hu.2 hy hgw hkr
  · rw [e1]; exact ⟨rfl, hlock.1, hlock.2.2.1, hlock.2.1, hlock.2.2.2⟩
  · have hk8 : ctxKey c / 8 = c.eng.val := by unfold ctxKey; omega
    rw [hk8, he2, hw2] at he; exact he
  · intro j h; have := hj j h; rw [hj2 j h] at this; exact this
  · exact hn1.trans (hn2.trans hn)
  · intro o h; rw [ho o (by simpa using h), ho2]
  · intro a; rw [hm, hm2.1]
  · rw [hp, hm2.2]

end Sys2Proof.Machine
end

