-- ==== Sys2Proof/Laws/Alu.lean ====
section
/-! SUPPORT. What the shared forms of Zaell arithmetic do where they can execute, and the sums and differences behind their flags. -/

namespace Sys2Proof.Machine

/-- A context as it was, single-bit register errors corrected: the same operands and flags. -/
theorem Ctx.alike.same {x y : Ctx} {e : List (Nat × WordErr)} (h : y.alike { x with gErr := e }) :
    y.g = x.g ∧ y.sw = x.sw ∧ y.flags = x.flags ∧ (∀ r n, y.val r n = x.val r n) ∧ y.gi = x.gi := by
  obtain ⟨a, b, w, h⟩ := h.form
  subst h
  have hg : Ctx.gr { x with gErr := e, st := a, waitFor := b, wd := w } = x.gr := rfl
  exact ⟨rfl, rfl, rfl, fun r n => by unfold Ctx.val; rw [hg], rfl⟩

/-- The registers of a context read alike when tables and bank are the same. -/
theorem Ctx.val_congr {x y : Ctx} (hg : x.g = y.g) (hs : x.sw = y.sw) : x.val = y.val ∧ x.flags = y.flags := by
  have hi : x.gi = y.gi := by funext n; unfold Ctx.gi; rw [hs]
  have hr : x.gr = y.gr := by funext n; unfold Ctx.gr; rw [hi, hg]
  exact ⟨by funext r n; unfold Ctx.val; rw [hr], by unfold Ctx.flags; rw [hs]⟩

/-- An instruction that only changes registers and flags, where it can execute. -/
theorem pure_runs {s : State} {c : CtxRef} {f : ZFmt} {alu : Bool} {regs : ZRegs} (h : s.runs c (fmtLen f) alu regs = true) (cyc : Nat)
    (g : Ctx → Ctx) {dst : List Nat} (hg : ∀ x : Ctx, x.Writes (g x) dst) :
    ∃ y t, s.pure c f true alu regs cyc g = .next t ∧ y.alike { s.ctxOf c with gErr := y.gErr } ∧
      (t.ctxOf c).val = (g y).val ∧ (t.ctxOf c).flags = (g y).flags ∧ s.Retires t c (fmtLen f) cyc dst := by
  obtain ⟨y, t, hz, hy, h1, h2, h3⟩ := zaell_next h false cyc g hg
  obtain ⟨e1, e2⟩ := Ctx.val_congr h1 h2
  exact ⟨y, t, by unfold State.pure; rw [hz], hy, e1, e2, h3⟩

/-- Sources of an S-RR or L-RRR operation. -/
def TriSpec.regs (t : TriSpec) (x : Tri) : ZRegs :=
  ⟨if t.unary then [(x.a, x.n)] else [(x.a, x.n), (x.b, x.n)], if t.noDst then [] else [(x.dst, x.n)]⟩

/-- An S-RR or L-RRR operation, where it can execute: its result and flags from the operands before. -/
theorem tri_runs {s : State} {c : CtxRef} {f : ZFmt} {t : TriSpec} {x : Tri} (hf : triOf f t = some x)
    (h : s.runs c (fmtLen f) true (t.regs x) = true) (op : AluFn) :
    ∃ u, s.tri c f t op = .next u ∧ s.Retires u c (fmtLen f) (if x.n = 4 then 2 else 1) (if t.noDst then [] else regsOf x.dst x.n) ∧
      (t.noDst = false → (op (16 * x.n) ((s.ctxOf c).val x.a x.n) ((s.ctxOf c).val x.b x.n) (s.ctxOf c).flags).1 < 2 ^ (16 * x.n) →
        (x.n = 1 ∨ x.n = 2 ∨ x.n = 4) →
        (u.ctxOf c).val x.dst x.n = (op (16 * x.n) ((s.ctxOf c).val x.a x.n) ((s.ctxOf c).val x.b x.n) (s.ctxOf c).flags).1) ∧
      (u.ctxOf c).flags = if x.n = 4 then (s.ctxOf c).flags else
        (op (16 * x.n) ((s.ctxOf c).val x.a x.n) ((s.ctxOf c).val x.b x.n) (s.ctxOf c).flags).2 := by
  unfold State.tri
  rw [hf]
  dsimp only
  obtain ⟨y, u, h1, h2, h3, h4, h5⟩ := pure_runs h (if x.n = 4 then 2 else 1) (dst := if t.noDst then [] else regsOf x.dst x.n)
    (fun k => if x.n = 4 then (if t.noDst then k else k.put x.dst x.n (op (16 * x.n) (k.val x.a x.n) (k.val x.b x.n) k.flags).1)
      else (if t.noDst then k else k.put x.dst x.n (op (16 * x.n) (k.val x.a x.n) (k.val x.b x.n) k.flags).1).setFlags
        (op (16 * x.n) (k.val x.a x.n) (k.val x.b x.n) k.flags).2) (by
      intro k
      have hw : k.Writes (if t.noDst then k else k.put x.dst x.n (op (16 * x.n) (k.val x.a x.n) (k.val x.b x.n) k.flags).1)
          (if t.noDst then [] else regsOf x.dst x.n) := by
        split
        · exact .refl _ _
        · exact k.writes_put _ _ _
      split
      · exact hw
      · exact hw.trans (Ctx.writes_setFlags _ _ _))
  obtain ⟨_, _, hfl, hv, _⟩ := h2.same
  refine ⟨u, h1, h5, ?_, ?_⟩
  · intro hd hlt hn
    rw [h3]
    rw [hd] at *
    simp only [Bool.false_eq_true, if_false]
    split
    · rw [Ctx.val_put _ _ hn (by rw [hv, hv, hfl]; exact hlt), hv, hv, hfl]
    · rw [Ctx.val_setFlags, Ctx.val_put _ _ hn (by rw [hv, hv, hfl]; exact hlt), hv, hv, hfl]
  · rw [h4]
    split
    · split
      · exact hfl
      · rw [Ctx.flags_put, hfl]
    · rw [Ctx.flags_setFlags, hv, hv, hfl]

end Sys2Proof.Machine
end

