-- ==== Sys2Proof/Laws/Ends.lean ====
section
/-! SUPPORT. What an instruction leaves that retires, whatever its own effect is on its context and on bay memory. -/

namespace Sys2Proof.Machine

/-- How an end that retires moves the context: to the next instruction, to a target, or as the effect itself says. -/
def ZEnd.moves (e : ZEnd) (c0 : Ctx) (len : Nat) : Option (Nat × (Ctx → Ctx)) :=
  match e with
  | .next cyc => some (cyc, fun c => { c with pc := c0.pc + BitVec.ofNat 16 len })
  | .jump cb pc cyc => some (cyc, fun c => { c with cb := cb, pc := pc })
  | .own cyc => some (cyc, id)
  | _ => none

theorem ZEnd.moves_alike {e : ZEnd} {c0 x y : Ctx} {len cyc : Nat} {f : Ctx → Ctx} (h : e.moves c0 len = some (cyc, f)) (hx : x.alike y) :
    (f x).alike (f y) := by
  obtain ⟨a, b, w, hx⟩ := hx.form
  cases e <;> simp only [ZEnd.moves, Option.some.injEq, Prod.mk.injEq, reduceCtorEq] at h <;> obtain ⟨_, rfl⟩ := h <;> rw [hx] <;> exact ⟨rfl⟩

theorem ZEnd.moves_retired {e : ZEnd} {c0 x : Ctx} {len cyc : Nat} {f : Ctx → Ctx} (h : e.moves c0 len = some (cyc, f)) :
    { f x with pc := x.pc, cb := x.cb } = x := by
  cases e <;> simp only [ZEnd.moves, Option.some.injEq, Prod.mk.injEq, reduceCtorEq] at h <;> obtain ⟨_, rfl⟩ := h <;> rfl

/-- The end of an instruction that retires. -/
theorem zend_done (s0 s : State) (k len cyc : Nat) (i : Bool) {e : ZEnd} {f : Ctx → Ctx} (he : e.moves (s0.blk.ctx k) len = some (cyc, f)) :
    ∃ t, s0.zend s k len i e = t ∧
    (t.blk.ctx k).alike (f ((s.blk.ctx k).retired (s0.blk.ctx k).cb (s0.blk.ctx k).pc)) ∧
    (∀ j, j ≠ k → (t.blk.ctx j).alike (s.blk.ctx j)) ∧ s.blk.near t.blk ∧
    (∀ o, o ≠ F.EA_RETRY_CNT_off (k / 64) → t.blk.rd o = s.blk.rd o) ∧ t.blk.td = s.blk.td ∧
    max (s.blk.eng (k / 8)).free s.blk.now + cyc ≤ (t.blk.eng (k / 8)).free ∧ t.mem = s.mem ∧ t.pending = s.pending := by
  have key : ∃ r u, (∃ i', r = s.blk.retire k cyc i' (s0.blk.ctx k).cb (s0.blk.ctx k).pc) ∧ (u = r.onCtx k f ∨ (u = r ∧ f = id)) ∧
      s0.zend s k len i e = { s with blk := u.powerLeave k } := by
    cases e <;> simp only [ZEnd.moves, Option.some.injEq, Prod.mk.injEq, reduceCtorEq] at he <;> obtain ⟨rfl, rfl⟩ := he
    · exact ⟨_, _, ⟨i, rfl⟩, .inl rfl, rfl⟩
    · exact ⟨_, _, ⟨false, rfl⟩, .inl rfl, rfl⟩
    · exact ⟨_, _, ⟨false, rfl⟩, .inr ⟨rfl, rfl⟩, rfl⟩
  obtain ⟨r, u, ⟨i', hr⟩, hu, hz⟩ := key
  refine ⟨_, hz, ?_⟩
  have rk := s.blk.retire_ctx k cyc i' (s0.blk.ctx k).cb (s0.blk.ctx k).pc
  have rj := fun j (hj : j ≠ k) => s.blk.retire_ctx_ne cyc i' (s0.blk.ctx k).cb (s0.blk.ctx k).pc hj
  have rn := s.blk.near_retire k cyc i' (s0.blk.ctx k).cb (s0.blk.ctx k).pc
  have ro := fun o (ho : o ≠ F.EA_RETRY_CNT_off (k / 64)) => s.blk.rd_retire k cyc i' (s0.blk.ctx k).cb (s0.blk.ctx k).pc ho
  have rt := s.blk.td_retire k cyc i' (s0.blk.ctx k).cb (s0.blk.ctx k).pc
  have rf := s.blk.free_retire k cyc i' (s0.blk.ctx k).cb (s0.blk.ctx k).pc
  rw [← hr] at rk rj rn ro rt rf
  have hk : (u.ctx k).alike (f ((s.blk.ctx k).retired (s0.blk.ctx k).cb (s0.blk.ctx k).pc)) := by
    rcases hu with rfl | ⟨rfl, rfl⟩
    · exact (r.ctx_onCtx k f).trans (ZEnd.moves_alike he rk)
    · exact rk
  have hj : ∀ j, j ≠ k → u.ctx j = s.blk.ctx j := by
    intro j hj
    rcases hu with rfl | ⟨rfl, _⟩
    · rw [r.ctx_onCtx_ne f hj, rj j hj]
    · exact rj j hj
  have hn : s.blk.near u := by
    rcases hu with rfl | ⟨rfl, _⟩
    · exact rn.trans (r.near_onCtx k f)
    · exact rn
  have ho : ∀ o, o ≠ F.EA_RETRY_CNT_off (k / 64) → u.rd o = s.blk.rd o := by
    intro o ho
    rcases hu with rfl | ⟨rfl, _⟩
    · unfold Blk.rd; rw [r.regs_onCtx]; exact ro o ho
    · exact ro o ho
  have ht : u.td = s.blk.td := by
    rcases hu with rfl | ⟨rfl, _⟩
    · rw [r.td_onCtx, rt]
    · exact rt
  have hf : max (s.blk.eng (k / 8)).free s.blk.now + cyc = (u.eng (k / 8)).free := by
    rcases hu with rfl | ⟨rfl, _⟩
    · rw [r.eng_onCtx, rf]
    · rw [rf]
  clear hu rk rj rn ro rt rf hr
  rcases u.powerLeave_cases k with h | h <;> rw [h]
  · exact ⟨hk, fun j h => by rw [hj j h]; exact Ctx.alike_refl _, hn, ho, ht, Nat.le_of_eq hf, rfl, rfl⟩
  · refine ⟨(u.ctx_leave k k _ _).trans hk, fun j h => ?_, hn.trans (u.near_leave _ _ _), fun o h => ?_, (u.td_leave k _ _).trans ht, ?_, rfl, rfl⟩
    · have := u.ctx_leave k j .ready none; rw [hj j h] at this; exact this
    · unfold Blk.rd; rw [u.regs_leave]; exact ho o h
    · rw [hf]; exact u.free_leave k _ _

theorem Blk.near.bmErr {s t : Blk} (h : s.near t) : t.bmErr = s.bmErr := by rw [← h.eq]

/-- A context `t` after retirement of an instruction whose own effect made its context `z`, `y` being `f z` up to corrected errors. -/
theorem ends_ctx {y z t c0 : Ctx} {e : ZEnd} {len cyc : Nat} {f : Ctx → Ctx} {cb0 : Byte} {pc0 : Half} (he : e.moves c0 len = some (cyc, f))
    (hu : z.u.start = none) (hi : z.u.issued = false) (hy : (f z).alike { y with gErr := (f z).gErr }) (ht : t.alike (f (z.retired cb0 pc0))) :
    { t with gErr := y.gErr, attempt := y.attempt, tripled := y.tripled, st := y.st, waitFor := y.waitFor, wd := y.wd } = y.countLock ∧
    t.attempt = 0 := by
  have hc := Ctx.countLock_congr (x := z) (y := y)
  have hl : z.lock = y.lock ∧ z.lockLen = y.lockLen ∧ z.resv = y.resv ∧ z.lockOut = y.lockOut := by
    obtain ⟨a, b, w, hy⟩ := hy.form
    have hm := ZEnd.moves_retired (x := z) he
    have g1 := congrArg Ctx.lock hm; have g2 := congrArg Ctx.lockLen hm; have g3 := congrArg Ctx.resv hm; have g4 := congrArg Ctx.lockOut hm
    dsimp only at g1 g2 g3 g4
    rw [← g1, ← g2, ← g3, ← g4, hy]; exact ⟨rfl, rfl, rfl, rfl⟩
  obtain ⟨c1, c2, c3, c4⟩ := hc hl.1 hl.2.1 hl.2.2.1 hl.2.2.2
  rw [y.countLock_form, ← c1, ← c2, ← c3, ← c4]
  rw [z.retired_form] at ht
  generalize z.countLock.lock = l1 at *
  generalize z.countLock.lockLen = l2 at *
  generalize z.countLock.resv = l3 at *
  generalize z.countLock.lockOut = l4 at *
  generalize (z.retired cb0 pc0).tripled = l5 at *
  have hm : ({ z.u with start := none, issued := false } : Micro) = z.u := by rw [← hu, ← hi]
  rw [hm] at ht
  obtain ⟨hy⟩ := hy
  obtain ⟨ht⟩ := ht
  cases e <;> simp only [ZEnd.moves, Option.some.injEq, Prod.mk.injEq, reduceCtorEq] at he <;> obtain ⟨_, rfl⟩ := he <;>
    (clear hm hu hi hl c1 c2 c3 c4 hc; cases y; cases z; cases t; simp only [Ctx.mk.injEq, id] at *; simp_all)

/-- An instruction that can execute and retires: `t0` is the state its own effect leaves, `x` its context then, up to corrected errors. -/
theorem zaell_ends {s : State} {c : CtxRef} {len : Nat} {alu : Bool} {regs : ZRegs} (h : s.runs c len alu regs = true) (i : Bool)
    {body : State → State × ZEnd} {t0 : State} {e : ZEnd} (hb : body (s.fixed c len regs) = (t0, e)) {cyc : Nat} {f : Ctx → Ctx}
    (he : e.moves ((s.fixed c len regs).ctxOf c) len = some (cyc, f)) {x : Ctx} (hu : (t0.ctxOf c).u.start = none) (hi : (t0.ctxOf c).u.issued = false)
    (hx : (f (t0.ctxOf c)).alike { x with gErr := (f (t0.ctxOf c)).gErr })
    (ho : ∀ j, j ≠ ctxKey c → Ctx.alike { t0.blk.ctx j with resv := (s.blk.ctx j).resv } (s.blk.ctx j))
    (hn : (s.fixed c len regs).blk.near { t0.blk with bmErr := s.blk.bmErr }) (hr : t0.blk.regs = s.blk.regs) (hen : t0.blk.engs = s.blk.engs)
    (hp : t0.pending = s.pending) :
    ∃ t, s.zaell c len true alu i regs body = t ∧ s.Ends t c cyc x ∧ t.mem = t0.mem ∧ t.blk.bmErr = t0.blk.bmErr ∧
      ∀ j, j ≠ ctxKey c → (t.blk.ctx j).resv = (t0.blk.ctx j).resv := by
  obtain ⟨t, hz, hk, hj, hnn, hoo, ht, hf, hm, hpp⟩ := zend_done (s.fixed c len regs) t0 (ctxKey c) len cyc i he
  have hfix := fixed_near h
  obtain ⟨k1, _, _, _, k5, _, _⟩ := fixed_keeps h
  have htd : t0.blk.td = s.blk.td := by
    have := congrArg Blk.td hn.eq
    dsimp only at this
    rw [this]
    exact k1
  have hnow : t0.blk.now = s.blk.now := by
    have := congrArg Blk.now hn.eq
    dsimp only at this
    rw [this]
    exact k5
  have hz' := zaell_runs h i body (by rw [hb]; dsimp only; rw [hz]; exact ht.trans htd)
  rw [hb] at hz'; dsimp only at hz'; rw [hz] at hz'
  refine ⟨t, hz', ?_, hm, hnn.bmErr, ?_⟩
  · have hE := ends_ctx he hu hi hx hk
    constructor
    · exact hE.1
    · exact hE.2
    · have hk8 : ctxKey c / 8 = c.eng.val := by unfold ctxKey; omega
      rw [hk8, hnow] at hf
      have : t0.blk.eng c.eng.val = s.blk.eng c.eng.val := by unfold Blk.eng; rw [hen]
      rw [this] at hf; exact hf
    · intro j h1
      have h2 := hj j h1
      have h3 := ho j h1
      obtain ⟨a, b, w, e1⟩ := h2.form
      rw [e1]; exact Ctx.alike.trans ⟨rfl⟩ h3
    · have h1 : (s.fixed c len regs).blk.near { t.blk with bmErr := s.blk.bmErr } := by
        refine hn.trans ?_
        obtain ⟨h2⟩ := hnn
        rw [← h2]; exact ⟨rfl⟩
      exact hfix.trans h1
    · intro o h1
      rw [hoo o (by simpa using h1)]
      unfold Blk.rd; rw [hr]
    · rw [hpp, hp]
  · intro j h1
    obtain ⟨a, b, w, e1⟩ := (hj j h1).form
    rw [e1]

end Sys2Proof.Machine
end

