-- ==== Sys2Proof/Laws/Exec.lean ====
section
/-! SUPPORT. What each command's arm is: one equation per command. -/

namespace Sys2Proof.Machine

theorem exec_registerWrite (s : State) {req off width v} : exec (.registerWrite req off width v) s = execRegisterWrite req off width v s := rfl
theorem exec_captureRead (s : State) {req off width} : exec (.captureRead req off width) s = execCaptureRead req off width s := rfl
theorem exec_resetAssert (s : State) {dt} : exec (.resetAssert dt) s = execResetAssert dt s := rfl
theorem exec_resetRelease (s : State) {dt role straps pin blank} : exec (.resetRelease dt role straps pin blank) s = execResetRelease dt role straps pin blank s := rfl
theorem exec_pllLock (s : State) {dt} : exec (.pllLock dt) s = execPllLock dt s := rfl
theorem exec_pllLockLoss (s : State) {dt} : exec (.pllLockLoss dt) s = execPllLockLoss dt s := rfl
theorem exec_fuseLoadComplete (s : State) {dt img nonce} : exec (.fuseLoadComplete dt img nonce) s = execFuseLoadComplete dt img nonce s := rfl
theorem exec_keyDerivationComplete (s : State) {dt} : exec (.keyDerivationComplete dt) s = execKeyDerivationComplete dt s := rfl
theorem exec_tbStepEdge (s : State) {dt a b bLevel} : exec (.tbStepEdge dt a b bLevel) s = execTbStepEdge dt a b bLevel s := rfl
theorem exec_indexEdge (s : State) {dt} : exec (.indexEdge dt) s = execIndexEdge dt s := rfl
theorem exec_tbLossTimeout (s : State) {dt} : exec (.tbLossTimeout dt) s = execTbLossTimeout dt s := rfl
theorem exec_holdoverStep (s : State) {dt} : exec (.holdoverStep dt) s = execHoldoverStep dt s := rfl
theorem exec_tbEnable (s : State) {req v} : exec (.tbEnable req v) s = execTbEnable req v s := rfl
theorem exec_tbAcq (s : State) {req v} : exec (.tbAcq req v) s = execTbAcq req v s := rfl
theorem exec_tbRealignRequest (s : State) {req v} : exec (.tbRealignRequest req v) s = execTbRealignRequest req v s := rfl
theorem exec_tbTimingWrite (s : State) {req v} : exec (.tbTimingWrite req v) s = execTbTimingWrite req v s := rfl
theorem exec_slotBoundary (s : State) {dt} : exec (.slotBoundary dt) s = execSlotBoundary dt s := rfl
theorem exec_frameBoundary (s : State) {dt} : exec (.frameBoundary dt) s = execFrameBoundary dt s := rfl
theorem exec_compareHit (s : State) {dt n} : exec (.compareHit dt n) s = execCompareHit dt n s := rfl
theorem exec_cmpOwnWrite (s : State) {req n v} : exec (.cmpOwnWrite req n v) s = execCmpOwnWrite req n v s := rfl
theorem exec_cmpLoWrite (s : State) {req n v} : exec (.cmpLoWrite req n v) s = execCmpLoWrite req n v s := rfl
theorem exec_cmpHiWrite (s : State) {req n v} : exec (.cmpHiWrite req n v) s = execCmpHiWrite req n v s := rfl
theorem exec_tableArm (s : State) {req v} : exec (.tableArm req v) s = execTableArm req v s := rfl
theorem exec_tableCheckComplete (s : State) {dt parity} : exec (.tableCheckComplete dt parity) s = execTableCheckComplete dt parity s := rfl
theorem exec_tableCancel (s : State) {req v} : exec (.tableCancel req v) s = execTableCancel req v s := rfl
theorem exec_slotTableWrite (s : State) {req off v} : exec (.slotTableWrite req off v) s = execSlotTableWrite req off v s := rfl
theorem exec_issueWindow (s : State) {dt ch accept parity} : exec (.issueWindow dt ch accept parity) s = execIssueWindow dt ch accept parity s := rfl
theorem exec_memRd (s : State) {dt p m} : exec (.memRd dt p m) s = execMemRd dt p m s := rfl
theorem exec_memWr (s : State) {dt p m poison data} : exec (.memWr dt p m poison data) s = execMemWr dt p m poison data s := rfl
theorem exec_memWrPtl (s : State) {dt p m poison data mask} : exec (.memWrPtl dt p m poison data mask) s = execMemWrPtl dt p m poison data mask s := rfl
theorem exec_heldRelease (s : State) {dt p idx} : exec (.heldRelease dt p idx) s = execHeldRelease dt p idx s := rfl
theorem exec_responseHandover (s : State) {dt p idx} : exec (.responseHandover dt p idx) s = execResponseHandover dt p idx s := rfl
theorem exec_txnLimitExpiry (s : State) {dt p idx} : exec (.txnLimitExpiry dt p idx) s = execTxnLimitExpiry dt p idx s := rfl
theorem exec_txnFail (s : State) {dt p idx} : exec (.txnFail dt p idx) s = execTxnFail dt p idx s := rfl
theorem exec_ledgerScan (s : State) {dt p ce ue} : exec (.ledgerScan dt p ce ue) s = execLedgerScan dt p ce ue s := rfl
theorem exec_ledgerCapture (s : State) {req p v} : exec (.ledgerCapture req p v) s = execLedgerCapture req p v s := rfl
theorem exec_txnLimitWrite (s : State) {req p v} : exec (.txnLimitWrite req p v) s = execTxnLimitWrite req p v s := rfl
theorem exec_segmentTableWrite (s : State) {req seg word v} : exec (.segmentTableWrite req seg word v) s = execSegmentTableWrite req seg word v s := rfl
theorem exec_segsumComputeDone (s : State) {dt} : exec (.segsumComputeDone dt) s = execSegsumComputeDone dt s := rfl
theorem exec_operatorControlWork (s : State) {dt bay lines} : exec (.operatorControlWork dt bay lines) s = execOperatorControlWork dt bay lines s := rfl
theorem exec_channelReadComplete (s : State) {dt ch id cw} : exec (.channelReadComplete dt ch id cw) s = execChannelReadComplete dt ch id cw s := rfl
theorem exec_firstFailureLocation (s : State) {dt ch} : exec (.firstFailureLocation dt ch) s = execFirstFailureLocation dt ch s := rfl
theorem exec_channelWriteAck (s : State) {dt ch id} : exec (.channelWriteAck dt ch id) s = execChannelWriteAck dt ch id s := rfl
theorem exec_channelControllerError (s : State) {dt ch id} : exec (.channelControllerError dt ch id) s = execChannelControllerError dt ch id s := rfl
theorem exec_muGeomWrite (s : State) {req ch v} : exec (.muGeomWrite req ch v) s = execMuGeomWrite req ch v s := rfl
theorem exec_dfmWrite (s : State) {req ch n v} : exec (.dfmWrite req ch n v) s = execDfmWrite req ch n v s := rfl
theorem exec_poisonListCapture (s : State) {req ch v} : exec (.poisonListCapture req ch v) s = execPoisonListCapture req ch v s := rfl
theorem exec_poisonListRemove (s : State) {req ch v} : exec (.poisonListRemove req ch v) s = execPoisonListRemove req ch v s := rfl
theorem exec_fenceSet (s : State) {req ch v} : exec (.fenceSet req ch v) s = execFenceSet req ch v s := rfl
theorem exec_fenceClear (s : State) {req ch v} : exec (.fenceClear req ch v) s = execFenceClear req ch v s := rfl
theorem exec_mntGo (s : State) {req ch v} : exec (.mntGo req ch v) s = execMntGo req ch v s := rfl
theorem exec_mntAbort (s : State) {req ch v} : exec (.mntAbort req ch v) s = execMntAbort req ch v s := rfl
theorem exec_tread (s : State) {c op} : exec (.tread c op) s = execTread c op s := rfl
theorem exec_tput (s : State) {c op} : exec (.tput c op) s = execTput c op s := rfl
theorem exec_tzero (s : State) {c op} : exec (.tzero c op) s = execTzero c op s := rfl
theorem exec_tstore (s : State) {c op} : exec (.tstore c op) s = execTstore c op s := rfl
theorem exec_tfetch (s : State) {c op} : exec (.tfetch c op) s = execTfetch c op s := rfl
theorem exec_compressorResult (s : State) {dt k bad stream} : exec (.compressorResult dt k bad stream) s = execCompressorResult dt k bad stream s := rfl
theorem exec_decompressorResult (s : State) {dt k res page} : exec (.decompressorResult dt k res page) s = execDecompressorResult dt k res page s := rfl
theorem exec_cryptoResult (s : State) {dt id status data} : exec (.cryptoResult dt id status data) s = execCryptoResult dt id status data s := rfl
theorem exec_fabricMessage (s : State) {dt fport m} : exec (.fabricMessage dt fport m) s = execFabricMessage dt fport m s := rfl
theorem exec_hello (s : State) {dt h m} : exec (.hello dt h m) s = execHello dt h m s := rfl
theorem exec_bcn (s : State) {dt h frame ver state} : exec (.bcn dt h frame ver state) s = execBcn dt h frame ver state s := rfl
theorem exec_keep (s : State) {dt h} : exec (.keep dt h) s = execKeep dt h s := rfl
theorem exec_lcpy (s : State) {dt h c} : exec (.lcpy dt h c) s = execLcpy dt h c s := rfl
theorem exec_lack (s : State) {dt h p idx} : exec (.lack dt h p idx) s = execLack dt h p idx s := rfl
theorem exec_lfree (s : State) {dt h p idx} : exec (.lfree dt h p idx) s = execLfree dt h p idx s := rfl
theorem exec_wrq (s : State) {dt h addr ref stamp mta merged} : exec (.wrq dt h addr ref stamp mta merged) s = execWrq dt h addr ref stamp mta merged s := rfl
theorem exec_ack (s : State) {dt h ref stamp} : exec (.ack dt h ref stamp) s = execAck dt h ref stamp s := rfl
theorem exec_nakLate (s : State) {dt h ref frame} : exec (.nakLate dt h ref frame) s = execNakLate dt h ref frame s := rfl
theorem exec_nakLink (s : State) {dt h msg} : exec (.nakLink dt h msg) s = execNakLink dt h msg s := rfl
theorem exec_mrd (s : State) {dt h addr copy} : exec (.mrd dt h addr copy) s = execMrd dt h addr copy s := rfl
theorem exec_mrs (s : State) {dt h addr copy} : exec (.mrs dt h addr copy) s = execMrs dt h addr copy s := rfl
theorem exec_rcp (s : State) {dt h addr data mta} : exec (.rcp dt h addr data mta) s = execRcp dt h addr data mta s := rfl
theorem exec_vrq (s : State) {dt h addr mta crc} : exec (.vrq dt h addr mta crc) s = execVrq dt h addr mta crc s := rfl
theorem exec_fwd (s : State) {dt h r} : exec (.fwd dt h r) s = execFwd dt h r s := rfl
theorem exec_fwr (s : State) {dt h r} : exec (.fwr dt h r) s = execFwr dt h r s := rfl
theorem exec_bye (s : State) {dt h} : exec (.bye dt h) s = execBye dt h s := rfl
theorem exec_mirrorGenReadComplete (s : State) {dt id} : exec (.mirrorGenReadComplete dt id) s = execMirrorGenReadComplete dt id s := rfl
theorem exec_twHbPulse (s : State) {dt} : exec (.twHbPulse dt) s = execTwHbPulse dt s := rfl
theorem exec_twinSilence (s : State) {dt} : exec (.twinSilence dt) s = execTwinSilence dt s := rfl
theorem exec_heartbeatLineFault (s : State) {dt} : exec (.heartbeatLineFault dt) s = execHeartbeatLineFault dt s := rfl
theorem exec_messageSilence (s : State) {dt} : exec (.messageSilence dt) s = execMessageSilence dt s := rfl
theorem exec_twFailNAssert (s : State) {dt} : exec (.twFailNAssert dt) s = execTwFailNAssert dt s := rfl
theorem exec_twPresNDeassert (s : State) {dt} : exec (.twPresNDeassert dt) s = execTwPresNDeassert dt s := rfl
theorem exec_twinLinkDown (s : State) {dt} : exec (.twinLinkDown dt) s = execTwinLinkDown dt s := rfl
theorem exec_twPair (s : State) {req v pin} : exec (.twPair req v pin) s = execTwPair req v pin s := rfl
theorem exec_twLeave (s : State) {req v} : exec (.twLeave req v) s = execTwLeave req v s := rfl
theorem exec_leaveDrained (s : State) {dt} : exec (.leaveDrained dt) s = execLeaveDrained dt s := rfl
theorem exec_twFail (s : State) {req v} : exec (.twFail req v) s = execTwFail req v s := rfl
theorem exec_verifyWalkStart (s : State) {req v} : exec (.verifyWalkStart req v) s = execVerifyWalkStart req v s := rfl
theorem exec_resyncDone (s : State) {dt} : exec (.resyncDone dt) s = execResyncDone dt s := rfl
theorem exec_interruptEntry (s : State) {dt c} : exec (.interruptEntry dt c) s = execInterruptEntry dt c s := rfl
theorem exec_deferredPoolData (s : State) {dt c} : exec (.deferredPoolData dt c) s = execDeferredPoolData dt c s := rfl
theorem exec_microwordExecute (s : State) {dt c rom flip dpar} : exec (.microwordExecute dt c rom flip dpar) s = execMicrowordExecute dt c rom flip dpar s := rfl
theorem exec_moveComplete (s : State) {dt bay bad regs} : exec (.moveComplete dt bay bad regs) s = execMoveComplete dt bay bad regs s := rfl
theorem exec_engineRetire (s : State) {req bay e v} : exec (.engineRetire req bay e v) s = execEngineRetire req bay e v s := rfl
theorem exec_plannedSwapArm (s : State) {req bay v} : exec (.plannedSwapArm req bay v) s = execPlannedSwapArm req bay v s := rfl
theorem exec_errorInject (s : State) {req bay e v} : exec (.errorInject req bay e v) s = execErrorInject req bay e v s := rfl
theorem exec_lirqSet (s : State) {req bay e n v} : exec (.lirqSet req bay e n v) s = execLirqSet req bay e n v s := rfl
theorem exec_bayEnable (s : State) {req bay v} : exec (.bayEnable req bay v) s = execBayEnable req bay v s := rfl
theorem exec_contextTimerExpiry (s : State) {dt c} : exec (.contextTimerExpiry dt c) s = execContextTimerExpiry dt c s := rfl
theorem exec_coprocessorResult (s : State) {dt k ans flags par} : exec (.coprocessorResult dt k ans flags par) s = execCoprocessorResult dt k ans flags par s := rfl
theorem exec_socketTimeout (s : State) {dt k} : exec (.socketTimeout dt k) s = execSocketTimeout dt k s := rfl
theorem exec_dataMoverComplete (s : State) {dt k} : exec (.dataMoverComplete dt k) s = execDataMoverComplete dt k s := rfl
theorem exec_poolWindowComplete (s : State) {dt k} : exec (.poolWindowComplete dt k) s = execPoolWindowComplete dt k s := rfl
theorem exec_zMov (s : State) {c f} : exec (.zMov c f) s = execZMov c f s := rfl
theorem exec_zAdd (s : State) {c f} : exec (.zAdd c f) s = execZAdd c f s := rfl
theorem exec_zAdc (s : State) {c f} : exec (.zAdc c f) s = execZAdc c f s := rfl
theorem exec_zSub (s : State) {c f} : exec (.zSub c f) s = execZSub c f s := rfl
theorem exec_zSbb (s : State) {c f} : exec (.zSbb c f) s = execZSbb c f s := rfl
theorem exec_zCmp (s : State) {c f} : exec (.zCmp c f) s = execZCmp c f s := rfl
theorem exec_zAnd (s : State) {c f} : exec (.zAnd c f) s = execZAnd c f s := rfl
theorem exec_zOr (s : State) {c f} : exec (.zOr c f) s = execZOr c f s := rfl
theorem exec_zXor (s : State) {c f} : exec (.zXor c f) s = execZXor c f s := rfl
theorem exec_zAndn (s : State) {c f} : exec (.zAndn c f) s = execZAndn c f s := rfl
theorem exec_zTst (s : State) {c f} : exec (.zTst c f) s = execZTst c f s := rfl
theorem exec_zNeg (s : State) {c f} : exec (.zNeg c f) s = execZNeg c f s := rfl
theorem exec_zNot (s : State) {c f} : exec (.zNot c f) s = execZNot c f s := rfl
theorem exec_zSexb (s : State) {c f} : exec (.zSexb c f) s = execZSexb c f s := rfl
theorem exec_zZexb (s : State) {c f} : exec (.zZexb c f) s = execZZexb c f s := rfl
theorem exec_zSwab (s : State) {c f} : exec (.zSwab c f) s = execZSwab c f s := rfl
theorem exec_zMin (s : State) {c f} : exec (.zMin c f) s = execZMin c f s := rfl
theorem exec_zMax (s : State) {c f} : exec (.zMax c f) s = execZMax c f s := rfl
theorem exec_zMinu (s : State) {c f} : exec (.zMinu c f) s = execZMinu c f s := rfl
theorem exec_zMaxu (s : State) {c f} : exec (.zMaxu c f) s = execZMaxu c f s := rfl
theorem exec_zAbs (s : State) {c f} : exec (.zAbs c f) s = execZAbs c f s := rfl
theorem exec_zMovi (s : State) {c f} : exec (.zMovi c f) s = execZMovi c f s := rfl
theorem exec_zAddi (s : State) {c f} : exec (.zAddi c f) s = execZAddi c f s := rfl
theorem exec_zCmpi (s : State) {c f} : exec (.zCmpi c f) s = execZCmpi c f s := rfl
theorem exec_zLd (s : State) {c f} : exec (.zLd c f) s = execZLd c f s := rfl
theorem exec_zSt (s : State) {c f} : exec (.zSt c f) s = execZSt c f s := rfl
theorem exec_zBcc (s : State) {c f} : exec (.zBcc c f) s = execZBcc c f s := rfl
theorem exec_zNop (s : State) {c f} : exec (.zNop c f) s = execZNop c f s := rfl
theorem exec_zYield (s : State) {c f} : exec (.zYield c f) s = execZYield c f s := rfl
theorem exec_zRet (s : State) {c f} : exec (.zRet c f) s = execZRet c f s := rfl
theorem exec_zEnd (s : State) {c f} : exec (.zEnd c f) s = execZEnd c f s := rfl
theorem exec_zUnlk (s : State) {c f} : exec (.zUnlk c f) s = execZUnlk c f s := rfl
theorem exec_zInc (s : State) {c f} : exec (.zInc c f) s = execZInc c f s := rfl
theorem exec_zDec (s : State) {c f} : exec (.zDec c f) s = execZDec c f s := rfl
theorem exec_zClr (s : State) {c f} : exec (.zClr c f) s = execZClr c f s := rfl
theorem exec_zLsli (s : State) {c f} : exec (.zLsli c f) s = execZLsli c f s := rfl
theorem exec_zLsri (s : State) {c f} : exec (.zLsri c f) s = execZLsri c f s := rfl
theorem exec_zAsri (s : State) {c f} : exec (.zAsri c f) s = execZAsri c f s := rfl
theorem exec_zRori (s : State) {c f} : exec (.zRori c f) s = execZRori c f s := rfl
theorem exec_zMovs (s : State) {c f stop} : exec (.zMovs c f stop) s = execZMovs c f stop s := rfl
theorem exec_zFills (s : State) {c f stop} : exec (.zFills c f stop) s = execZFills c f stop s := rfl
theorem exec_zCmps (s : State) {c f stop} : exec (.zCmps c f stop) s = execZCmps c f stop s := rfl
theorem exec_zScns (s : State) {c f stop} : exec (.zScns c f stop) s = execZScns c f stop s := rfl
theorem exec_zCrcs (s : State) {c f stop} : exec (.zCrcs c f stop) s = execZCrcs c f stop s := rfl
theorem exec_zMovw (s : State) {c f} : exec (.zMovw c f) s = execZMovw c f s := rfl
theorem exec_zAddw (s : State) {c f} : exec (.zAddw c f) s = execZAddw c f s := rfl
theorem exec_zCmpw (s : State) {c f} : exec (.zCmpw c f) s = execZCmpw c f s := rfl
theorem exec_zAndw (s : State) {c f} : exec (.zAndw c f) s = execZAndw c f s := rfl
theorem exec_zOrw (s : State) {c f} : exec (.zOrw c f) s = execZOrw c f s := rfl
theorem exec_zXorw (s : State) {c f} : exec (.zXorw c f) s = execZXorw c f s := rfl
theorem exec_zTstw (s : State) {c f} : exec (.zTstw c f) s = execZTstw c f s := rfl
theorem exec_zAddp (s : State) {c f} : exec (.zAddp c f) s = execZAddp c f s := rfl
theorem exec_zCmpp (s : State) {c f} : exec (.zCmpp c f) s = execZCmpp c f s := rfl
theorem exec_zMovp (s : State) {c f} : exec (.zMovp c f) s = execZMovp c f s := rfl
theorem exec_zMovh (s : State) {c f} : exec (.zMovh c f) s = execZMovh c f s := rfl
theorem exec_zLdw (s : State) {c f} : exec (.zLdw c f) s = execZLdw c f s := rfl
theorem exec_zStw (s : State) {c f} : exec (.zStw c f) s = execZStw c f s := rfl
theorem exec_zLdp (s : State) {c f} : exec (.zLdp c f) s = execZLdp c f s := rfl
theorem exec_zStp (s : State) {c f} : exec (.zStp c f) s = execZStp c f s := rfl
theorem exec_zLdq (s : State) {c f} : exec (.zLdq c f) s = execZLdq c f s := rfl
theorem exec_zStq (s : State) {c f} : exec (.zStq c f) s = execZStq c f s := rfl
theorem exec_zLdlk (s : State) {c f} : exec (.zLdlk c f) s = execZLdlk c f s := rfl
theorem exec_zStul (s : State) {c f} : exec (.zStul c f) s = execZStul c f s := rfl
theorem exec_zLea (s : State) {c f} : exec (.zLea c f) s = execZLea c f s := rfl
theorem exec_zJmp (s : State) {c f} : exec (.zJmp c f) s = execZJmp c f s := rfl
theorem exec_zCall (s : State) {c f} : exec (.zCall c f) s = execZCall c f s := rfl
theorem exec_zExt (s : State) {c f} : exec (.zExt c f) s = execZExt c f s := rfl
theorem exec_zExts (s : State) {c f} : exec (.zExts c f) s = execZExts c f s := rfl
theorem exec_zIns (s : State) {c f} : exec (.zIns c f) s = execZIns c f s := rfl
theorem exec_zExtp (s : State) {c f} : exec (.zExtp c f) s = execZExtp c f s := rfl
theorem exec_zExtsp (s : State) {c f} : exec (.zExtsp c f) s = execZExtsp c f s := rfl
theorem exec_zInsp (s : State) {c f} : exec (.zInsp c f) s = execZInsp c f s := rfl
theorem exec_zCrcw (s : State) {c f} : exec (.zCrcw c f) s = execZCrcw c f s := rfl
theorem exec_zParw (s : State) {c f} : exec (.zParw c f) s = execZParw c f s := rfl
theorem exec_zBrev (s : State) {c f} : exec (.zBrev c f) s = execZBrev c f s := rfl
theorem exec_zShr (s : State) {c f} : exec (.zShr c f) s = execZShr c f s := rfl
theorem exec_zClz (s : State) {c f} : exec (.zClz c f) s = execZClz c f s := rfl
theorem exec_zDmv (s : State) {c f} : exec (.zDmv c f) s = execZDmv c f s := rfl
theorem exec_zDmvm (s : State) {c f} : exec (.zDmvm c f) s = execZDmvm c f s := rfl
theorem exec_zMulu16 (s : State) {c f} : exec (.zMulu16 c f) s = execZMulu16 c f s := rfl
theorem exec_zMuls16 (s : State) {c f} : exec (.zMuls16 c f) s = execZMuls16 c f s := rfl
theorem exec_zMulu32 (s : State) {c f} : exec (.zMulu32 c f) s = execZMulu32 c f s := rfl
theorem exec_zMuls32 (s : State) {c f} : exec (.zMuls32 c f) s = execZMuls32 c f s := rfl
theorem exec_zDivu16 (s : State) {c f} : exec (.zDivu16 c f) s = execZDivu16 c f s := rfl
theorem exec_zDivs16 (s : State) {c f} : exec (.zDivs16 c f) s = execZDivs16 c f s := rfl
theorem exec_zDivu32 (s : State) {c f} : exec (.zDivu32 c f) s = execZDivu32 c f s := rfl
theorem exec_zDivs32 (s : State) {c f} : exec (.zDivs32 c f) s = execZDivs32 c f s := rfl
theorem exec_zFadd (s : State) {c f} : exec (.zFadd c f) s = execZFadd c f s := rfl
theorem exec_zFsub (s : State) {c f} : exec (.zFsub c f) s = execZFsub c f s := rfl
theorem exec_zFmul (s : State) {c f} : exec (.zFmul c f) s = execZFmul c f s := rfl
theorem exec_zFdiv (s : State) {c f} : exec (.zFdiv c f) s = execZFdiv c f s := rfl
theorem exec_zFcmp (s : State) {c f} : exec (.zFcmp c f) s = execZFcmp c f s := rfl
theorem exec_zFmin (s : State) {c f} : exec (.zFmin c f) s = execZFmin c f s := rfl
theorem exec_zFmax (s : State) {c f} : exec (.zFmax c f) s = execZFmax c f s := rfl
theorem exec_zFcvtDS (s : State) {c f} : exec (.zFcvtDS c f) s = execZFcvtDS c f s := rfl
theorem exec_zFcvtSD (s : State) {c f} : exec (.zFcvtSD c f) s = execZFcvtSD c f s := rfl
theorem exec_zFcvtDW (s : State) {c f} : exec (.zFcvtDW c f) s = execZFcvtDW c f s := rfl
theorem exec_zFcvtWD (s : State) {c f} : exec (.zFcvtWD c f) s = execZFcvtWD c f s := rfl
theorem exec_zSocketOp (s : State) {c f} : exec (.zSocketOp c f) s = execZSocketOp c f s := rfl
theorem exec_zMfs (s : State) {c f} : exec (.zMfs c f) s = execZMfs c f s := rfl
theorem exec_zMts (s : State) {c f} : exec (.zMts c f) s = execZMts c f s := rfl
theorem exec_zSetbk (s : State) {c f} : exec (.zSetbk c f) s = execZSetbk c f s := rfl
theorem exec_zSrm (s : State) {c f} : exec (.zSrm c f) s = execZSrm c f s := rfl
theorem exec_zEi (s : State) {c f} : exec (.zEi c f) s = execZEi c f s := rfl
theorem exec_zDi (s : State) {c f} : exec (.zDi c f) s = execZDi c f s := rfl
theorem exec_zTrap (s : State) {c f} : exec (.zTrap c f) s = execZTrap c f s := rfl
theorem exec_zCallGate (s : State) {c f} : exec (.zCallGate c f) s = execZCallGate c f s := rfl
theorem exec_zCreateGate (s : State) {c f} : exec (.zCreateGate c f) s = execZCreateGate c f s := rfl
theorem exec_zClearGate (s : State) {c f} : exec (.zClearGate c f) s = execZClearGate c f s := rfl
theorem exec_zRte (s : State) {c f} : exec (.zRte c f) s = execZRte c f s := rfl
theorem exec_patchGo (s : State) {req v} : exec (.patchGo req v) s = execPatchGo req v s := rfl
theorem exec_patchLoadComplete (s : State) {dt} : exec (.patchLoadComplete dt) s = execPatchLoadComplete dt s := rfl
theorem exec_patchAct (s : State) {req v} : exec (.patchAct req v) s = execPatchAct req v s := rfl
theorem exec_matchRegisterWrite (s : State) {req bay n tgt v} : exec (.matchRegisterWrite req bay n tgt v) s = execMatchRegisterWrite req bay n tgt v s := rfl
theorem exec_chainStart (s : State) {dt sub chain} : exec (.chainStart dt sub chain) s = execChainStart dt sub chain s := rfl
theorem exec_sieveLine (s : State) {dt bay} : exec (.sieveLine dt bay) s = execSieveLine dt bay s := rfl
theorem exec_submissionComplete (s : State) {dt sub} : exec (.submissionComplete dt sub) s = execSubmissionComplete dt sub s := rfl
theorem exec_sieveAbort (s : State) {req v} : exec (.sieveAbort req v) s = execSieveAbort req v s := rfl
theorem exec_sieveEnable (s : State) {req v} : exec (.sieveEnable req v) s = execSieveEnable req v s := rfl
theorem exec_xbufOwnWrite (s : State) {req bay n v} : exec (.xbufOwnWrite req bay n v) s = execXbufOwnWrite req bay n v s := rfl
theorem exec_bmCorrectionWriteback (s : State) {dt bay w} : exec (.bmCorrectionWriteback dt bay w) s = execBmCorrectionWriteback dt bay w s := rfl
theorem exec_bistStart (s : State) {req bay v} : exec (.bistStart req bay v) s = execBistStart req bay v s := rfl
theorem exec_bistComplete (s : State) {dt bay bad} : exec (.bistComplete dt bay bad) s = execBistComplete dt bay bad s := rfl
theorem exec_clearingComplete (s : State) {dt bay} : exec (.clearingComplete dt bay) s = execClearingComplete dt bay s := rfl
theorem exec_memoryOff (s : State) {req bay v} : exec (.memoryOff req bay v) s = execMemoryOff req bay v s := rfl
theorem exec_memoryWake (s : State) {req bay v} : exec (.memoryWake req bay v) s = execMemoryWake req bay v s := rfl
theorem exec_offerAssign (s : State) {dt bad} : exec (.offerAssign dt bad) s = execOfferAssign dt bad s := rfl
theorem exec_offerRelease (s : State) {dt t} : exec (.offerRelease dt t) s = execOfferRelease dt t s := rfl
theorem exec_eventClaim (s : State) {req t} : exec (.eventClaim req t) s = execEventClaim req t s := rfl
theorem exec_eventDone (s : State) {req t v} : exec (.eventDone req t v) s = execEventDone req t v s := rfl
theorem exec_freezeStart (s : State) {req v} : exec (.freezeStart req v) s = execFreezeStart req v s := rfl
theorem exec_freezeEnd (s : State) {req v} : exec (.freezeEnd req v) s = execFreezeEnd req v s := rfl
theorem exec_freezeTimeout (s : State) {dt} : exec (.freezeTimeout dt) s = execFreezeTimeout dt s := rfl
theorem exec_evPendMaskWrite (s : State) {req mask n v} : exec (.evPendMaskWrite req mask n v) s = execEvPendMaskWrite req mask n v s := rfl
theorem exec_evBayclkWrite (s : State) {req v} : exec (.evBayclkWrite req v) s = execEvBayclkWrite req v s := rfl
theorem exec_bayClockStop (s : State) {dt bay} : exec (.bayClockStop dt bay) s = execBayClockStop dt bay s := rfl
theorem exec_bayClockWake (s : State) {dt bay} : exec (.bayClockWake dt bay) s = execBayClockWake dt bay s := rfl
theorem exec_contextWatchdogExpiry (s : State) {dt c} : exec (.contextWatchdogExpiry dt c) s = execContextWatchdogExpiry dt c s := rfl
theorem exec_engineWatchdogExpiry (s : State) {dt bay e} : exec (.engineWatchdogExpiry dt bay e) s = execEngineWatchdogExpiry dt bay e s := rfl
theorem exec_bayWatchdogExpiry (s : State) {dt bay} : exec (.bayWatchdogExpiry dt bay) s = execBayWatchdogExpiry dt bay s := rfl
theorem exec_blockWatchdogExpiry (s : State) {dt} : exec (.blockWatchdogExpiry dt) s = execBlockWatchdogExpiry dt s := rfl
theorem exec_bayWatchdogKick (s : State) {req bay v} : exec (.bayWatchdogKick req bay v) s = execBayWatchdogKick req bay v s := rfl
theorem exec_blockWatchdogKick (s : State) {req v} : exec (.blockWatchdogKick req v) s = execBlockWatchdogKick req v s := rfl
theorem exec_blockWatchdogArm (s : State) {req v} : exec (.blockWatchdogArm req v) s = execBlockWatchdogArm req v s := rfl
theorem exec_peBr (s : State) {dt n pads} : exec (.peBr dt n pads) s = execPeBr dt n pads s := rfl
theorem exec_peHold (s : State) {dt n pads} : exec (.peHold dt n pads) s = execPeHold dt n pads s := rfl
theorem exec_pePause (s : State) {dt n pads} : exec (.pePause dt n pads) s = execPePause dt n pads s := rfl
theorem exec_peShin (s : State) {dt n pads} : exec (.peShin dt n pads) s = execPeShin dt n pads s := rfl
theorem exec_peShout (s : State) {dt n pads} : exec (.peShout dt n pads) s = execPeShout dt n pads s := rfl
theorem exec_peFifoLoad (s : State) {dt n pads} : exec (.peFifoLoad dt n pads) s = execPeFifoLoad dt n pads s := rfl
theorem exec_peFifoStore (s : State) {dt n pads} : exec (.peFifoStore dt n pads) s = execPeFifoStore dt n pads s := rfl
theorem exec_peFifoLoadif (s : State) {dt n pads} : exec (.peFifoLoadif dt n pads) s = execPeFifoLoadif dt n pads s := rfl
theorem exec_peFifoStoreif (s : State) {dt n pads} : exec (.peFifoStoreif dt n pads) s = execPeFifoStoreif dt n pads s := rfl
theorem exec_pePut (s : State) {dt n pads} : exec (.pePut dt n pads) s = execPePut dt n pads s := rfl
theorem exec_peCopy (s : State) {dt n pads} : exec (.peCopy dt n pads) s = execPeCopy dt n pads s := rfl
theorem exec_peSignal (s : State) {dt n pads} : exec (.peSignal dt n pads) s = execPeSignal dt n pads s := rfl
theorem exec_peSwap (s : State) {dt n pads} : exec (.peSwap dt n pads) s = execPeSwap dt n pads s := rfl
theorem exec_peNop (s : State) {dt n pads} : exec (.peNop dt n pads) s = execPeNop dt n pads s := rfl
theorem exec_peStop (s : State) {dt n pads} : exec (.peStop dt n pads) s = execPeStop dt n pads s := rfl
theorem exec_peStart (s : State) {req n v} : exec (.peStart req n v) s = execPeStart req n v s := rfl
theorem exec_peStopWrite (s : State) {req n v} : exec (.peStopWrite req n v) s = execPeStopWrite req n v s := rfl
theorem exec_peGroupStart (s : State) {req v} : exec (.peGroupStart req v) s = execPeGroupStart req v s := rfl
theorem exec_peProgramWrite (s : State) {req n k v} : exec (.peProgramWrite req n k v) s = execPeProgramWrite req n k v s := rfl
theorem exec_flagSet (s : State) {req v} : exec (.flagSet req v) s = execFlagSet req v s := rfl
theorem exec_flagClear (s : State) {req v} : exec (.flagClear req v) s = execFlagClear req v s := rfl
theorem exec_peTxWrite (s : State) {req n v} : exec (.peTxWrite req n v) s = execPeTxWrite req n v s := rfl
theorem exec_peRxRead (s : State) {req n} : exec (.peRxRead req n) s = execPeRxRead req n s := rfl
theorem exec_peFarbWrite (s : State) {req n v} : exec (.peFarbWrite req n v) s = execPeFarbWrite req n v s := rfl
theorem exec_padOwnWrite (s : State) {req n v} : exec (.padOwnWrite req n v) s = execPadOwnWrite req n v s := rfl
theorem exec_pmbusPoll (s : State) {dt} : exec (.pmbusPoll dt) s = execPmbusPoll dt s := rfl
theorem exec_pmbusAnswer (s : State) {dt} : exec (.pmbusAnswer dt) s = execPmbusAnswer dt s := rfl
theorem exec_pmbusTimeout (s : State) {dt} : exec (.pmbusTimeout dt) s = execPmbusTimeout dt s := rfl
theorem exec_pwrAlertNAssert (s : State) {dt} : exec (.pwrAlertNAssert dt) s = execPwrAlertNAssert dt s := rfl
theorem exec_pwrGoodChange (s : State) {dt level} : exec (.pwrGoodChange dt level) s = execPwrGoodChange dt level s := rfl
theorem exec_slotRequest (s : State) {req v} : exec (.slotRequest req v) s = execSlotRequest req v s := rfl
theorem exec_slotOff (s : State) {req v} : exec (.slotOff req v) s = execSlotOff req v s := rfl
theorem exec_slotStart (s : State) {dt k} : exec (.slotStart dt k) s = execSlotStart dt k s := rfl
theorem exec_energyLimitWrite (s : State) {req off v} : exec (.energyLimitWrite req off v) s = execEnergyLimitWrite req off v s := rfl
theorem exec_certLoad (s : State) {req v} : exec (.certLoad req v) s = execCertLoad req v s := rfl
theorem exec_getVersion (s : State) {dt} : exec (.getVersion dt) s = execGetVersion dt s := rfl
theorem exec_getCapabilities (s : State) {dt} : exec (.getCapabilities dt) s = execGetCapabilities dt s := rfl
theorem exec_negotiateAlgorithms (s : State) {dt} : exec (.negotiateAlgorithms dt) s = execNegotiateAlgorithms dt s := rfl
theorem exec_getDigests (s : State) {dt} : exec (.getDigests dt) s = execGetDigests dt s := rfl
theorem exec_getCertificate (s : State) {dt slot off len} : exec (.getCertificate dt slot off len) s = execGetCertificate dt slot off len s := rfl
theorem exec_challenge (s : State) {dt slot meas nonce} : exec (.challenge dt slot meas nonce) s = execChallenge dt slot meas nonce s := rfl
theorem exec_getMeasurements (s : State) {dt index sign nonce} : exec (.getMeasurements dt index sign nonce) s = execGetMeasurements dt index sign nonce s := rfl
theorem exec_spdmUnsupportedRequest (s : State) {dt code} : exec (.spdmUnsupportedRequest dt code) s = execSpdmUnsupportedRequest dt code s := rfl
theorem exec_spdmSignedResponse (s : State) {dt} : exec (.spdmSignedResponse dt) s = execSpdmSignedResponse dt s := rfl
theorem exec_debugAuthToken (s : State) {req v} : exec (.debugAuthToken req v) s = execDebugAuthToken req v s := rfl
theorem exec_debugAuthPassword (s : State) {req v} : exec (.debugAuthPassword req v) s = execDebugAuthPassword req v s := rfl
theorem exec_debugAuthResult (s : State) {dt nonce} : exec (.debugAuthResult dt nonce) s = execDebugAuthResult dt nonce s := rfl
theorem exec_debugDrop (s : State) {req v} : exec (.debugDrop req v) s = execDebugDrop req v s := rfl
theorem exec_rbgHealthFail (s : State) {dt} : exec (.rbgHealthFail dt) s = execRbgHealthFail dt s := rfl
theorem exec_monitorDoor (s : State) {req v} : exec (.monitorDoor req v) s = execMonitorDoor req v s := rfl
theorem exec_monStatus (s : State) {dt} : exec (.monStatus dt) s = execMonStatus dt s := rfl
theorem exec_monReadReg (s : State) {dt off count normal} : exec (.monReadReg dt off count normal) s = execMonReadReg dt off count normal s := rfl
theorem exec_monWriteReg (s : State) {dt off vals} : exec (.monWriteReg dt off vals) s = execMonWriteReg dt off vals s := rfl
theorem exec_monReadBm (s : State) {dt bay addr count} : exec (.monReadBm dt bay addr count) s = execMonReadBm dt bay addr count s := rfl
theorem exec_monWriteBm (s : State) {dt bay addr ws} : exec (.monWriteBm dt bay addr ws) s = execMonWriteBm dt bay addr ws s := rfl
theorem exec_monHalt (s : State) {dt d force} : exec (.monHalt dt d force) s = execMonHalt dt d force s := rfl
theorem exec_monRelease (s : State) {dt d} : exec (.monRelease dt d) s = execMonRelease dt d s := rfl
theorem exec_monStep (s : State) {dt e c uword} : exec (.monStep dt e c uword) s = execMonStep dt e c uword s := rfl
theorem exec_monReadCtx (s : State) {dt e c item count} : exec (.monReadCtx dt e c item count) s = execMonReadCtx dt e c item count s := rfl
theorem exec_monWriteCtx (s : State) {dt e c item v} : exec (.monWriteCtx dt e c item v) s = execMonWriteCtx dt e c item v s := rfl
theorem exec_monBreak (s : State) {dt bay n en rom mask} : exec (.monBreak dt bay n en rom mask) s = execMonBreak dt bay n en rom mask s := rfl
theorem exec_monXtCfg (s : State) {dt ch cfg} : exec (.monXtCfg dt ch cfg) s = execMonXtCfg dt ch cfg s := rfl
theorem exec_monEvents (s : State) {dt} : exec (.monEvents dt) s = execMonEvents dt s := rfl
theorem exec_monFuseProg (s : State) {dt bay arr ent vpp fail} : exec (.monFuseProg dt bay arr ent vpp fail) s = execMonFuseProg dt bay arr ent vpp fail s := rfl
theorem exec_deferredHaltTrigger (s : State) {dt} : exec (.deferredHaltTrigger dt) s = execDeferredHaltTrigger dt s := rfl
theorem exec_testRaise (s : State) {req page v} : exec (.testRaise req page v) s = execTestRaise req page v s := rfl
theorem exec_pageLockWrite (s : State) {req page v} : exec (.pageLockWrite req page v) s = execPageLockWrite req page v s := rfl
theorem exec_errCodeRead (s : State) {req page} : exec (.errCodeRead req page) s = execErrCodeRead req page s := rfl
theorem exec_errInfoRead (s : State) {req page} : exec (.errInfoRead req page) s = execErrInfoRead req page s := rfl
theorem exec_attnSet (s : State) {req v} : exec (.attnSet req v) s = execAttnSet req v s := rfl
theorem exec_tapReset (s : State) : exec .tapReset s = execTapReset s := rfl
theorem exec_tapIdcode (s : State) : exec .tapIdcode s = execTapIdcode s := rfl
theorem exec_tapSamplePreload (s : State) {balls shift} : exec (.tapSamplePreload balls shift) s = execTapSamplePreload balls shift s := rfl
theorem exec_tapExtest (s : State) : exec .tapExtest s = execTapExtest s := rfl
theorem exec_tapClamp (s : State) : exec .tapClamp s = execTapClamp s := rfl
theorem exec_tapHighz (s : State) : exec .tapHighz s = execTapHighz s := rfl
theorem exec_tapBypass (s : State) {code} : exec (.tapBypass code) s = execTapBypass code s := rfl
theorem exec_bootDescriptorPoll (s : State) {dt bay} : exec (.bootDescriptorPoll dt bay) s = execBootDescriptorPoll dt bay s := rfl
theorem exec_bootImageCopyComplete (s : State) {dt bay} : exec (.bootImageCopyComplete dt bay) s = execBootImageCopyComplete dt bay s := rfl
theorem exec_channelRetire (s : State) {req ch v} : exec (.channelRetire req ch v) s = execChannelRetire req ch v s := rfl
theorem exec_channelReturn (s : State) {req ch v} : exec (.channelReturn req ch v) s = execChannelReturn req ch v s := rfl
theorem exec_ccc (s : State) {dt c} : exec (.ccc dt c) s = execCcc dt c s := rfl

end Sys2Proof.Machine
end

