-- ==== Sys2Proof/WellFormed.lean ====
section
/-! DEFINITION. Well-formed commands: the operand values that a command may carry beyond what its types say. -/

namespace Sys2Proof

/-- The names of the instruction formats (R284). -/
inductive ZForm where
  | srr | sri | sm | sb | sn | lrrr | lri | lm | lj | lcp
  deriving DecidableEq, Repr

/-- The format of a Zaell instruction's fields. -/
def ZFmt.form : ZFmt → ZForm
  | .srr _ _ => .srr
  | .sri _ _ => .sri
  | .sm _ _ _ => .sm
  | .sb _ _ => .sb
  | .sn _ _ _ => .sn
  | .lrrr _ _ _ _ _ _ => .lrrr
  | .lri _ _ _ _ => .lri
  | .lm _ _ _ _ _ => .lm
  | .lj _ _ _ _ => .lj
  | .lcp _ _ _ _ _ _ _ => .lcp

/-- The format is one that the instruction has (R299 to R312). -/
def formOf (f : ZFmt) (l : List ZForm) : Bool := l.contains f.form

/-- An access is of 8 to 64 bits; any width but 32 is an access error, which the window reports (R12). -/
def widthOk (w : Nat) : Bool := w == 8 || w == 16 || w == 32 || w == 64

/-- A word of a slot-table copy or of a budget set (R63, R68). -/
def slotAreaOk (off : BitVec 22) : Bool :=
  off.toNat % 4 == 0 && ((decide (0x120000 ≤ off.toNat) && decide (off.toNat < 0x130000)) ||
    (decide (0x6400 ≤ off.toNat) && decide (off.toNat < 0x6800)))

/-- SB_SLOT_ELIM, SB_PWR_VLIM or one of the sixteen SB_SLOT_CFG (R481, R483). -/
def energyOffOk (off : BitVec 22) : Bool :=
  off.toNat == 0x3044 || off.toNat == 0x3030 ||
    (off.toNat % 4 == 0 && decide (0x3080 ≤ off.toNat) && decide (off.toNat < 0x30C0))

/-- The offset of a page in the normal view (R516, R521). -/
def pageOk (p : BitVec 22) : Bool := p.toNat % 0x1000 == 0 && decide (p.toNat < 0x200000)

/-- A line address: bits [5:0] zero. -/
def aligned (a : PAddr) : Bool := a.toNat % 64 == 0

/-- No value stands twice in a list. -/
def noRepeat {α : Type} [DecidableEq α] (l : List α) : Bool := decide l.Nodup

/-- No value stands in both lists. -/
def noneShared {α : Type} [DecidableEq α] (l r : List α) : Bool := l.all fun x => !r.contains x

/-- Each segment word is named at most once (R88). -/
def M2S.ok (m : M2S) : Bool := noRepeat m.ecc

/-- A request's address is a line address. -/
def FabMsg.ok : FabMsg → Bool
  | .req r => aligned r.addr
  | .rsp _ => true

/-- A well-formed command. -/
def Instr.wf (i : Instr) : Bool :=
  match i with
  | .registerWrite _ _ width _ => widthOk width
  | .captureRead _ _ width => widthOk width
  | .resetAssert _ => true
  | .resetRelease _ _ _ _ _ => true
  | .pllLock _ => true
  | .pllLockLoss _ => true
  | .fuseLoadComplete _ _ _ => true
  | .keyDerivationComplete _ => true
  | .tbStepEdge _ _ _ _ => true
  | .indexEdge _ => true
  | .tbLossTimeout _ => true
  | .holdoverStep _ => true
  | .tbEnable _ _ => true
  | .tbAcq _ _ => true
  | .tbRealignRequest _ _ => true
  | .tbTimingWrite _ _ => true
  | .slotBoundary _ => true
  | .frameBoundary _ => true
  | .compareHit _ n => decide (2 ≤ n.val)
  | .cmpOwnWrite _ _ _ => true
  | .cmpLoWrite _ _ _ => true
  | .cmpHiWrite _ _ _ => true
  | .tableArm _ _ => true
  | .tableCheckComplete _ _ => true
  | .tableCancel _ _ => true
  | .slotTableWrite _ off _ => slotAreaOk off
  | .issueWindow _ _ _ _ => true
  | .memRd _ _ m => m.ok
  | .memWr _ _ m _ _ => m.ok
  | .memWrPtl _ _ m _ _ _ => m.ok
  | .heldRelease _ _ _ => true
  | .responseHandover _ _ _ => true
  | .txnLimitExpiry _ _ _ => true
  | .txnFail _ _ _ => true
  | .ledgerScan _ _ ce ue => noneShared ce (ue.map (·.1)) && ue.all fun x => x.2 != 0
  | .ledgerCapture _ _ _ => true
  | .txnLimitWrite _ _ _ => true
  | .segmentTableWrite _ _ _ _ => true
  | .segsumComputeDone _ => true
  | .operatorControlWork _ _ _ => true
  | .channelReadComplete _ _ _ _ => true
  | .firstFailureLocation _ _ => true
  | .channelWriteAck _ _ _ => true
  | .channelControllerError _ _ _ => true
  | .muGeomWrite _ _ _ => true
  | .dfmWrite _ _ _ _ => true
  | .poisonListCapture _ _ _ => true
  | .poisonListRemove _ _ _ => true
  | .fenceSet _ _ _ => true
  | .fenceClear _ _ _ => true
  | .mntGo _ _ _ => true
  | .mntAbort _ _ _ => true
  | .tread _ _ => true
  | .tput _ _ => true
  | .tzero _ _ => true
  | .tstore _ _ => true
  | .tfetch _ _ => true
  | .compressorResult _ _ _ stream => decide (stream.length ≤ 8192)
  | .decompressorResult _ _ res page => decide (res < 16 ∧ page.length ≤ 4096)
  | .cryptoResult _ _ _ _ => true
  | .fabricMessage _ _ m => m.ok
  | .hello _ _ _ => true
  | .bcn _ _ _ _ _ => true
  | .keep _ _ => true
  | .lcpy _ _ c => aligned c.addr
  | .lack _ _ _ _ => true
  | .lfree _ _ _ _ => true
  | .wrq _ _ addr _ _ _ _ => aligned addr
  | .ack _ _ _ _ => true
  | .nakLate _ _ _ _ => true
  | .nakLink _ _ _ => true
  | .mrd _ _ addr _ => aligned addr
  | .mrs _ _ addr _ => aligned addr
  | .rcp _ _ addr _ _ => aligned addr
  | .vrq _ _ addr _ _ => aligned addr
  | .fwd _ _ r => aligned r.addr
  | .fwr _ _ _ => true
  | .bye _ _ => true
  | .mirrorGenReadComplete _ _ => true
  | .twHbPulse _ => true
  | .twinSilence _ => true
  | .heartbeatLineFault _ => true
  | .messageSilence _ => true
  | .twFailNAssert _ => true
  | .twPresNDeassert _ => true
  | .twinLinkDown _ => true
  | .twPair _ _ _ => true
  | .twLeave _ _ => true
  | .leaveDrained _ => true
  | .twFail _ _ => true
  | .verifyWalkStart _ _ => true
  | .resyncDone _ => true
  | .interruptEntry _ _ => true
  | .deferredPoolData _ _ => true
  | .microwordExecute _ _ _ _ _ => true
  | .moveComplete _ _ _ regs => noRepeat regs
  | .engineRetire _ _ _ _ => true
  | .plannedSwapArm _ _ _ => true
  | .errorInject _ _ _ _ => true
  | .lirqSet _ _ _ _ _ => true
  | .bayEnable _ _ _ => true
  | .contextTimerExpiry _ _ => true
  | .coprocessorResult _ _ _ _ _ => true
  | .socketTimeout _ _ => true
  | .dataMoverComplete _ _ => true
  | .poolWindowComplete _ _ => true
  | .zMov _ f => formOf f [.srr, .lrrr]
  | .zAdd _ f => formOf f [.srr, .lrrr]
  | .zAdc _ f => formOf f [.srr, .lrrr]
  | .zSub _ f => formOf f [.srr, .lrrr]
  | .zSbb _ f => formOf f [.srr, .lrrr]
  | .zCmp _ f => formOf f [.srr, .lrrr]
  | .zAnd _ f => formOf f [.srr, .lrrr]
  | .zOr _ f => formOf f [.srr, .lrrr]
  | .zXor _ f => formOf f [.srr, .lrrr]
  | .zAndn _ f => formOf f [.srr, .lrrr]
  | .zTst _ f => formOf f [.srr, .lrrr]
  | .zNeg _ f => formOf f [.srr, .lrrr]
  | .zNot _ f => formOf f [.srr, .lrrr]
  | .zSexb _ f => formOf f [.srr]
  | .zZexb _ f => formOf f [.srr]
  | .zSwab _ f => formOf f [.srr]
  | .zMin _ f => formOf f [.lrrr]
  | .zMax _ f => formOf f [.lrrr]
  | .zMinu _ f => formOf f [.lrrr]
  | .zMaxu _ f => formOf f [.lrrr]
  | .zAbs _ f => formOf f [.lrrr]
  | .zMovi _ f => formOf f [.sri]
  | .zAddi _ f => formOf f [.sri]
  | .zCmpi _ f => formOf f [.sri]
  | .zLd _ f => formOf f [.sm]
  | .zSt _ f => formOf f [.sm]
  | .zBcc _ f => formOf f [.sb]
  | .zNop _ f => formOf f [.sn]
  | .zYield _ f => formOf f [.sn]
  | .zRet _ f => formOf f [.sn]
  | .zEnd _ f => formOf f [.sn]
  | .zUnlk _ f => formOf f [.sn]
  | .zInc _ f => formOf f [.sn]
  | .zDec _ f => formOf f [.sn]
  | .zClr _ f => formOf f [.sn]
  | .zLsli _ f => formOf f [.sn]
  | .zLsri _ f => formOf f [.sn]
  | .zAsri _ f => formOf f [.sn]
  | .zRori _ f => formOf f [.sn]
  | .zMovs _ f _ => formOf f [.sn, .lri]
  | .zFills _ f _ => formOf f [.sn, .lri]
  | .zCmps _ f _ => formOf f [.sn, .lri]
  | .zScns _ f _ => formOf f [.sn, .lri]
  | .zCrcs _ f _ => formOf f [.sn, .lri]
  | .zMovw _ f => formOf f [.lri]
  | .zAddw _ f => formOf f [.lri]
  | .zCmpw _ f => formOf f [.lri]
  | .zAndw _ f => formOf f [.lri]
  | .zOrw _ f => formOf f [.lri]
  | .zXorw _ f => formOf f [.lri]
  | .zTstw _ f => formOf f [.lri]
  | .zAddp _ f => formOf f [.lri]
  | .zCmpp _ f => formOf f [.lri]
  | .zMovp _ f => formOf f [.lri]
  | .zMovh _ f => formOf f [.lri]
  | .zLdw _ f => formOf f [.lm]
  | .zStw _ f => formOf f [.lm]
  | .zLdp _ f => formOf f [.lm]
  | .zStp _ f => formOf f [.lm]
  | .zLdq _ f => formOf f [.lm]
  | .zStq _ f => formOf f [.lm]
  | .zLdlk _ f => formOf f [.lm]
  | .zStul _ f => formOf f [.lm]
  | .zLea _ f => formOf f [.lm]
  | .zJmp _ f => formOf f [.lj]
  | .zCall _ f => formOf f [.lj]
  | .zExt _ f => formOf f [.lrrr]
  | .zExts _ f => formOf f [.lrrr]
  | .zIns _ f => formOf f [.lrrr]
  | .zExtp _ f => formOf f [.lrrr]
  | .zExtsp _ f => formOf f [.lrrr]
  | .zInsp _ f => formOf f [.lrrr]
  | .zCrcw _ f => formOf f [.lrrr]
  | .zParw _ f => formOf f [.lrrr]
  | .zBrev _ f => formOf f [.lrrr]
  | .zShr _ f => formOf f [.lrrr]
  | .zClz _ f => formOf f [.lrrr]
  | .zDmv _ f => formOf f [.lrrr]
  | .zDmvm _ f => formOf f [.lrrr]
  | .zMulu16 _ f => formOf f [.lcp]
  | .zMuls16 _ f => formOf f [.lcp]
  | .zMulu32 _ f => formOf f [.lcp]
  | .zMuls32 _ f => formOf f [.lcp]
  | .zDivu16 _ f => formOf f [.lcp]
  | .zDivs16 _ f => formOf f [.lcp]
  | .zDivu32 _ f => formOf f [.lcp]
  | .zDivs32 _ f => formOf f [.lcp]
  | .zFadd _ f => formOf f [.lcp]
  | .zFsub _ f => formOf f [.lcp]
  | .zFmul _ f => formOf f [.lcp]
  | .zFdiv _ f => formOf f [.lcp]
  | .zFcmp _ f => formOf f [.lcp]
  | .zFmin _ f => formOf f [.lcp]
  | .zFmax _ f => formOf f [.lcp]
  | .zFcvtDS _ f => formOf f [.lcp]
  | .zFcvtSD _ f => formOf f [.lcp]
  | .zFcvtDW _ f => formOf f [.lcp]
  | .zFcvtWD _ f => formOf f [.lcp]
  | .zSocketOp _ f => formOf f [.lcp]
  | .zMfs _ f => formOf f [.lri]
  | .zMts _ f => formOf f [.lri]
  | .zSetbk _ f => formOf f [.lri]
  | .zSrm _ f => formOf f [.lri]
  | .zEi _ f => formOf f [.lri]
  | .zDi _ f => formOf f [.lri]
  | .zTrap _ f => formOf f [.lri]
  | .zCallGate _ f => formOf f [.lri]
  | .zCreateGate _ f => formOf f [.lri]
  | .zClearGate _ f => formOf f [.lri]
  | .zRte _ f => formOf f [.lri]
  | .patchGo _ _ => true
  | .patchLoadComplete _ => true
  | .patchAct _ _ => true
  | .matchRegisterWrite _ _ _ _ _ => true
  | .chainStart _ _ _ => true
  | .sieveLine _ _ => true
  | .submissionComplete _ _ => true
  | .sieveAbort _ _ => true
  | .sieveEnable _ _ => true
  | .xbufOwnWrite _ _ _ _ => true
  | .bmCorrectionWriteback _ _ _ => true
  | .bistStart _ _ _ => true
  | .bistComplete _ _ bad => noRepeat bad
  | .clearingComplete _ _ => true
  | .memoryOff _ _ _ => true
  | .memoryWake _ _ _ => true
  | .offerAssign _ bad => noRepeat bad
  | .offerRelease _ _ => true
  | .eventClaim _ _ => true
  | .eventDone _ _ _ => true
  | .freezeStart _ _ => true
  | .freezeEnd _ _ => true
  | .freezeTimeout _ => true
  | .evPendMaskWrite _ _ _ _ => true
  | .evBayclkWrite _ _ => true
  | .bayClockStop _ _ => true
  | .bayClockWake _ _ => true
  | .contextWatchdogExpiry _ _ => true
  | .engineWatchdogExpiry _ _ _ => true
  | .bayWatchdogExpiry _ _ => true
  | .blockWatchdogExpiry _ => true
  | .bayWatchdogKick _ _ _ => true
  | .blockWatchdogKick _ _ => true
  | .blockWatchdogArm _ _ => true
  | .peBr _ _ _ => true
  | .peHold _ _ _ => true
  | .pePause _ _ _ => true
  | .peShin _ _ _ => true
  | .peShout _ _ _ => true
  | .peFifoLoad _ _ _ => true
  | .peFifoStore _ _ _ => true
  | .peFifoLoadif _ _ _ => true
  | .peFifoStoreif _ _ _ => true
  | .pePut _ _ _ => true
  | .peCopy _ _ _ => true
  | .peSignal _ _ _ => true
  | .peSwap _ _ _ => true
  | .peNop _ _ _ => true
  | .peStop _ _ _ => true
  | .peStart _ _ _ => true
  | .peStopWrite _ _ _ => true
  | .peGroupStart _ _ => true
  | .peProgramWrite _ _ _ _ => true
  | .flagSet _ _ => true
  | .flagClear _ _ => true
  | .peTxWrite _ _ _ => true
  | .peRxRead _ _ => true
  | .peFarbWrite _ _ _ => true
  | .padOwnWrite _ _ _ => true
  | .pmbusPoll _ => true
  | .pmbusAnswer _ => true
  | .pmbusTimeout _ => true
  | .pwrAlertNAssert _ => true
  | .pwrGoodChange _ _ => true
  | .slotRequest _ _ => true
  | .slotOff _ _ => true
  | .slotStart _ _ => true
  | .energyLimitWrite _ off _ => energyOffOk off
  | .certLoad _ _ => true
  | .getVersion _ => true
  | .getCapabilities _ => true
  | .negotiateAlgorithms _ => true
  | .getDigests _ => true
  | .getCertificate _ _ _ _ => true
  | .challenge _ _ _ _ => true
  | .getMeasurements _ _ _ _ => true
  | .spdmUnsupportedRequest _ _ => true
  | .spdmSignedResponse _ => true
  | .debugAuthToken _ _ => true
  | .debugAuthPassword _ _ => true
  | .debugAuthResult _ _ => true
  | .debugDrop _ _ => true
  | .rbgHealthFail _ => true
  | .monitorDoor _ _ => true
  | .monStatus _ => true
  | .monReadReg _ _ _ _ => true
  | .monWriteReg _ _ _ => true
  | .monReadBm _ _ _ _ => true
  | .monWriteBm _ _ _ _ => true
  | .monHalt _ _ _ => true
  | .monRelease _ _ => true
  | .monStep _ _ _ _ => true
  | .monReadCtx _ _ _ _ _ => true
  | .monWriteCtx _ _ _ _ _ => true
  | .monBreak _ _ _ _ _ _ => true
  | .monXtCfg _ _ _ => true
  | .monEvents _ => true
  | .monFuseProg _ _ _ _ _ _ => true
  | .deferredHaltTrigger _ => true
  | .testRaise _ page _ => pageOk page
  | .pageLockWrite _ page _ => pageOk page
  | .errCodeRead _ page => pageOk page
  | .errInfoRead _ page => pageOk page
  | .attnSet _ _ => true
  | .tapReset => true
  | .tapIdcode => true
  | .tapSamplePreload _ _ => true
  | .tapExtest => true
  | .tapClamp => true
  | .tapHighz => true
  | .tapBypass _ => true
  | .bootDescriptorPoll _ _ => true
  | .bootImageCopyComplete _ _ => true
  | .channelRetire _ _ _ => true
  | .channelReturn _ _ _ => true
  | .ccc _ _ => true

end Sys2Proof
end

