-- ==== Sys2Proof/Tests/Slice0.lean ====
section
/-! SUPPORT. Tests: ill-formed commands, vectors that the spec gives, one step of commands on small states, and for every claim
a state that meets its hypotheses. -/

namespace Sys2Proof.Tests
open Sys2Proof Sys2Proof.Machine

-- one theorem after the other: the threads of a parallel elaboration reserve more memory than the check allows
set_option Elab.async false

/-! ### Ill-formed commands -/

/-- A well-formed line access, and one that names a segment word twice. -/
def goodM2S : M2S := ⟨0x40, 7, none, 0, []⟩
@[inherit_doc goodM2S] def badM2S : M2S := { goodM2S with ecc := [1, 1] }
/-- A copy and a request of a line, and their like off a line. -/
def goodCopy : LedCopy := ⟨0, 0, .rd, 1, false, 0, 0x40, false, 0, 0, 0, 0⟩
@[inherit_doc goodCopy] def badCopy : LedCopy := { goodCopy with addr := 0x41 }
@[inherit_doc goodCopy] def goodReq : RemReq := ⟨0, .rd, 0x40, false, 0, 0, 0, 0⟩
@[inherit_doc goodCopy] def badReq : RemReq := { goodReq with addr := 0x41 }
def hdr : TwHdr := ⟨0, false⟩
def c0 : CtxRef := ⟨0, 0⟩

theorem test_wf_width : (Instr.registerWrite .mailbox 0 24 0).wf = false ∧ (Instr.registerWrite .mailbox 0 16 0).wf = true ∧
    (Instr.captureRead .mailbox 0 0).wf = false := by decide
theorem test_wf_compare_hit : (Instr.compareHit 0 1).wf = false ∧ (Instr.compareHit 0 2).wf = true := by decide
theorem test_wf_slot_table : (Instr.slotTableWrite .mailbox 0x120002 0).wf = false ∧ (Instr.slotTableWrite .mailbox 0x130000 0).wf = false ∧
    (Instr.slotTableWrite .mailbox 0x67FC 0).wf = true := by decide
theorem test_wf_segment_words : (Instr.memRd 0 0 badM2S).wf = false ∧ (Instr.memWr 0 0 badM2S false 0).wf = false ∧
    (Instr.memWrPtl 0 0 badM2S false 0 0).wf = false ∧ (Instr.memRd 0 0 goodM2S).wf = true := by decide
theorem test_wf_ledger_scan : (Instr.ledgerScan 0 0 [3] [(3, 1)]).wf = false ∧ (Instr.ledgerScan 0 0 [3] [(4, 1)]).wf = true := by decide
theorem test_wf_compressor : (Instr.compressorResult 0 0 false (List.replicate 8193 0)).wf = false ∧
    (Instr.compressorResult 0 0 false (List.replicate 8192 0)).wf = true := by decide +kernel
theorem test_wf_fabric : (Instr.fabricMessage 0 0 (.req badReq)).wf = false ∧ (Instr.fabricMessage 0 0 (.req goodReq)).wf = true := by decide
theorem test_wf_twin_lines : (Instr.lcpy 0 hdr badCopy).wf = false ∧ (Instr.lcpy 0 hdr goodCopy).wf = true ∧
    (Instr.wrq 0 hdr 0x41 ⟨true, 0, 0, none⟩ 0 0 none).wf = false ∧ (Instr.mrd 0 hdr 0x41 false).wf = false ∧ (Instr.mrs 0 hdr 0x41 none).wf = false ∧
    (Instr.rcp 0 hdr 0x41 0 0).wf = false ∧ (Instr.vrq 0 hdr 0x41 0 0).wf = false ∧ (Instr.fwd 0 hdr badReq).wf = false := by decide
theorem test_wf_move : (Instr.moveComplete 0 0 false [1, 1]).wf = false ∧ (Instr.moveComplete 0 0 false [1, 2]).wf = true := by decide
theorem test_wf_bist : (Instr.bistComplete 0 0 [(0, 1), (0, 1)]).wf = false ∧ (Instr.bistComplete 0 0 [(0, 1), (1, 1)]).wf = true := by decide
theorem test_wf_parity : (Instr.offerAssign 0 [(7, 1), (7, 1)]).wf = false ∧ (Instr.offerAssign 0 [(7, 1), (7, 2)]).wf = true := by decide
theorem test_wf_energy : (Instr.energyLimitWrite .mailbox 0x3040 0).wf = false ∧ (Instr.energyLimitWrite .mailbox 0x3044 0).wf = true := by decide
theorem test_wf_page : (Instr.testRaise .mailbox 0x1004 0).wf = false ∧ (Instr.pageLockWrite .mailbox 0x200000 0).wf = false ∧
    (Instr.errCodeRead .mailbox 0x1800).wf = false ∧ (Instr.errInfoRead .mailbox 0x1000).wf = true := by decide
theorem test_wf_format : (Instr.zAdd c0 (.sn 0 0 0)).wf = false ∧ (Instr.zSexb c0 (.lrrr 0 0 false 0 0 0)).wf = false ∧
    (Instr.zMin c0 (.srr 0 0)).wf = false ∧ (Instr.zMovi c0 (.srr 0 0)).wf = false ∧ (Instr.zLd c0 (.srr 0 0)).wf = false ∧
    (Instr.zBcc c0 (.srr 0 0)).wf = false ∧ (Instr.zNop c0 (.srr 0 0)).wf = false ∧ (Instr.zMovs c0 (.srr 0 0) none).wf = false ∧
    (Instr.zMovw c0 (.srr 0 0)).wf = false ∧ (Instr.zLdw c0 (.srr 0 0)).wf = false ∧ (Instr.zJmp c0 (.srr 0 0)).wf = false ∧
    (Instr.zMulu16 c0 (.srr 0 0)).wf = false := by decide

/-! ### Vectors -/

/-- R313: the check values, of the bytes 31h to 39h with the initial state and final exclusive-or that the table names. -/
def nine : List Byte := [0x31, 0x32, 0x33, 0x34, 0x35, 0x36, 0x37, 0x38, 0x39]
theorem test_crc_check_values :
    crcBytes (crcPoly 1) 0xFFFFFFFF nine ^^^ 0xFFFFFFFF = 0xE3069283 ∧ crcBytes (crcPoly 2) 0xFFFFFFFF nine ^^^ 0xFFFFFFFF = 0xCBF43926 ∧
    crcBytes (crcPoly 3) 0xFFFF nine = 0x29B1 ∧ crcBytes (crcPoly 4) 0 nine = 0xBB3D ∧ crcBytes (crcPoly 5) 0 nine = 0xF4 := by decide +kernel

/-- R230: the two vectors that any implementation must reproduce. -/
theorem test_mecc : mecc 0 = 0 ∧ oddOnes (0 : BitVec 160) = false ∧ mecc (1 <<< 74) = 0x52 ∧
    oddOnes ((0x52#160 <<< 152) ||| (1#160 <<< 74)) = false ∧ meccCols[74]? = some 82 ∧ meccCols[151]? = some 160 := by decide +kernel

/-- R124: the encoder's vector, from symbol 32 = 0 and symbol 33 = 1. -/
theorem test_encoder : checkSyms [0, 1] = [0x003F, 0x0326, 0x1BD8, 0x64C0, 0xFC00, 0x8000] := by decide +kernel

/-- 04, the worked example: the syndromes of its errors, and the polynomial of device 9, its highest coefficient first. -/
def worked : Codeword := (1 <<< (16 * 35)) ||| (2 <<< (16 * 36)) ||| (1 <<< (16 * 38)) ||| (4 <<< (16 * 39))
theorem test_erasure_syndromes : syndromes worked = [0x0006, 0x0006, 0x0180, 0x140C, 0x301F, 0x0094] := by decide +kernel
theorem test_erasure_locator : deviceSyms 9 = [36, 37, 38, 39] ∧
    locPoly ((deviceSyms 9).map locator) = [0x0040, 0x0078, 0x0036, 0x000F, 1] := by decide +kernel

/-- R248: its table, in the modes truncate, half up, half even and odd; `true` where the entry says saturated. -/
def q15 : UWord := { uword 0 with frac := 0b1011 }
theorem test_rounding_table :
    ([0x0012348000, 0x0012358000, 0xFFFFFF8000, 0xFFFFFF7FFF, 0x007FFFC000, 0x0120000000].map fun v =>
      [0, 1, 2, 3].map fun m => ((unarrow q15 m 1 v).1.setWidth 16, (unarrow q15 m 1 v).2)) =
    [[(0x1234, false), (0x1235, false), (0x1234, false), (0x1235, false)], [(0x1235, false), (0x1236, false), (0x1236, false), (0x1235, false)],
     [(0xFFFF, false), (0, false), (0, false), (0xFFFF, false)], [(0xFFFF, false), (0xFFFF, false), (0xFFFF, false), (0xFFFF, false)],
     [(0x7FFF, false), (0x7FFF, true), (0x7FFF, true), (0x7FFF, false)], [(0x7FFF, true), (0x7FFF, true), (0x7FFF, true), (0x7FFF, true)]] := by
  decide +kernel

/-- R392: the latencies of its table. -/
theorem test_multiplier_latency :
    [copLatency 0 0 0 0, copLatency 0 1 0 0, copLatency 0 0 0 0xF, copLatency 0 1 0 0xF, copLatency 0 0 0 0xFF, copLatency 0 0 0 0xFFFF,
     copLatency 0 1 0 0xFFFF, copLatency 0 1 0 0x8000, copLatency 0 2 0 0xFFFF, copLatency 0 2 0 0xFFFFFFFF, copLatency 0 3 0 0xFFFFFFFF] =
    [3, 3, 3, 4, 4, 6, 3, 6, 6, 10, 3] := by decide +kernel

/-- R393: the edge cases of its table. -/
theorem test_divider :
    divOp 16 0x00030007 0x10 false = ⟨0x00073000, false, false⟩ ∧ divOp 16 0xFFFE0001 0xFFFF false = ⟨0x0000FFFF, false, false⟩ ∧
    divOp 16 0x00010000 1 false = ⟨0x00010000, false, true⟩ ∧ divOp 16 0xFFFFFFFF 0xFFFF false = ⟨0xFFFFFFFF, false, true⟩ ∧
    divOp 16 0x12345678 0 false = ⟨0x12345678, true, false⟩ ∧ divOp 16 0 0 false = ⟨0, true, false⟩ ∧
    divOp 16 0xFFFFFFF9 2 true = ⟨0xFFFFFFFD, false, false⟩ ∧ divOp 16 0xFFFF8000 1 true = ⟨0x00008000, false, false⟩ ∧
    divOp 16 0x00008000 1 true = ⟨0x00008000, false, true⟩ ∧ divOp 16 0x80000000 0xFFFF true = ⟨0x80000000, false, true⟩ := by decide +kernel

/-- 04, the worked example: the map entry that covers its line. -/
theorem test_map_entry :
    let s := ((Blk.reset.setFld (F.MU_GEOM_RANKLOG 6) 1).setFld (F.MU_GEOM_DIMMLOG 6) 1).setFld (F.MU_GEOM_ROWBITS 6) 17
    s.mapIdx 6 0x03A41A2C7 = 3 ∧ s.capacity 6 = 2 ^ 32 := by decide +kernel

/-! ### Small states -/

/-- The block after reset with fields set. -/
def blkWith (l : List (Fld × Nat)) : Blk := l.foldl (fun s x => s.setFld x.1 x.2) Blk.reset
def stateOf (b : Blk) : State := { blk := b, mem := [], pending := [] }
/-- What a step leaves, for a look at it. -/
def after (o : Host.Outcome State Fault Refusal) : State :=
  match o with
  | .next t => t
  | _ => State.reset

/-- A context that runs at level M on engine 0, in a bay whose engines are enabled and whose memory is ready. -/
def mCtx : Ctx := { Ctx.reset with
      st := .run, sw := 0x4000, ceil := 2 }
@[inherit_doc mCtx] def zBlk (x : Ctx) : Blk := { blkWith [(F.EA_BAY_CTRL_EN 0, 1), (F.BM_STAT_READY 0, 1)] with ctxs := [(0, x)] }
@[inherit_doc mCtx] def zState (x : Ctx) : State := stateOf (zBlk x)
/-- What an instruction leaves of the context. -/
def ran (i : Instr) (s : State) : Ctx := (after (exec i s)).ctxOf c0
/-- A context with registers. -/
def withG (l : List (Nat × Half)) : Ctx := { mCtx with g := l }

theorem test_add_wraps : (ran (.zAdd c0 (.srr 1 2)) (zState (withG [(1, 0xFFFF), (2, 1)]))).gr 1 = 0 ∧
    (ran (.zAdd c0 (.srr 1 2)) (zState (withG [(1, 0xFFFF), (2, 1)]))).sw = 0x4006 := by decide +kernel
theorem test_sub_borrow : (ran (.zSub c0 (.srr 1 2)) (zState (withG [(1, 1), (2, 2)]))).gr 1 = 0xFFFF ∧
    (ran (.zSub c0 (.srr 1 2)) (zState (withG [(1, 1), (2, 2)]))).sw = 0x4008 := by decide +kernel
theorem test_addp_order : (ran (.zAddp c0 (.lri 7 2 false 0xFFFF)) (zState (withG [(2, 1)]))).gr 2 = 0 ∧
    (ran (.zAddp c0 (.lri 7 2 false 0xFFFF)) (zState (withG [(2, 1)]))).gr 3 = 0xFFFF := by decide +kernel
theorem test_ldp_order : let s : State := { zState (withG [(1, 0x10)]) with mem := [(0x20, 0x34), (0x21, 0x12), (0x22, 0x78), (0x23, 0x56)] }
    (ran (.zLdp c0 (.lm 2 4 false 1 0)) s).gr 4 = 0x5678 ∧ (ran (.zLdp c0 (.lm 2 4 false 1 0)) s).gr 5 = 0x1234 := by decide +kernel
theorem test_stw_bytes : (after (exec (.zStw c0 (.lm 1 2 false 1 0x7FF)) (zState (withG [(1, 0x10), (2, 0xABCD)])))).mem =
    [(0x1E, 0xCD), (0x1F, 0xAB)] := by decide +kernel
theorem test_branch_not_taken : (ran (.zBcc c0 (.sb 0 0xFE)) (zState mCtx)).pc = 1 := by decide +kernel
theorem test_branch_back : (ran (.zBcc c0 (.sb 1 0xFE)) (zState { mCtx with pc := 0x10 })).pc = 0xE := by decide +kernel

/-- 10, A gate call and a refused return: the caller and its memory. -/
def gateRef : CtxRef := ⟨42, 3⟩
@[inherit_doc gateRef] def gateCtx : Ctx :=
  { Ctx.reset with
      st := .run, sw := 0x8004, wclass := 2, pc := 0x520, cb := 1, bk := 0x21,
      g := [(10, 4), (11, 0x21), (12, 0x3200), (13, 0x80), (14, 1)],
      sys := [(0x0C, 4), (0x0D, 0x2800), (0x0E, 0x2600), (0x0F, 0x2800), (0x28, 0x2A60), (0x29, 0x4C3A), (0x2A, 0x801A), (0x2B, 0xE000)] }
@[inherit_doc gateRef] def gateBlk : Blk := (blkWith [(F.EA_BAY_CTRL_EN 5, 1), (F.BM_STAT_READY 5, 1)]).wr (F.EA_GATE_CFG_off 5) 0x08000020
@[inherit_doc gateRef] def gateState : State :=
  ([0x8804, 0x4001, 0x0600, 0x0201, 0x0003, 0, 0x0100, 0].zipIdx).foldl
    (fun s (x : Nat × Nat) => s.poke 5 (0x4048 + x.2) (BitVec.ofNat 16 x.1)) (stateOf { gateBlk with ctxs := [(8 * 42 + 3, gateCtx)] })
@[inherit_doc gateRef] def gated : State := after (exec (.zCallGate gateRef (.lri 7 10 false 9)) gateState)

theorem test_gate_frame : (List.range 8).map (fun i => gated.peek 5 (0x313F8 + i)) =
    [0x0522, 0x0121, 0x8004, 0x8009, 0x0004, 0x2800, 0x2600, 0x2800] := by decide +kernel
theorem test_gate_state : let x := gated.ctxOf gateRef
    (x.pc, x.cb, x.bk) = (0x0600, 1, 2) ∧ [0x0C, 0x0D, 0x0E, 0x0F].map x.sr = [3, 0x13F8, 0x1300, 0x1400] ∧ x.sw.extractLsb' 13 2 = 1 := by decide +kernel
/-- 10, continued: the return that the gate makes with its saved word as the first argument, and its refusal. -/
def gateReturn (w : Half) : State := after (exec (.zRte gateRef (.lri 8 0 false 0)) (gated.poke 5 0x313FA w))
theorem test_gate_return : let x := (gateReturn 0x8000).ctxOf gateRef
    (x.pc, x.cb, x.bk, x.sw) = (0x0522, 1, 0x21, 0x8000) ∧ [0x0C, 0x0D, 0x0E, 0x0F].map x.sr = [4, 0x2800, 0x2600, 0x2800] := by decide +kernel
theorem test_gate_return_refused : let s := gateReturn 0xA000
    [0x0C, 0x0D, 0x0E, 0x0F].map (s.ctxOf gateRef).sr = [3, 0x13F0, 0x1300, 0x1400] ∧ (s.ctxOf gateRef).fdepth = 1 ∧
    [3, 4, 5, 7].map (fun i => s.peek 5 (0x313F0 + i)) = [0x0016, 0, 0, 0] := by decide +kernel

/-! ### States that meet the hypotheses of the claims

One theorem for each claim that has hypotheses, named after it: for every clause a state and operands that meet the clause's hypotheses
together. -/

/-- The long form of an operation, for any registers. -/
theorem tri_long (fn : BitVec 6) (u d q sh : Bool) (m : BitVec 6) (ra rb rc : BitVec 5) (h : m.toNat ≤ 2) (hu : u = true → rc = 0)
    (hd : d = true → ra = 0) (hq : m = 2 → q = true ∧ ra.toNat % 4 = 0 ∧ rb.toNat % 4 = 0 ∧ rc.toNat % 4 = 0) :
    TriForm fn u d q sh (.lrrr m ra false rb rc fn) ⟨ra.toNat, rb.toNat, rc.toNat, 2 ^ m.toNat⟩ :=
  .inr ⟨m, ra, rb, rc, rfl, h, hu, hd, hq, rfl⟩
/-- The short form. -/
theorem tri_short (fn : BitVec 6) (u d q : Bool) (ra rb : BitVec 4) :
    TriForm fn u d q true (.srr ra rb) ⟨ra.toNat, (if u then rb else ra).toNat, rb.toNat, 1⟩ := .inl ⟨rfl, ra, rb, rfl, rfl⟩

/-- Context 0 of engine 0 can execute at level M. -/
abbrev can (len : Nat) (alu : Bool) (reads writes : List (Nat × Nat)) : Prop := (zState mCtx).runs c0 len alu ⟨reads, writes⟩ = true

theorem clean_words (x : Ctx) (bank off n : Nat) : (zState x).clean c0 bank off n := fun _ _ => rfl

theorem witness_SumsAndDifferences :
    TriForm 0x01 false false false true (.lrrr 1 31 false 31 2 0x01) ⟨31, 31, 2, 2⟩ ∧ TriForm 0x02 false false false true (.srr 15 15) ⟨15, 15, 15, 1⟩ ∧
    TriForm 0x05 false true false true (.lrrr 1 0 false 31 2 0x05) ⟨0, 31, 2, 2⟩ ∧ TriForm 0x0B true false false true (.lrrr 0 31 false 0 0 0x0B) ⟨31, 0, 0, 1⟩ ∧
    can 2 true [(31, 2), (2, 2)] [(31, 2)] ∧ can 1 true [(15, 1), (15, 1)] [(15, 1)] ∧ can 2 true [(31, 2), (2, 2)] [] ∧ can 2 true [(0, 1)] [(31, 1)] :=
  ⟨tri_long _ _ _ _ _ 1 31 31 2 (by decide) (by decide) (by decide) (by decide), tri_short _ _ _ _ 15 15,
   tri_long _ _ _ _ _ 1 0 31 2 (by decide) (by decide) (by decide) (by decide),
   tri_long _ _ _ _ _ 0 31 0 0 (by decide) (by decide) (by decide) (by decide), by decide, by decide, by decide, by decide⟩

theorem witness_MovesAndLogic :
    TriForm 0x00 true false true true (.lrrr 2 28 false 0 0 0x00) ⟨28, 0, 0, 4⟩ ∧ TriForm 0x06 false false true true (.lrrr 2 28 false 0 4 0x06) ⟨28, 0, 4, 4⟩ ∧
    TriForm 0x0A false true false true (.srr 0 15) ⟨0, 0, 15, 1⟩ ∧ TriForm 0x0C true false true true (.srr 1 2) ⟨1, 2, 2, 1⟩ ∧
    can 2 true [(0, 4)] [(28, 4)] ∧ can 2 true [(0, 4), (4, 4)] [(28, 4)] ∧ can 1 true [(0, 1), (15, 1)] [] ∧ can 1 true [(2, 1)] [(1, 1)] :=
  ⟨tri_long _ _ _ _ _ 2 28 0 0 (by decide) (by decide) (by decide) (by decide), tri_long _ _ _ _ _ 2 28 0 4 (by decide) (by decide) (by decide) (by decide),
   tri_short _ _ _ _ 0 15, tri_short _ _ _ _ 1 2, by decide, by decide, by decide, by decide⟩

theorem witness_MinimaMaximaMagnitude :
    TriForm 0x0D false false false false (.lrrr 1 30 false 31 2 0x0D) ⟨30, 31, 2, 2⟩ ∧ TriForm 0x11 true false false false (.lrrr 0 0 false 31 0 0x11) ⟨0, 31, 0, 1⟩ ∧
    can 2 true [(31, 2), (2, 2)] [(30, 2)] ∧ can 2 true [(31, 1)] [(0, 1)] ∧
    (let x := withG [(31, 0x8000), (2, 0x7FFF)]
     asInt 32 (x.val 31 2) ≤ asInt 32 (x.val 31 2) ∧ asInt 32 (x.val 31 2) ≤ asInt 32 (x.val 2 2) ∧ x.val 2 2 ≤ x.val 31 2) :=
  ⟨tri_long _ _ _ _ _ 1 30 31 2 (by decide) (by decide) (by decide) (by decide),
   tri_long _ _ _ _ _ 0 0 31 0 (by decide) (by decide) (by decide) (by decide), by decide, by decide, by decide⟩

theorem witness_Immediates : can 1 true [] [(15, 1)] ∧ can 1 true [(0, 1)] [(0, 1)] ∧ can 1 true [(15, 1)] [] ∧ can 2 true [] [(31, 1)] ∧
    can 2 true [(31, 1)] [(31, 1)] ∧ can 2 true [(31, 1)] [] ∧ can 2 true [(31, 2)] [(31, 2)] ∧ can 2 true [(31, 2)] [] ∧ can 2 true [] [(31, 2)] := by decide

theorem witness_CountsAndShifts : can 1 true [(15, 1)] [(15, 1)] ∧ can 1 true [] [(0, 1)] ∧ can 1 false [] [] ∧ can 2 true [(31, 1)] [(0, 1)] ∧
    can 2 true [(31, 2), (31, 1)] [(31, 2)] := by decide

theorem witness_FieldsAndBits : (31 : BitVec 6).toNat < 32 ∧ (0 : BitVec 5).toNat + ((31 : BitVec 6).toNat + 1) ≤ 16 * 2 ∧
    (15 : BitVec 5).toNat + ((0 : BitVec 6).toNat + 1) ≤ 16 * 1 ∧ can 2 true [(31, 2)] [(31, 2)] ∧ can 2 true [(31, 2), (31, 2)] [(31, 2)] ∧
    can 2 true [(31, 1)] [(0, 1)] ∧ can 2 true [(31, 2)] [(0, 1)] ∧ can 2 true [(31, 1), (30, 2)] [(30, 2)] := by decide

/-- A context whose data bank is given. -/
def inBank (b : Byte) : Ctx := { withG [(1, 0xFFFF), (2, 0xFFFC)] with bk := b, sys := [(0x28, 0x2A60), (0x29, 0x4C3A), (0x2A, 0x801A), (0x2B, 0xE000)] }

theorem witness_Loads :
    (∀ n : Nat, (zState (inBank 7)).clean c0 7 0xFFFF n) ∧ (zState (inBank 7)).runs c0 1 false ⟨[(1, 1)], [(15, 1)]⟩ = true ∧
    (zState (inBank 7)).runs c0 2 false ⟨[(2, 1)], [(28, 4)]⟩ = true ∧ 28 % 4 = 0 ∧ (((inBank 7).gr 2) + 0).toNat % 4 = 0 ∧
    (zState (inBank 0xDF)).runs c0 2 false ⟨[(2, 1)], [(31, 2)]⟩ = true ∧ (((inBank 0xDF).gr 2) + 0).toNat % 2 = 0 ∧
    (inBank 0xDF).priv ≠ 0 ∧ (inBank 0xDF).lock = false := ⟨fun _ _ _ => rfl, by decide⟩

theorem witness_Stores : (zState (inBank 0)).runs c0 1 false ⟨[(1, 1), (15, 1)], []⟩ = true ∧ (zState (inBank 7)).runs c0 2 false ⟨[(1, 1), (31, 2)], []⟩ = true ∧
    (zState (inBank 7)).runs c0 2 false ⟨[(2, 1), (28, 4)], []⟩ = true ∧ (((inBank 7).gr 2) + 0).toNat % 4 = 0 := by decide

/-- A context that holds LOCK, and one whose reservation another context's store has broken. -/
def lockedCtx (r : Option Nat) : Ctx := { mCtx with lock := true, resv := r }

theorem witness_LockedSequences : can 2 false [(31, 1)] [(0, 1)] ∧ (zState mCtx).clean c0 0 0xFFFF 1 ∧
    (zState (lockedCtx (some 0))).runs c0 2 false ⟨[(31, 1), (0, 1)], []⟩ = true ∧ (zState (lockedCtx none)).runs c0 2 false ⟨[(31, 1), (0, 1)], []⟩ = true ∧
    can 2 false [(31, 1), (0, 1)] [] ∧ (zState (lockedCtx (some 0))).runs c0 1 false ⟨[], []⟩ = true := ⟨by decide, clean_words _ _ _ _, by decide⟩

/-- A context of a level with its stack in bank 1. -/
def onStack (lvl : Nat) (sp : Half) : Ctx :=
  { mCtx with sw := BitVec.ofNat 16 (8192 * lvl), sys := [(stkReg lvl 0, 1), (stkReg lvl 1, sp), (stkReg lvl 2, 0x100), (stkReg lvl 3, 0x200)] }

theorem witness_ControlFlow : can 1 false [] [] ∧ can 2 false [] [] ∧ can 2 false [(26, 1)] [] ∧
    [ljTaken mCtx 0 14, ljTaken mCtx 0 0, ljTaken mCtx 1 6, ljTaken mCtx 2 0, ljTaken mCtx 3 0] = [some true, some false, some true, some false, some true] ∧
    (let x := onStack 0 0x102
     (zState x).runs c0 2 false ⟨[], []⟩ = true ∧ x.lock = false ∧ x.stackValid x.priv = true ∧ x.pushRoom x.priv 2 = true) ∧
    (let x := onStack 1 0x1FE
     (zState x).runs c0 1 false ⟨[], []⟩ = true ∧ x.stackValid x.priv = true ∧ x.popRoom x.priv 2 = true ∧
     ((zState x).peek (ctxKey c0 / 64) (x.stackWord x.priv 0x1FF)).toNat ≤ 6) ∧ (zState (onStack 1 0x1FE)).clean c0 1 0x1FE 2 := by
  refine ⟨by decide, by decide, by decide, by decide, by decide, by decide, clean_words _ _ _ _⟩

theorem witness_SystemRegisters : can 2 false [] [(31, 1)] ∧ can 2 false [(31, 1)] [] ∧ can 2 false [] [] ∧
    (let x := onStack 0 0x102
     (zState x).runs c0 2 false ⟨[(31, 1)], []⟩ = true ∧ (zState x).runs c0 2 false ⟨[], []⟩ = true ∧ x.priv = 0 ∧ x.lock = false ∧
     (x.gr 31).getLsbD 15 = x.sw.getLsbD 15) ∧
    (zState (onStack 1 0x102)).runs c0 2 false ⟨[(31, 1)], []⟩ = true ∧ (onStack 1 0x102).priv = 1 ∧ mCtx.priv = 2 ∧
    (zState (lockedCtx none)).runs c0 2 false ⟨[(31, 1)], []⟩ = true := by decide

theorem witness_GivingUpTheEngine : can 1 false [] [] ∧ mCtx.lock = false ∧ ctxKey c0 = (zState mCtx).blk.supervisor (ctxKey c0 / 64) ∧
    (∀ j, j / 8 = ctxKey c0 / 8 → j ≠ ctxKey c0 → ((zState mCtx).blk.ctx j).st ≠ .ready) := by
  refine ⟨by decide, by decide, by decide, fun j h h' => ?_⟩
  have hk : ctxKey c0 = 0 := by decide
  rw [hk] at h h'
  have hj : j < 8 := by omega
  have : ∀ j : Fin 8, ((zState mCtx).blk.ctx j.val).st ≠ .ready := by decide
  exact this ⟨j, hj⟩

/-- A context at level P on a valid S stack, and the same with a fault outstanding and CEIL P, or at level M. -/
def faultCtx (depth : Byte) : Ctx :=
  { onStack 1 0x200 with sw := 0, fdepth := depth, sys := [(stkReg 1 0, 1), (stkReg 1 1, 0x200), (stkReg 1 2, 0x100), (stkReg 1 3, 0x200),
      (stkReg 2 0, 1), (stkReg 2 1, 0x401), (stkReg 2 2, 0x300), (stkReg 2 3, 0x402)] }

theorem witness_Entries :
    (let x := faultCtx 0
     (zState x).runs c0 2 false ⟨[], []⟩ = true ∧ x.lock = false ∧ x.stackValid 1 = true ∧ x.pushRoom 1 8 = true ∧ (zState x).runs c0 1 false ⟨[], []⟩ = true ∧
     x.df = false ∧ x.mayFault ∧ (zState x).blk.served c0.eng.val = none) ∧
    (let x := faultCtx 1
     (zState x).runs c0 1 false ⟨[], []⟩ = true ∧ x.stackValid 1 = true ∧ x.pushRoom 1 8 = true ∧ x.stackValid 2 = true ∧ x.pushRoom 2 8 = true ∧
     x.isOpen = false ∧ x.fdepth ≠ 0 ∧ x.df = false ∧ (zState x).blk.served c0.eng.val = none) := by
  refine ⟨⟨by decide, by decide, by decide, by decide, by decide, by decide, ?_, by decide⟩, by decide⟩
  unfold Ctx.mayFault
  decide

theorem witness_ReturnFromException :
    (let x := onStack 2 0x1F8
     let w (i : Nat) : Half := (zState x).peek (ctxKey c0 / 64) (x.stackWord x.priv (0x1F8 + i))
     (zState x).runs c0 2 false ⟨[], []⟩ = true ∧ x.lock = false ∧ x.priv ≠ 0 ∧ x.stackValid x.priv = true ∧ x.popRoom x.priv 8 = true ∧
     w 2 &&& 0x03F0 = 0 ∧ (w 2).toNat / 8192 % 4 ≤ x.ceil.toNat ∧ (w 1).toNat / 256 ≤ 6 ∧ w 3 &&& 0x3F00 = 0 ∧ w 6 = 0 ∧ w 7 &&& 0xFE00 = 0) ∧
    (zState (onStack 2 0x1F8)).clean c0 1 0x1F8 8 ∧
    (let s := gated.poke 5 0x313FA 0x8000
     let x := s.ctxOf gateRef
     let w (i : Nat) : Half := s.peek 5 (x.stackWord x.priv (0x13F8 + i))
     s.runs gateRef 2 false ⟨[], []⟩ = true ∧ x.popRoom x.priv 8 = true ∧ (w 3).toNat / 16384 = 2 ∧ w 2 &&& 0x03F0 = 0 ∧
     (w 2).toNat / 8192 % 4 ≤ x.ceil.toNat ∧ (w 1).toNat / 256 ≤ 6 ∧ w 3 &&& 0x3C00 = 0) ∧
    (let x := { onStack 2 0x1F8 with kept := [(0, 0, 2)] }
     (zState x).runs c0 2 false ⟨[], []⟩ = true ∧ (x.kept.find? fun p => p.1 == 0 && p.2.1 == (zState x).peek 0 (x.stackWord x.priv 0x1F8)) = some (0, 0, 2)) :=
  ⟨by decide +kernel, clean_words _ _ _ _, by decide +kernel, by decide +kernel⟩

/-- The gate of 10 with words 0, 1 and 7 of its entry, and with the target in a state. -/
def gateOf (w0 w1 w7 : Half) (rest : Bool) (tg : CtxSt) : State :=
  let s := ((gateState.poke 5 0x4048 w0).poke 5 0x4049 w1).poke 5 0x404F w7
  let s := if rest then s else (((s.poke 5 0x404A 0).poke 5 0x404B 0).poke 5 0x404C 0).poke 5 0x404E 0
  { s with blk := { s.blk with ctxs := [(8 * 42 + 3, { gateCtx with g := [(10, s.peek 5 0x4048 % 16), (11, 0x22)] }), (8 * 42 + 2, { Ctx.reset with st := tg })] } }

/-- The hypotheses that the kinds of gate share. -/
def gateReady (s : State) : Bool :=
  let x := s.ctxOf gateRef
  let e := gateEntry ((List.range 8).map fun i => s.peek 5 (0x4048 + i))
  s.runs gateRef 2 false ⟨[(10, 1)], []⟩ && !x.lock && decide (9 < s.blk.fld (F.EA_GATE_CFG_COUNT 5)) && (s.blk.fld (F.EA_GATE_CFG_BASE 5) * 8 + 8 * 9 == 0x4048) &&
  e.ok && (x.places 11 e.nargs).all (fun i => !s.blk.pendingReg (ctxKey gateRef) i) && (s.blk.gateCheck (ctxKey gateRef) x e 10).isNone

theorem witness_Gates :
    gateReady gateState = true ∧ (∀ i, pget gateState.blk.bmErr (bmKey 5 (0x4048 + i)) = none) ∧
    (let e := gateEntry ((List.range 8).map fun i => gateState.peek 5 (0x4048 + i))
     let y := (((gateCtx.setSr 0x0C 3).setSr 0x0D 0x1400).setSr 0x0E 0x1300).setSr 0x0F 0x1400
     e.kind = 0 ∧ y.stackValid e.level = true ∧ y.pushRoom e.level 8 = true) ∧
    (let s := gateOf 0xA001 0 0 true .idle
     gateReady s = true ∧ (gateEntry ((List.range 8).map fun i => s.peek 5 (0x4048 + i))).kind = 1 ∧ rising 0 (s.ctxOf gateRef).sys = true ∧
     (s.ctxOf gateRef).gateTarget (ctxKey gateRef) 10 = some (8 * 42 + 2)) ∧
    (let s := gateOf 0xC001 0 0 false .stopped
     gateReady s = true ∧ (gateEntry ((List.range 8).map fun i => s.peek 5 (0x4048 + i))).kind = 2 ∧
     (s.ctxOf gateRef).gateTarget (ctxKey gateRef) 10 = some (8 * 42 + 2)) :=
  ⟨by decide +kernel, fun _ => rfl, by decide +kernel, by decide +kernel, by decide +kernel⟩

/-- A context with a count of elements and its string pointers. -/
def strCtx (n : Half) : Ctx := withG [(26, n), (27, 7), (28, 0xFFFF), (29, 0), (30, 0xFFFF)]

theorem witness_Strings :
    StrForm 0x08 0 0b00000111 0 0 (.sn 5 0 0) ∧ StrForm 0x09 1 0b00000110 15 0 (.sn 5 1 15) ∧ StrForm 0x0A 2 0b00001111 31 15 (.lri 0x0A 31 false 15) ∧
    StrForm 0x0B 3 0b00011101 31 0b00011101 (.lri 0x0B 31 false 0b00011101) ∧ StrForm 0x0C 8 0b11100101 31 0xE5 (.lri 0x0C 31 false 0xE5) ∧
    (∀ n : Nat, n ≤ 1 → let s := zState (strCtx (BitVec.ofNat 16 n))
      (s.ctxOf c0).lock = false ∧ s.runs c0 1 false ⟨(26, 5) :: [], [(26, 5)]⟩ = true ∧ s.runs c0 1 false ⟨(26, 5) :: [(15, 1)], [(26, 5)]⟩ = true ∧
      s.runs c0 2 false ⟨(26, 5) :: [(31, 1)], [(26, 5)]⟩ = true ∧ s.runs c0 2 false ⟨(26, 5) :: [(31, 2)], [(26, 5)]⟩ = true) ∧
    (strCtx 1).gr 26 = 1 ∧ (strCtx 0).gr 26 = 0 ∧ (zState (strCtx 1)).clean c0 7 0xFFFF 1 :=
  ⟨.inr ⟨rfl, by decide, rfl⟩, .inr ⟨rfl, by decide, rfl⟩, .inl ⟨by decide, by decide, rfl⟩, .inl ⟨by decide, by decide, rfl⟩,
   .inl ⟨by decide, by decide, rfl⟩, by decide, by decide, by decide, clean_words _ _ _ _⟩

/-- A block with the sockets present. -/
def sockets : State := stateOf { zBlk mCtx with straps := 0xF }

theorem witness_Coprocessors :
    can 2 false [(30, 1), (31, 1)] [(31, 2)] ∧ can 2 false [(28, 4), (24, 4)] [(0, 4)] ∧ can 2 false [(28, 4), (0, 0)] [(2, 2)] ∧
    (zState mCtx).blk.portUse c0.eng.val < 4 ∧ sockets.runs c0 2 false ⟨[(30, 1), (31, 1)], [(31, 1)]⟩ = true ∧ sockets.blk.straps.getLsbD (7 - 4) = true ∧
    (let op : CopOp := ⟨0, 0, 1, [30, 31], 0x8000, 0xFFFF, 0, some 4, none⟩
     let s := stateOf { zBlk mCtx with cops := [(5, op)] }
     pget s.blk.cops 5 = some op ∧ op.held = none ∧ op.dst.Nodup ∧ (∀ i, i ∈ op.dst → i < 64) ∧ op.dst.length ≤ 4 ∧ copRows.any (fun r => r.unit == op.unit &&
       r.fn == op.op % 32 && r.nd == op.dst.length && decide (op.a.toNat < 2 ^ (16 * r.na)) && decide (op.b.toNat < 2 ^ (16 * r.nb))) = true ∧
     (s.blk.pass 4).live = true ∧ 4 ≤ (s.blk.pass 4).now ∧ (s.blk.pass 4).holds op.ctx = false) ∧
    (let op : CopOp := ⟨0, 7, 0xC5, [31], 1, 2, 0, none, none⟩
     let s := stateOf { zBlk mCtx with cops := [(5, op)] }
     pget s.blk.cops 5 = some op ∧ op.dst.Nodup ∧ (s.blk.pass 4096).live = true ∧ (s.blk.pass 4096).now = op.start + 4096 ∧ (s.blk.pass 4096).holds op.ctx = false) ∧
    (let op : CopOp := ⟨0, 7, 0xC5, [31], 1, 2, 0, none, none⟩
     let s := stateOf { zBlk { mCtx with st := .frozen } with cops := [(5, op)] }
     (s.blk.pass 1).live = true ∧ (s.blk.pass 1).holds op.ctx = true) ∧
    (let y : FuUse := ⟨(unitOf 2 3).1, 0, 0, 4, 0, 20⟩
     let s := stateOf { zBlk mCtx with fu := [y], opNo := 5 }
     s.runs c0 2 false ⟨[(28, 4), (24, 4)], [(0, 4)]⟩ = true ∧ y ∈ s.blk.fu ∧ y.fu = 16 * 0 + (unitOf 2 3).1 ∧ s.blk.now < y.free ∧
     y.at_ = max (s.blk.eng c0.eng.val).free s.blk.now ∧ y.slot ≤ s.blk.slotOf c0.eng.val) ∧
    (let op : CopOp := ⟨0, 7, 0xC5, [31], 1, 2, 0, none, none⟩
     let u : Blk := { zBlk mCtx with cops := [(5, op)], now := 4096 }
     pget u.cops 5 = some op ∧ op.start + 4096 ≤ u.now ∧ u.holds op.ctx = false) := by decide +kernel

theorem witness_FloatingPoint : (f32 = f32 ∨ f32 = f64) ∧ f32.finite 0x7F7FFFFF ∧ f32.finite 0x80000001 ∧ f64.finite 1 ∧
    f32.finite (f32.add 3 0x7F7FFFFF 0x80000001).1 ∧ f32.units 0x80000001 ≠ 0 ∧ f32.finite (f32.div 0 0x00000001 0x7F7FFFFF).1 := by
  unfold FFmt.finite
  decide +kernel

/-- A context with a data-mover command in its registers. -/
def moveCtx (cmd : List Half) : Ctx := { inBank 0 with g := [(0, cmd.getD 0 0), (1, cmd.getD 1 0), (2, cmd.getD 2 0), (3, cmd.getD 3 0)] }
/-- A command in the data mover's queue. -/
def moverState (op : DmOp) (got : List (Owner × JobOut)) : State := stateOf { zBlk mCtx with dms := [(9, op)], got := got }
def dmOp (code : Nat) : DmOp := ⟨0, BitVec.ofNat 64 (code * 2 ^ 60 + 3 * 2 ^ 57 + 2 ^ 30 * 5), [0], 0, false, none, true⟩

theorem witness_DataMover :
    (let x := moveCtx [0x2E00, 0, 0x0007, 0x8000]
     let s := zState x
     let d := dmCmd (BitVec.ofNat 64 (x.val 0 4))
     x.lock = false ∧ s.runs c0 2 false ⟨[(0, 4)], []⟩ = true ∧ d.op = 2 ∧ d.opt = 0 ∧ d.pbank ≤ 7 ∧ d.cls = 0 ∧ d.bline + d.n ≤ 0x4000 ∧
     2048 * d.pbank + d.pline + d.n ≤ 0x4000 ∧ d.tag = 7 ∧ s.blk.moverUse c0.eng.val < 8 ∧ s.blk.ans = [] ∧ s.blk.fin = [] ∧ s.blk.tgot = [] ∧ s.blk.ready = none ∧ s.blk.lost = []) ∧
    (let x := moveCtx [0x2E00, 0, 0x0007, 0x8000]
     let s := stateOf { zBlk x with dms := [(9, dmOp 2)], opNo := 10 }
     s.runs c0 2 false ⟨[(0, 4)], []⟩ = true ∧ (dmOp 2).ctx = ctxKey c0 ∧ (dmOp 2).started = true ∧ s.blk.moverUse c0.eng.val < 8) ∧
    (let s : State := { zState (withG [(4, 0xFFFC)]) with mem := [(0x1FFFE, 0x07), (0x1FFFF, 0x20)] }
     let d := dmCmd (BitVec.ofNat 64 (s.memVal c0 0 0xFFFC 4))
     s.runs c0 2 false ⟨[(4, 1)], []⟩ = true ∧ d.op = 2 ∧ d.opt = 0 ∧ d.bline + d.n ≤ 0x4000 ∧ 2048 * d.pbank + d.pline + d.n ≤ 0x4000) ∧
    (let s := moverState (dmOp 0) [(.dmLine 9 0, .line 7 0)]
     (s.blk.pass 1).live = true ∧ (s.blk.pass 1).holds 0 = false ∧ (s.blk.pass 1).moverRuns 0 = true ∧ (dmCmd (dmOp 0).cmd).op = 0 ∧
     (s.blk.pass 1).dmOuts 9 1 = some [.line 7 0]) ∧
    (let s := moverState (dmOp 1) [(.dmLine 9 0, .refused)]
     (s.blk.pass 1).live = true ∧ (s.blk.pass 1).holds 0 = false ∧ (s.blk.pass 1).moverRuns 0 = true ∧ (dmCmd (dmOp 1).cmd).op = 1 ∧
     (s.blk.pass 1).dmOuts 9 1 = some [.refused]) ∧
    (let s := moverState (dmOp 2) []
     let d := dmCmd (dmOp 2).cmd
     (s.blk.pass 1).live = true ∧ (s.blk.pass 1).holds 0 = false ∧ (s.blk.pass 1).moverRuns 0 = true ∧ d.op = 2 ∧ d.bline + d.n ≤ 2048 * (d.pbank % 8) + d.pline) ∧
    (let t : TierRun := ⟨.zero, ⟨0, 0, 0, 0, 0, 0⟩, 0, 0, [], .finished, true, 0, 1, 0⟩
     let op : DmOp := { dmOp 3 with tier := some t }
     let s := moverState op []
     (s.blk.pass 1).live = true ∧ (s.blk.pass 1).holds 0 = false ∧ (s.blk.pass 1).moverRuns 0 = true ∧ (dmCmd op.cmd).op = 3 ∧ t.phase = .finished) := by decide +kernel

/-- A pool-window access of context 0 whose line has come. -/
def poolState (x : Ctx) (op : PoolOp) (r : JobOut) : State := stateOf { zBlk x with pools := [(4, op)], got := [(.pool 4, r)] }
def poolOp (load retired : Bool) : PoolOp := ⟨0, load, if load then [0, 63] else [], [], 30, 0x10000003C, retired, 2, (0x21, 0x1E), .go⟩
def waitingCtx : Ctx := { faultCtx 0 with st := .wait, waitFor := some .pool }

theorem witness_PoolWindowAccesses :
    ([(true, false, .line 7 0), (false, false, .wrote), (true, true, .line 7 0), (true, true, .bad 1), (true, false, .bad 1)] : List (Bool × Bool × JobOut)).all
      (fun x => let op := poolOp x.1 x.2.1
        let s := poolState waitingCtx op x.2.2
        pget s.blk.pools 4 == some op && s.blk.gotOf (.pool 4) == some x.2.2 && s.blk.td.step.isNone && decide op.dst.Nodup && decide (op.dst.length ≤ 4) &&
        op.up.isEmpty && op.fin == .go && op.len != 0 && (s.blk.pass 1).served c0.eng.val == none && op.dst.all (fun i => decide (i < 64)) && (s.blk.pass 1).live && !(s.blk.pass 1).holds 0) = true ∧
    goodLine (.line 7 0) = some 7 ∧ goodLine (.bad 1) = none ∧ waitingCtx.mayFault ∧
    (let x := { faultCtx 0 with defer := true }
     x.mayFault ∧ x.defer = true ∧ x.st = .run ∧ ((zState x).blk.pass 1).live = true ∧ ((zState x).blk.pass 1).executes c0.eng.val = true ∧
     ((zState x).blk.pass 1).served c0.eng.val = none) := by
  refine ⟨by decide +kernel, by decide +kernel, by decide +kernel, ?_, ?_, by decide +kernel⟩ <;> (unfold Ctx.mayFault; decide)

theorem witness_AccessesBegin :
    (let x := inBank 0x21
     let s := zState x
     s.runs c0 1 false ⟨[(2, 1)], [(15, 1)]⟩ = true ∧ s.runs c0 2 false ⟨[(2, 1), (28, 4)], []⟩ = true ∧ s.runs c0 2 false ⟨[(2, 1)], [(31, 2)]⟩ = true ∧
     x.lock = false ∧ (x.gr 2 + 0).toNat % 4 = 0 ∧ (match x.pool 0x21 0xFFFC false with | .ok _ => true | .error _ => false) = true) ∧
    (let x := moveCtx [0x0640, 0x4200, 0, 0]
     let s := zState x
     let cmd := BitVec.ofNat 64 (x.val 0 4)
     s.runs c0 2 false ⟨[(0, 4)], []⟩ = true ∧ (match x.dmCheck (dmCmd cmd) with | .ok _ => true | .error _ => false) = true ∧
     ((dmCmd cmd).tag = 7 ∨ pget x.tags (dmCmd cmd).tag = none) ∧ s.blk.moverUse c0.eng.val < 8 ∧ s.blk.ans = [] ∧ s.blk.fin = [] ∧ s.blk.tgot = [] ∧
     s.blk.ready = none ∧ s.blk.lost = []) := by decide +kernel

theorem witness_RowsAreRegisterWrites : writeOf (.slotTableWrite .mailbox 0x6400 1) = some (.mailbox, 0x6400, 1) ∧
    writeOf (.energyLimitWrite .mailbox 0x30BC 1) = some (.mailbox, 0x30BC, 1) ∧ writeOf (.tbEnable .mailbox 1) = some (.mailbox, F.SC_TB_CTRL_off, 1) ∧
    State.reset.blk.ans = [] ∧ State.reset.blk.fin = [] ∧ State.reset.blk.tgot = [] ∧ State.reset.blk.ready = none ∧
    State.reset.blk.lost = [] := by decide +kernel

theorem witness_Raises : let s := blkWith [(F.EV_GCTL_STORM, 0)]
    (249 : Nat) < 250 ∧ s.fld F.EV_GCTL_STORM = 0 ∧ s.rbit ((srcPage 249).1 + 0x10) (249 - (srcPage 249).2) = false ∧
    s.blockHalted = false ∧ s.ev.frozen = false ∧ s.tb.spNext = none := by decide +kernel

/-- A condition holds in the cycle after, in a block where events take place. -/
def at1 (b : Blk) (p : Blk → Bool) : Bool := (b.pass 1).live && p (b.pass 1)
/-- Registers of a block. -/
def withRegs (b : Blk) (l : List (Nat × Word)) : Blk := l.foldl (fun s x => s.wr x.1 x.2) b

theorem witness_PageHeaders :
    ([(.mailbox, 2, 0), (.i3c, 3, 0), (.engine 31, 1, 31)] : List (Req × Nat × Nat)).all (fun x =>
      lockName x.1 == some (x.2.1, x.2.2) && Blk.reset.takes x.1 0x1004 && Blk.reset.takes x.1 0x101C &&
      (F.PAGE_LOCK_KIND 0x1000).get (BitVec.ofNat 32 (x.2.1 * 64 + x.2.2)) == x.2.1 && (F.PAGE_LOCK_ID 0x1000).get (BitVec.ofNat 32 (x.2.1 * 64 + x.2.2)) == x.2.2) = true ∧
    (pageOf 0x1000).any (fun p => p.base == 0x1000 && p.kind != .segTable && p.kind != .slotTable && p.kind != .patchWin) = true ∧
    Blk.reset.fld (F.PAGE_LOCK_KIND 0x1000) = 0 ∧ Blk.reset.takes .monitor 0x101C = true ∧ Blk.reset.takes .monitor F.BLK_ATTN_SET_off = true ∧
    (blkWith [(F.PAGE_LOCK_KIND 0x1000, 1), (F.PAGE_LOCK_ID 0x1000, 3)]).takes (.engine 3) 0x101C = true ∧
    Blk.reset.phase = .running ∧ Blk.reset.ans = [] ∧ Blk.reset.fin = [] ∧ Blk.reset.tgot = [] ∧ Blk.reset.ready = none ∧
    Blk.reset.lost = [] := by
  and_intros <;> decide +kernel

/-- A block in reset. -/
def heldBlk (pll rst lost : Bool) : Blk := { Blk.reset with phase := .held, pll := pll, lockLost := lost, pins := { Pins.reset with rstN := rst } }

theorem witness_ResetAndTestPort :
    (Blk.reset.pass 3).phase = .running ∧ ((heldBlk true false false).pass 3).phase = .held ∧ ((heldBlk true false false).pass 3).pins.rstN = false ∧
    ((heldBlk true false false).pass 3).pll = true ∧ ((heldBlk true false false).pass 3).lockLost = false ∧ ((heldBlk false false false).pass 3).pll = false ∧
    ((heldBlk true true false).pass 3).pins.rstN = true ∧ ((heldBlk false true false).pass 3).phase = .held ∧ ((heldBlk false true false).pass 3).lockLost = false ∧
    ((heldBlk false true true).pass 3).lockLost = true ∧ (heldBlk true false false).pins.rstN = false ∧ Blk.reset.pins.rstN = true ∧
    (5 < (31 : BitVec 5).toNat) ∧ (1 ≤ (5 : BitVec 5).toNat ∧ (5 : BitVec 5).toNat ≤ 5) := by
  and_intros <;> decide +kernel

/-- The tracker in a state, with fields and its own state. -/
def tbIn (st : Nat) (l : List (Fld × Nat)) (f : Timebase → Timebase) : Blk :=
  let b := blkWith ((F.SC_TB_STAT_STATE, st) :: l)
  { b with tb := f b.tb }

theorem witness_TimebaseEvents :
    -- edges: ignored, both at once, too soon, an up and a down step, one that misses the index, one with a period
    at1 (tbIn 0 [] id) (fun k => k.tbState == 0) ∧ at1 (tbIn 2 [(F.SC_TB_CTRL_MODE, 1)] id) (fun k => k.fld F.SC_TB_CTRL_MODE == 1 && k.tbState == 2) ∧
    at1 (tbIn 4 [] fun t => { t with lastEdge := some 0 }) (fun k => (k.tbSees true false true).isSome &&
      k.tb.lastEdge.any (fun c => decide (k.now - c < k.fld F.SC_TB_TIMING_MINSP))) ∧
    at1 (tbIn 2 [] fun t => { t with pos := 0x7FFFF, cmpVal := [(0, 0x80000), (1, 0x80000)] }) (fun k => k.tbSees true false false == some true ||
      k.tbSees true false true == some true) ∧
    at1 (tbIn 2 [] fun t => { t with pos := 0x7FFFF, idxSeen := false }) (fun k => (k.tb.pos + 1).extractLsb' 0 20 == 0x80000#20 && !k.tb.idxSeen &&
      (k.tbSees true false true == some false || k.tbSees true false false == some false)) ∧
    at1 (tbIn 3 [(F.SC_TB_CTRL_OUTEN, 1), (F.SC_TB_CTRL_MODE, 1), (F.SC_TB_TIMING_MINSP, 0)] fun t => { t with perOpen := true, lastEdge := some 0 }) (fun k =>
      k.tb.perOpen && k.tbSees true false true == some false && k.tb.lastDown == false && k.tb.lastEdge == some 0) ∧
    -- holdover and compare hits
    (let u : Blk := { tbIn 3 [(F.SC_TB_TIMING_LOSS, 64)] id with now := 64 }
     u.live = true ∧ u.tbState = 3 ∧ u.lossNow ≤ u.now - u.tb.lossFrom ∧ u.tb.lossWas = none) ∧
    (let u : Blk := { tbIn 2 [(F.SC_TB_TIMING_LOSS, 64)] (fun t => { t with lossWas := some (63, 65) }) with now := 63 }
     u.live = true ∧ ¬ u.lossNow ≤ u.now - u.tb.lossFrom) ∧ at1 (tbIn 2 [] id) (fun k => k.tbState == 2) ∧
    at1 (tbIn 4 [] fun t => { t with acc := 0x1F0000 }) (fun k => decide (0x200000 = k.tb.acc + (k.now - k.tb.accAt) * 2 ^ 16) && k.fld F.SC_TB_STAT_SPVALID == 0) ∧
    at1 (tbIn 2 [(F.SC_CMP_OWN_KIND 7, 1)] fun t => { t with due := 0x80 }) (fun k => k.tb.due.getLsbD 7 && k.fld (F.SC_CMP_OWN_KIND 7) == 1) ∧
    at1 (tbIn 2 [(F.SC_CMP_OWN_KIND 2, 2), (F.SC_CMP_OWN_ID 2, 31)] fun t => { t with due := 0x04 }) (fun k => k.tb.due.getLsbD 2 && k.fld (F.SC_CMP_OWN_KIND 2) == 2) ∧
    -- index edges
    at1 (tbIn 1 [] id) (fun k => k.tbState == 1) ∧ at1 (tbIn 4 [] id) (fun k => k.tbState == 4) ∧
    at1 (tbIn 3 [(F.SC_TB_CTRL_REALIGN, 1)] id) (fun k => k.tbState == 3 && k.fld F.SC_TB_CTRL_REALIGN == 1) ∧
    at1 (tbIn 2 [(F.SC_TB_CTRL_REALIGN, 1)] fun t => { t with pos := 1 }) (fun k => k.tbState == 2 && k.tb.pos.extractLsb' 0 20 != 0) ∧
    at1 (tbIn 2 [(F.SC_TB_CTRL_REALIGN, 1)] fun t => { t with pos := 0x100000 }) (fun k => k.tbState == 2 && k.tb.pos.extractLsb' 0 20 == 0) ∧
    at1 (tbIn 2 [] fun t => { t with pos := 0x100000 }) (fun k => k.fld F.SC_TB_CTRL_REALIGN == 0 && k.tb.pos.extractLsb' 0 20 == 0) ∧
    at1 (tbIn 2 [] fun t => { t with pos := 0xFFFFF }) (fun k => k.fld F.SC_TB_CTRL_REALIGN == 0 && k.tb.pos.extractLsb' 0 20 != 0) := by
  and_intros <;> decide +kernel

theorem witness_TimebaseRegisters :
    Blk.reset.takes .mailbox F.SC_TB_CTRL_off = true ∧ Blk.reset.takes .monitor F.SC_TB_TIMING_off = true ∧
    ((List.range 8).all fun n => Blk.reset.takes (.engine 0) (F.SC_CMP_OWN_off n) && Blk.reset.takes .i3c (F.SC_CMP_LO_off n) && Blk.reset.takes .i3c (F.SC_CMP_HI_off n)) = true ∧
    Blk.reset.fld (F.SC_CMP_OWN_KIND 7) = 0 ∧ (blkWith [(F.SC_CMP_OWN_KIND 2, 2), (F.SC_CMP_OWN_ID 2, 31)]).fld (F.SC_CMP_OWN_ID 2) = (31 : Word).toNat % 32 ∧
    (tbIn 2 [] fun t => { t with lossFrom := 0 }).tbState = 2 ∧ max ((64 * 2 ^ 16 : Word).toNat / 2 ^ 16) 64 = 64 := by
  and_intros <;> decide +kernel

theorem witness_FrameBoundaries :
    at1 (tbIn 2 [] fun t => { t with due := 1 }) (fun k => k.tb.due.getLsbD 0 && !k.tb.due.getLsbD 1) ∧
    at1 (tbIn 2 [] fun t => { t with due := 3 }) (fun k => k.tb.due.getLsbD 1) ∧ at1 (tbIn 2 [] id) (fun k => !k.tb.due.getLsbD 1) := by
  and_intros <;> decide +kernel

/-- The shadow copy's check in progress. -/
def checking : Blk := let b := blkWith [(F.SC_TBL_STAT_STATE, 1), (F.SC_TBL_CTRL_NEXT, 1)]
  { b with now := 1039 }

theorem witness_ScheduleTables :
    Blk.reset.takes .mailbox F.SC_TBL_CTRL_off = true ∧ Blk.reset.takes .mailbox 0x12FFFC = true ∧ Blk.reset.takes .mailbox 0x67FC = true ∧
    at1 checking (fun k => k.fld F.SC_TBL_STAT_STATE == 1 && decide (k.sched.checkAt + 1040 ≤ k.now)) ∧
    at1 Blk.reset (fun k => k.fld F.SC_TBL_STAT_STATE == 0) ∧ Blk.reset.phase = .running ∧
    (let s := blkWith [(F.SC_TBL_STAT_STATE, 2)]
     s.fld F.SC_TBL_STAT_STATE = 2 ∧ s.sched.target ≤ s.tb.frame) ∧
    (let u : Blk := { blkWith [(F.SC_TBL_STAT_STATE, 2)] with tb := { Timebase.reset with due := 2, cmpVal := [(1, 0x5000)] }, sched := { Blk.reset.sched with armedAt := 7, target := 5 }, now := 9 }
     u.fld F.SC_TBL_STAT_STATE = 2 ∧ u.tb.due.getLsbD 1 = true ∧ u.sched.target ≤ (u.cmpOf 1).extractLsb' 12 36 ∧ u.sched.armedAt ≠ u.now) ∧
    (let s : Blk := { blkWith [(F.SC_TBL_STAT_STATE, 2)] with sched := { Blk.reset.sched with armedAt := 7, byNext := true }, tb := { Timebase.reset with bndAt := 7 } }
     s.fld F.SC_TBL_STAT_STATE = 2 ∧ s.sched.armedAt = s.tb.bndAt ∧ s.sched.target ≤ s.tb.frame ∧ s.sched.byNext = true ∧ s.tb.frame + 1 ≠ 0) ∧
    (let s : Blk := { blkWith [(F.SC_TBL_STAT_STATE, 2)] with sched := { Blk.reset.sched with armedAt := 7, byNext := true, target := 0xFFFFFFFFF }, tb := { Timebase.reset with bndAt := 7, frame := 0xFFFFFFFFF } }
     s.sched.armedAt = s.tb.bndAt ∧ s.sched.target ≤ s.tb.frame ∧ s.tb.frame + 1 = 0 ∧ s.sched.cancelAt ≠ some s.tb.bndAt) ∧
    (let s : Blk := { Blk.reset with sched := { Blk.reset.sched with cancelAt := some 7 }, tb := { Timebase.reset with bndAt := 7 } }
     s.fld F.SC_TBL_STAT_STATE ≠ 2 ∧ s.sched.cancelAt = some s.tb.bndAt ∧ s.sched.target ≤ s.tb.frame) ∧
    (let s : Blk := { Blk.reset with sched := { Blk.reset.sched with cancelAt := none } }
     s.fld F.SC_TBL_STAT_STATE ≠ 2 ∧ s.sched.cancelAt ≠ some s.tb.bndAt) ∧
    (blkWith [(liveFld 7 31, 1)]).fld (liveFld 7 31) = 1 ∧ (blkWith [(liveFld 1 0, 0xFFFE)]).fld (liveFld 1 0) = 0xFFFE ∧
    (blkWith [(liveFld 1 0, 0xFFFF)]).fld (liveFld 1 0) = 0xFFFF := by
  and_intros <;> decide +kernel

/-- A block with a segment table entry 0 and a message for it. -/
def segBlk (w0 : Word) (l : List (Fld × Nat)) : Blk := withRegs (blkWith ((F.HP_CTRL_EN 3, 1) :: l)) [(segOff 0 0, w0)]
def m2s (a : PAddr) (hint : Fin 8192) (ecc : List (Fin 4)) : M2S := ⟨a, 7, none, hint, ecc⟩
/-- An entry that stands. -/
def opnLed : Led := { Led.blank with st := .opn }

theorem pget_filled {α : Type} (v : α) (a n i : Nat) (h : i < n) : pget ((List.range' a n).map fun j => (j, v)) (a + i) = some v := by
  induction n generalizing a i with
  | zero => omega
  | succ n ih =>
    rw [List.range'_succ, List.map_cons, pget]
    by_cases h0 : i = 0
    · simp [h0]
    · rw [if_neg (by omega)]
      have := ih (a + 1) (i - 1) (by omega)
      rwa [show a + 1 + (i - 1) = a + i by omega] at this

/-- A block whose ledger of port 3 is full. -/
def fullBlk : Blk := let b := blkWith [(F.HP_CTRL_EN 3, 1)]
  { b with led := (List.range' (8192 * 3) 8192).map fun j => (j, opnLed) }

set_option maxRecDepth 20000 in
theorem fullBlk_led : (fullBlk.pass 1).led = (List.range' (8192 * 3) 8192).map fun j => (j, opnLed) := by decide +kernel

theorem witness_MemoryRequests :
    at1 Blk.reset (fun k => k.fld (F.HP_CTRL_EN 3) == 0) ∧ at1 fullBlk (fun k => k.fld (F.HP_CTRL_EN 3) == 1 && k.fld F.TW_CTRL_LEAVE == 0) ∧
    (∀ j, (((fullBlk.pass 1).ent 3 (j % 8192)).st ≠ .free)) ∧
    (let b := segBlk 0x80F00000 []
     at1 { b with led := (List.range 1024).map fun j => (8192 * 3 + j, { opnLed with op := .wr }) } (fun k => k.wrBufs 3 == 1024 &&
       (k.ent 3 8191).st == .free)) ∧
    -- the four errors, and none: a read of a private segment, a partial write of a mirrored one
    at1 (segBlk 0x80F00000 []) (fun k => (k.ent 3 8191).st == .free && (k.jobOf (.led 3 8191)).isNone && decide (k.wrBufs 3 < 1024) &&
      segValid (k.segWord 0 0) (k.segWord 0 1) (k.segWord 0 2) && (k.segWord 0 0).getLsbD 23) ∧
    at1 (segBlk 0x80700000 []) (fun k => segValid (k.segWord 0 0) (k.segWord 0 1) (k.segWord 0 2) && !(k.segWord 0 0).getLsbD 23) ∧
    at1 (segBlk 0 []) (fun k => !segValid (k.segWord 0 0) (k.segWord 0 1) (k.segWord 0 2)) ∧ (1 : Fin 4) ∈ (m2s 0 8191 [1]).ecc ∧
    at1 (segBlk 0x84F00000 [(F.HP_CTRL_CMDEN 3, 1)]) (fun k => segValid (k.segWord 0 0) (k.segWord 0 1) (k.segWord 0 2) && segCMDSEG (k.segWord 0 0) &&
      k.fld (F.HP_CTRL_CMDEN 3) == 1) ∧
    at1 (segBlk 0xA0F00000 [(F.TW_STAT_STATE, 2)]) (fun k => segMIRR (k.segWord 0 0) && k.twState == 2) := by
  refine ⟨by decide +kernel, by decide +kernel, fun j => ?_, by decide +kernel, by decide +kernel, by decide +kernel, by decide +kernel, by decide +kernel,
    by decide +kernel, by decide +kernel⟩
  rw [Blk.ent, fullBlk_led, ledKey, tget, pget_filled _ _ _ _ (Nat.mod_lt _ (by decide))]
  decide

/-- A block with one ledger entry and line accesses. -/
def ledBlk (p i : Nat) (e : Led) (jobs : List (Nat × Job)) : Blk := { Blk.reset with led := [(ledKey p i, e)], jobs := jobs, jobNo := 9, seqNo := 9 }
/-- A line access. -/
def aJob (o : Owner) (op : MemOp) (ph : JPhase) : Job := { Job.start o op 0x40 1 0x80F00000 0 0 3 with phase := ph }

/-- An entry in a state, stamped a microsecond ago, and the same with its limit expired once. -/
def ledIn (st : LSt) (op : MemOp) (tout own : Bool) : Led := { Led.blank with st := st, op := op, stamp := 0xFFFFF, tout := tout, own := own, cls := 1, seq := 5 }
/-- A block whose port 3 has a transaction limit of 0 µs and one such entry, the last of the ledger. -/
def ledAt (st : LSt) (op : MemOp) (tout own : Bool) (jobs : List (Nat × Job)) : Blk :=
  { ledBlk 3 8191 (ledIn st op tout own) jobs with regs := (blkWith [(F.HP_TXN_LIMIT_LIMIT 3, 0)]).regs }
/-- The limit has run out once, or twice. -/
def aged (k : Blk) : Bool :=
  let e := k.ent 3 8191
  let age := (k.us + 2 ^ 20 - e.stamp.toNat) % 2 ^ 20
  if e.tout then decide (2 * k.fld (F.HP_TXN_LIMIT_LIMIT 3) + 1 ≤ age) && !e.failing else decide (k.fld (F.HP_TXN_LIMIT_LIMIT 3) + 1 ≤ age)

theorem check_word (x : BitVec 24) : (x ++ 0#8 : Word).extractLsb' 8 24 = x := by
  have h : (x ++ 0#8 : Word).toNat = x.toNat * 256 := by rw [BitVec.toNat_append]; simp [Nat.shiftLeft_eq]
  apply BitVec.eq_of_toNat_eq
  rw [BitVec.extractLsb'_toNat, h, Nat.shiftRight_eq_div_pow]
  have := x.isLt
  omega

theorem witness_Ledgers :
    at1 (ledAt .held .rd false false []) (fun k => (k.ent 3 8191).st == .held && !k.conflicts 0 false 5 && (k.jobOf (.led 3 8191)).isNone && aged k) ∧
    at1 { ledAt .held .rd false false [] with led := [(0, { ledIn .engine .wr false false with seq := 4 }), (ledKey 3 8191, ledIn .held .rd false false)] } (fun k =>
      (k.ent 3 8191).st == .held && k.conflicts 0 false 5) ∧
    at1 (ledBlk 3 8191 { ledIn .resp .rd false false with rsp := some ⟨true, 7, true, 0, 0⟩ } []) (fun k => (k.ent 3 8191).st == .resp && (k.ent 3 8191).rsp.isSome &&
      k.twState != 7) ∧
    at1 { ledBlk 3 8191 { ledIn .resp .rd false false with rsp := some ⟨true, 7, true, 0, 0⟩ } [] with regs := (blkWith [(F.TW_STAT_STATE, 7)]).regs } (fun k => k.twState == 7) ∧
    at1 (ledAt .direct .rd false false []) aged ∧ at1 (ledAt .twin .wr false false []) aged ∧ at1 (ledAt .opn .rd false false []) aged ∧
    at1 Blk.reset (fun k => (k.ent 3 8191).st == .free) ∧ at1 (ledAt .engine .rd true true []) aged ∧
    at1 (ledAt .engine .rd true false [(2, aJob (.led 3 8191) .rd .read)]) (fun k => aged k && (k.jobOf (.led 3 8191)).isSome) ∧
    at1 (ledAt .engine .wr true false [(2, aJob (.led 3 8191) .wr .remote)]) (fun k => aged k && (k.jobOf (.led 3 8191)).isSome) ∧
    at1 (ledAt .engine .wr true false [(2, aJob (.led 3 8191) .wr .held)]) (fun k => aged k && (k.jobOf (.led 3 8191)).isSome) ∧
    at1 (ledAt .engine .ptl true false [(2, aJob (.led 3 8191) .ptl .write)]) (fun k => aged k && (k.jobOf (.led 3 8191)).isSome) ∧
    Blk.reset.takes .mailbox (F.HP_LED_IDX_off 3) = true ∧ Blk.reset.takes .mailbox (F.HP_TXN_LIMIT_off 3) = true ∧
    ({ Led.blank with cls := 7, bay := 31 } : Led).cls < 8 ∧
    (let s := ledBlk 3 8191 (ledIn .direct .rd false false) []
     (s.ent 3 8191).st = .direct ∧ (s.ent 3 8191).own = false ∧ (s.ent 3 8191).mirr = false ∧ (s.jobOf (.led 3 8191)).isNone = true) ∧
    (∀ (d : Line) (a : PAddr) (g : BitVec 8), mint d a g = (mint d a g ++ 0#8 : Word).extractLsb' 8 24) := by
  and_intros <;> first | exact fun _ _ _ => (check_word _).symm | decide +kernel

/-- A boundary queue with room, and one that is full, whatever the controllers' depths and pace are. -/
theorem witness_Ledgers_queue : Blk.reset.s2mFull 3 = false ∧ ∃ k : Blk, k.live = true ∧ k.s2mFull 3 = true := by
  refine ⟨by simp [Blk.s2mFull, Blk.reset], { Blk.reset with
    s2m := List.replicate (Config.queueExtra 3 + 1 + Config.queueTaken 3 Blk.reset.now) ⟨3, 0, true, 0, true, 0, 0⟩ }, by decide +kernel, ?_⟩
  simp [Blk.s2mFull]

/-- A Direct Path read whose limit runs out with its line decided, or not, and with another line than its check value. -/
def readBack (c : Nat) (o : RdOut) : Led := { ledIn .direct .rd false false with got := some (c, .rd o) }
theorem witness_Ledgers_decided :
    ((readBack 1 (.line 5 0 false)).st = .direct ∧ (readBack 1 (.line 5 0 false)).got = some (1, .rd (.line 5 0 false)) ∧ 1 + 6 ≤ 7) ∧
    (let x := readBack 1 .listed
     x.mirr = false ∧ 1 + 5 ≤ 6) ∧
    (ledAt .direct .rd false false []).live = true ∧ aged { ledAt .direct .rd false false [] with now := 400 } = true ∧
    aged { ledAt .opn .rd false false [] with now := 400 } = true ∧
    at1 (ledBlk 3 8191 { ledIn .resp .rd false false with rsp := some ⟨true, 7, true, 0, 0⟩, flip := some 1 } []) (fun k => (k.ent 3 8191).flip.isSome) ∧
    pwf (ledAt .twin .wr false false []).led = true := by
  and_intros <;> decide +kernel

theorem witness_Segments :
    Blk.reset.takes .mailbox 0x10FFFC = true ∧ (segBlk 0xA0F00000 []).takes (.engine 0) 0x100000 = true ∧
    ((segBlk 0xA0F00000 []).segWord 0 0).getLsbD 31 = true ∧ (∀ n, pget (segBlk 0xA0F00000 []).segBad n = none) ∧ (Blk.reset.segWord 4095 0).getLsbD 31 = false ∧
    at1 { Blk.reset with now := 4095, tw := { Twin.reset with sumAt := some 0 } } (fun k => k.tw.sumAt.any fun t => decide (t + 4096 ≤ k.now)) ∧
    at1 { blkWith [(F.TW_STAT_STATE, 1)] with now := 4095, tw := { Twin.reset with sumAt := some 0, helloRx := some ⟨true, 0, false, 0, 0, 0, 1⟩ } } (fun k =>
      k.twState == 1 && k.tw.helloTx.isNone && k.tw.helloRx.any fun p => (helloCheck ⟨false, 0, false, 0, 0, 0, 1⟩ p).isNone) ∧
    helloCheck ⟨false, 0, false, 0, 0, 0, 1⟩ ⟨false, 0, false, 0, 0, 0, 1⟩ = some 0x30 ∧
    segCHLOG 0x00000500 = 5 ∧ segCHBASE 0x00000500 % 2 ^ 5 = 0 ∧ segCHLOG 31 = 0 ∧ segCHBASE 31 = 31 ∧ (31 : Nat) < segCHBASE 31 + 2 ^ 0 ∧
    2 ^ 30 - 1 < shareSize 31 := by
  and_intros <;> first | exact fun _ => rfl | decide +kernel

/-- A codeword of which no three symbols make a codeword: its syndromes are zero but for the last. -/
def badWord : Codeword := 0xf1264acca43aa10b982e26f5 <<< 544

theorem gfMul_zero (b : BitVec 16) : gfMul 0 b = 0 := by
  have h : ∀ (l : List Nat) (p : BitVec 16 × BitVec 16), p = (0, 0) → (l.foldl (fun (p : BitVec 16 × BitVec 16) i =>
      (if b.getLsbD i then p.1 ^^^ p.2 else p.1, gfX p.2)) p) = (0, 0) := by
    intro l
    induction l with
    | nil => exact fun _ h => h
    | cons i l ih =>
      intro p hp
      subst hp
      exact ih _ (by simp [gfX])
  exact congrArg Prod.fst (h _ _ rfl)

theorem locPoly_length (l : List (BitVec 16)) : (locPoly l).length = l.length + 1 := by
  induction l with
  | nil => rfl
  | cons x l ih => simp [locPoly, ih]

theorem gfMul_zero_right (a : BitVec 16) : gfMul a 0#16 = 0#16 := by
  have h : ∀ (l : List Nat) (p : BitVec 16 × BitVec 16), (l.foldl (fun (p : BitVec 16 × BitVec 16) i =>
      (if (0 : BitVec 16).getLsbD i then p.1 ^^^ p.2 else p.1, gfX p.2)) p).1 = p.1 := by
    intro l
    induction l with
    | nil => exact fun _ => rfl
    | cons i l ih => exact fun p => by rw [List.foldl_cons, ih]; simp
  exact h _ _

theorem dotGf_zeros (l : List (BitVec 16)) (x : BitVec 16) (h : l.length ≤ 5) : dotGf l [0, 0, 0, 0, 0, x] = 0 := by
  match l with
  | [] => rfl
  | [_] | [_, _] | [_, _, _] | [_, _, _, _] | [_, _, _, _, _] => simp [dotGf, gfMul_zero_right]
  | _ :: _ :: _ :: _ :: _ :: _ :: _ => simp only [List.length_cons] at h; omega

theorem solveAt_fails (ps : List Nat) (h : ps.length ≤ 5) : solveAt [0, 0, 0, 0, 0, 1] ps = none := by
  have hv : ∀ p ∈ ps, errValue [0, 0, 0, 0, 0, 1] ps p = 0 := by
    intro p hp
    unfold errValue
    dsimp only
    rw [dotGf_zeros, gfMul_zero]
    rw [locPoly_length, List.length_map]
    have : (ps.filter (· ≠ p)).length < ps.length := List.length_filter_lt_length_iff_exists.mpr ⟨p, hp, by simp⟩
    omega
  unfold solveAt
  have hs : ∀ l : List (Nat × BitVec 16), (∀ e ∈ l, e.2 = 0) →
      l.foldl (fun a e => a ^^^ gfMul e.2 (gfPow (locator e.1) 5)) 0 = 0 := by
    intro l
    induction l with
    | nil => exact fun _ => rfl
    | cons e l ih =>
      intro hl
      rw [List.foldl_cons, hl e (List.mem_cons_self ..), gfMul_zero]
      exact ih fun e he => hl e (List.mem_cons_of_mem _ he)
  have h5 := hs (ps.map fun p => (p, errValue [0, 0, 0, 0, 0, 1] ps p)) (by
    intro e he
    obtain ⟨p, hp, rfl⟩ := List.mem_map.mp he
    exact hv p hp)
  rw [if_neg]
  intro hall
  have := List.all_eq_true.mp hall 5 (by decide)
  rw [h5] at this
  exact absurd this (by decide)

theorem solve_fails (er : List Nat) (n : Nat) (h : er.length + n ≤ 5) : solve [0, 0, 0, 0, 0, 1] er n = none := by
  have hc : ∀ (k : Nat) (l ps : List Nat), ps ∈ choose k l → ps.length = k := by
    intro k l
    induction l generalizing k with
    | nil => cases k <;> simp [choose]
    | cons x l ih =>
      intro ps hps
      cases k with
      | zero => simp [choose] at hps; simp [hps]
      | succ k =>
        simp only [choose, List.mem_append, List.mem_map] at hps
        obtain ⟨q, hq, rfl⟩ | hq := hps
        · simp [ih k q hq]
        · exact ih _ ps hq
  unfold solve
  rw [List.findSome?_eq_none_iff]
  intro m hm
  rw [List.findSome?_eq_none_iff]
  intro ps hps
  rw [solveAt_fails, Option.map_none]
  have := hc m _ ps hps
  have := List.mem_range.mp hm
  simp
  omega

theorem bad_syndromes : syndromes badWord = [0, 0, 0, 0, 0, 1] := by decide +kernel

theorem badWord_fails (m : Option Nat) : decode badWord m = .failed := by
  have h : ([0, 0, 0, 0, 0, 1] : List (BitVec 16)).all (· == 0) = false := by decide
  unfold decode
  rw [bad_syndromes]
  simp only [h]
  cases m with
  | none => rw [solve_fails _ _ (by decide)]; rfl
  | some d => simp only []; rw [solve_fails _ _ (by simp [deviceSyms])]; rfl

theorem bad_unlocated : fittingDevices badWord = [] := by
  unfold fittingDevices
  rw [bad_syndromes, List.filter_eq_nil_iff]
  intro d _
  rw [solveAt_fails _ (by simp [deviceSyms])]
  simp

/-- A slice with its own state. -/
def sliceBlk (l : List (Fld × Nat)) (x : Slice → Slice) : Blk := { blkWith l with mu := [(31, x Slice.reset)] }
/-- A line command. -/
def aReq (wr : Bool) (p : Purp) : MReq := ⟨1, wr, 0, 0, 0, p, none, 0, 0, false, false, false⟩
/-- A slice with one command issued to its channel. -/
def outBlk (r : MReq) (l : List (Fld × Nat)) : Blk := sliceBlk l fun x => { x with out := [(63, r)] }
/-- Its command is out. -/
def isOut (k : Blk) : Bool := (pget (k.slice 31).out 63).isSome

theorem witness_CodecAndMedia :
    decode 0 none = .clean ∧ decode 1 none = .fixed 0 1 ∧ decode badWord none = .failed ∧ decode badWord (some 9) = .failed ∧
    Blk.reset.marked 31 0 = none ∧ (blkWith [(F.MU_DFM_VALID 31 0, 1), (F.MU_DFM_DEV 31 0, 9)]).marked 31 0 = some 9 ∧
    (blkWith [(F.MU_DFM_UECNT 31 0, 14)]).fld (F.MU_DFM_UECNT 31 0) = 14 ∧ (blkWith [(F.MU_CTRL_LOCEN 31, 1)]).bit (F.MU_CTRL_LOCEN 31) = true ∧
    (blkWith [(F.MU_CE_THR_THR 31, 1)]).fld (F.MU_CE_THR_THR 31) = min (2 ^ (F.MU_CE_CNT_COUNT 31).w - 1) (Blk.reset.fld (F.MU_CE_CNT_COUNT 31) + 1) ∧
    at1 Blk.reset (fun k => (pget (k.slice 31).out 63).isNone) ∧
    at1 (outBlk (aReq false (.job 3)) []) (fun k => isOut k && k.fld (F.MU_CTRL_FENCE 31) == 0) ∧
    at1 (outBlk (aReq false .scrub) [(F.MU_CTRL_FENCE 31, 1)]) (fun k => isOut k && k.fld (F.MU_CTRL_FENCE 31) == 1) ∧
    at1 (outBlk (aReq true .scrubWb) []) (fun k => isOut k) ∧
    at1 (outBlk (aReq true (.job 3)) [(F.MU_RET_CTRL_RETIRED 31, 1)]) (fun k => k.fld (F.MU_RET_CTRL_RETIRED 31) == 1) ∧
    at1 (sliceBlk [] fun x => { x with out := [(63, aReq true (.job 3))], pl := [(0, 0)] }) (fun k => (k.slice 31).pl.any fun p => p.2 == 0) ∧
    at1 (outBlk { aReq false .scrub with stale := true } []) (fun k => isOut k && (k.slice 31).pl.isEmpty) ∧
    at1 (outBlk { aReq true (.job 3) with again := true } []) isOut ∧ at1 (outBlk { aReq false (.job 3) with again := true, cl := 2 ^ 33 - 1 } []) isOut ∧
    at1 (outBlk { aReq true .scrubWb with stale := true } []) isOut ∧
    at1 Blk.reset (fun k => (k.slice 31).loc.isEmpty) ∧
    at1 (sliceBlk [] fun x => { x with loc := [(0, 0, badWord)] }) (fun k => decide (k.now < 0 + 38) && !(k.slice 31).loc.isEmpty) ∧
    at1 { sliceBlk [] fun x => { x with loc := [(0, 0, badWord)] } with now := 37 } (fun k => decide (0 + 38 ≤ k.now) && !k.bit0 (F.MU_DFM_VALID 31 0) &&
      k.mapIdx 31 0 == 0 && (k.slice 31).marked.isNone) ∧
    at1 { sliceBlk [] fun x => { x with loc := [(0, 0, badWord)], marked := some (38, 0) } with now := 37 } (fun k => (k.slice 31).marked == some (k.now, 0)) ∧ (fittingDevices badWord).length ≠ 1 := by
  refine ⟨by decide +kernel, by decide +kernel, badWord_fails _, badWord_fails _, ?_⟩
  rw [bad_unlocated]
  and_intros <;> decide +kernel

/-- An error of the symbols of device 9. -/
theorem witness_CodecAndMedia_located : fittingDevices ((2 <<< (16 * 36)) ||| (1 <<< (16 * 38)) ||| (4 <<< (16 * 39))) = [9] := by decide +kernel

/-- A slice at an issue window of its slot, which belongs to an owner. -/
def windowBlk (owner : Nat) (bad : List Nat) (l : List (Fld × Nat)) : Blk :=
  let b := tbIn 2 ((⟨0x120000 + 28, 24, 8⟩, owner * 32) :: l) fun t => { t with slotAt := 0 }
  { b with now := 7, sched := { b.sched with badParity := bad } }
/-- Its window is open. -/
def opens (k : Blk) : Bool := decide (2 ≤ k.tbState) && decide (k.tb.slotAt ≤ k.now) && (k.now - k.tb.slotAt) % 8 == 0 && (k.slice 31).winAt != some k.now
/-- The owner of the slot's byte. -/
def slotOwner (k : Blk) : Nat := k.fld ⟨0x12001C, 24, 8⟩ / 32

theorem witness_ChannelQueues :
    at1 Blk.reset (fun k => !opens k) ∧ at1 (windowBlk 0 [] []) (fun k => opens k && slotOwner k == 0 && k.tb.slot == 0 && k.fld F.SC_TBL_STAT_ACT == 0) ∧
    at1 (windowBlk 4 [] []) (fun k => opens k && slotOwner k == 4 && k.fld (F.MU_CTRL_EN 31) == 0) ∧
    ([1, 2, 3, 4, 5, 6, 7].all fun o => at1 (windowBlk o [] [(F.MU_CTRL_EN 31, 1)]) (fun k => opens k && slotOwner k == o && k.fld (F.MU_CTRL_EN 31) == 1 &&
      k.fld (F.MU_RET_CTRL_RETIRED 31) == 0)) = true ∧
    at1 (windowBlk 1 [0x12001F] []) (fun k => opens k && k.sched.badParity.contains (0x120000 + 31)) ∧
    at1 { windowBlk 1 [0x12001F] [] with tb := { (windowBlk 1 [] []).tb with slotAt := 8 } } (fun k => opens k && k.now == k.tb.slotAt) ∧
    (let u := { sliceBlk [(liveFld 1 31, 1)] (fun x => { x with queue := [aReq false (.job 1), aReq true (.job 2)] }) with now := 1 }
     u.fld (liveFld 1 31) ≠ 0 ∧ (aReq true (.job 2)).enter < u.now ∧ pget (u.slice 31).out 63 = none) ∧
    (let x := { Slice.reset with out := (List.range 63).map fun t => (t, aReq false (.job 1)) }
     pget x.out 63 = none ∧ (List.range 63).all fun i => (pget x.out i).isSome) ∧ (aReq false (.job 1)).cls < 8 ∧ (aReq false (.job 1)).q = false ∧
    (let s := blkWith [(F.MU_RET_CTRL_RETIRED 31, 1)]
     s.fld (F.MU_RET_CTRL_RETIRED 31) = 1) ∧ Blk.reset.fld (F.MU_RET_CTRL_RETIRED 31) = 0 ∧ Blk.reset.fld (F.MU_CTRL_FENCE 31) = 0 ∧
    (2 ^ 33 - 1 < 2 ^ 33 ∧ Blk.reset.capacity 31 ≤ 2 ^ 33 - 1) ∧ (0 : Nat) < Blk.reset.capacity 31 ∧
    (blkWith [(F.MU_CTRL_FENCE 31, 1)]).fld (F.MU_CTRL_FENCE 31) = 1 ∧ (Blk.reset.slice 31).pl.length < 64 ∧
    (let x := { Slice.reset with pl := (List.range 64).map fun i => (i, i + 1) }
     64 ≤ x.pl.length ∧ (x.pl.all fun p => p.2 != 0) = true ∧ x.queue = []) := by
  and_intros <;> decide +kernel

theorem witness_MediaRegisters :
    (Blk.reset.takes .mailbox (F.MU_GEOM_off 31) && Blk.reset.takes .mailbox (F.MU_DFM_off 31 15) && Blk.reset.takes .mailbox (F.MU_PL_IDX_off 31) &&
     Blk.reset.takes .mailbox (F.MU_PL_HI_off 31) && Blk.reset.takes .mailbox (F.MU_CTRL_off 31) && Blk.reset.takes .mailbox (F.MU_MNT_CTRL_off 31) &&
     Blk.reset.takes .mailbox (F.MU_RET_CTRL_off 31)) = true ∧
    (blkWith [(F.MU_CTRL_EN 31, 1)]).fld (F.MU_CTRL_EN 31) = 1 ∧ Blk.reset.fld (F.MU_CTRL_EN 31) = 0 ∧ (9 < (F.MU_DFM_DEV 31 15).get 0xA) ∧
    (let b := sliceBlk [] fun x => { x with pl := [(63, 5)], plCap := some (63, some 5) }
     (b.slice 31).plCap = some (63, some 5) ∧ pget (b.slice 31).pl 63 = some 5) ∧
    (let b := sliceBlk [] fun x => { x with plCap := some (63, some 5) }
     pget (b.slice 31).pl 63 ≠ some 5) ∧ (Blk.reset.slice 31).plCap = none ∧
    (let b := sliceBlk [(F.MU_CTRL_EN 31, 1), (F.MU_MNT_CNT_CNT 31, 1)] fun x => { x with queue := [aReq false (.job 1)] }
     b.fld (F.MU_MNT_CTRL_BUSY 31) = 0 ∧ b.fld (F.MU_MNT_CNT_CNT 31) ≠ 0 ∧ b.fld (F.MU_CTRL_FENCE 31) = 0 ∧ b.fld (F.MU_RET_CTRL_RETIRED 31) = 0 ∧ 0 + 1 - 1 < b.capacity 31 ∧
     ((b.slice 31).queue.all fun r => !r.wr && !r.q) = true) ∧
    (blkWith [(F.MU_MNT_CTRL_BUSY 31, 1)]).fld (F.MU_MNT_CTRL_BUSY 31) = 1 ∧ (F.MU_MNT_CTRL_REFUSED 31).get 0 = 0 ∧
    (F.MU_RET_CTRL_NEXT 31).get ((F.MU_RET_CTRL_NEXT 31).put 0 1) = 1 ∧ Blk.reset.tb.frame < Blk.reset.tb.frame + 1 ∧
    (blkWith [(F.MU_RET_CTRL_PEND 31, 1)]).fld (F.MU_RET_CTRL_PEND 31) = 1 := by
  and_intros <;> decide +kernel

theorem witness_FrameBoundaries_retirement : let s := sliceBlk [(F.MU_RET_CTRL_PEND 31, 1), (F.MU_RET_CTRL_MODE 31, 1)] fun x => { x with queue := [aReq true (.job 1)] }
    s.fld (F.MU_RET_CTRL_PEND 31) = 1 ∧ (s.slice 31).retTgt ≤ s.tb.frame ∧ s.fld (F.MU_RET_CTRL_MODE 31) = 1 ∧
    (s.slice 31).retAt = s.tb.bndAt ∧ s.fld (F.MU_RET_CTRL_NEXT 31) ≠ 1 ∧ s.tb.frame + 1 ≠ 0 ∧ (1 : Nat) ≠ s.tb.bndAt ∧
    (let b := sliceBlk [(F.MU_RET_CTRL_PEND 31, 1), (F.MU_RET_CTRL_NEXT 31, 1)] fun x => { x with retAt := 1 }
     b.fld (F.MU_RET_CTRL_NEXT 31) = 1 ∧ b.fld (F.MU_RET_CTRL_MODE 31) = 0 ∧ (b.slice 31).retAt ≠ b.tb.bndAt) := by
  and_intros <;> decide +kernel

/-- A command segment's doorbell line in a bay. -/
def bell (l : List (Nat × Nat × Nat)) : Doorbell := ⟨31, 3, 8191, 0, 63, lineOf l⟩
@[inherit_doc bell] def bellBlk (l : List (Nat × Nat × Nat)) (w0 : Word) (running : Bool) : Blk :=
  { segBlk w0 [] with bells := [bell l], cmdQ := if running then [(63, ⟨0xFFFF, true⟩)] else [] }
/-- Whether operator-control work finds the doorbell, its sequence number new. -/
def rings (k : Blk) (seq : Nat) : Bool := (k.bells.find? fun d => d.bay == 31).isSome && !k.rbit F.EV_BAYSTOP_off 31 &&
  (k.bells.headD (bell [])).line.toNat % 2 ^ 16 == seq
/-- A submission with one chain. -/
def aSub (st : SubSt) (cst : ChainSt) (ready : Option Nat) (d : Line) : SvSub :=
  ⟨31, 3, 0, 63, 0, 1, 0, 0, [d], [⟨0, 1, [0, 31], [], cst, ready⟩], [], [], [], 0, st, 1, 1⟩
def subBlk (x : SvSub) (l : List (Fld × Nat)) : Blk := { blkWith l with svSubs := [(0, x)], svNo := 1 }

theorem witness_Submissions :
    at1 Blk.reset (fun k => (k.bells.find? fun d => d.bay == 31).isNone) ∧
    at1 (bellBlk [(0, 2, 0xFFFF)] 0 false) (fun k => rings k 0xFFFF && (pget k.cmdQ 63).isNone) ∧
    at1 (bellBlk [(0, 2, 5)] 0 false) (fun k => rings k 5) ∧ at1 (bellBlk [(0, 2, 0)] 0 true) (fun k => rings k 0 && (pget k.cmdQ 63).any (·.running)) ∧
    at1 (bellBlk [(0, 2, 0), (2, 2, 16383), (4, 2, 2)] 0x80F00000 false) (fun k => rings k 0) ∧
    at1 (bellBlk [(0, 2, 0), (2, 2, 16383), (4, 2, 1)] 0 false) (fun k => rings k 0 && !k.scanSeg 3 0) ∧
    at1 (bellBlk [(0, 2, 0), (2, 2, 16383), (4, 2, 1)] 0x80F00000 false) (fun k => rings k 0 && k.scanSeg 3 0) ∧
    at1 (subBlk (aSub .running .waiting (some 0) 0) [(F.SV_CTRL_EN, 1), (F.BM_STAT_READY 0, 1), (F.BM_STAT_READY 31, 1)]) (fun k =>
      k.fld F.SV_CTRL_EN == 1 && k.fld (F.BM_STAT_READY 31) == 1 && !k.rbit F.TD_HSTATB_off 31 && !k.rbit F.EV_BAYSTOP_off 31 && k.svUnits.isEmpty) ∧
    at1 (subBlk (aSub .running .waiting (some 0) 0) []) (fun k => k.fld (F.BM_STAT_READY 31) == 0) ∧
    at1 (subBlk (aSub .running .waiting none 0) []) (fun k => (pget k.svSubs 0).isSome) ∧
    at1 { subBlk (aSub .results .waiting none 0) [] with got := [(.result 0, .wrote)] } (fun k => (pget k.svSubs 0).any fun x => x.st == .results && x.lines == 1) ∧
    at1 (subBlk (aSub .running .waiting (some 0) 0) [(⟨F.EV_BAYSTOP_off, 31, 1⟩, 1)]) (fun k => k.rbit F.EV_BAYSTOP_off 31 && (pget k.latch 31).isNone) ∧
    ((aSub .results .waiting none 0).st = .results ∧ (aSub .running .waiting none 0).chains = [⟨0, 1, [0, 31], [], .waiting, none⟩]) ∧
    Blk.reset.takes .mailbox F.SV_CTRL_off = true ∧ F.SV_CTRL_ABORT.get 0 = 0 ∧ F.SV_CTRL_ABORT.get (F.SV_CTRL_ABORT.put 0 1) = 1 ∧
    at1 (blkWith [(F.TW_CTRL_LEAVE, 1)]) (fun k => k.svRun == 0 && k.fld F.TW_CTRL_LEAVE == 1 && k.led.isEmpty && k.jobs.isEmpty && k.twState != 7 && k.ans.isEmpty &&
      k.fin.isEmpty && k.tgot.isEmpty && k.ready.isNone && k.lost.isEmpty) := by
  and_intros <;> decide +kernel

/-- A Sieve unit that waits for a line, and the line. -/
def unitBlk (r : SvRead) (nulls : Option (Nat × Nat × Line)) (o : JobOut) : Blk :=
  { subBlk (aSub .running .running none 0) [(F.BM_STAT_READY 31, 1)] with
    svUnits := [(31, ⟨0, 0, 0, 0, 0, [], nulls, some r, 4, []⟩)], got := [(.sieve 31 4 0, o)] }
/-- The unit can work and its line has come. -/
def unitCan (k : Blk) : Bool := !k.rbit F.TD_HSTATB_off 31 && !k.rbit F.EV_BAYSTOP_off 31 && k.fld (F.BM_STAT_READY 31) == 1 && k.gateOpen (40 + 31) &&
  (k.gotOf (.sieve 31 4 0)).isSome
/-- A predicate descriptor. -/
def aDesc (wlog type pkind param agg k1 k2 : Nat) : Desc := ⟨0, wlog, type, pkind, param, agg, 0, 0, 0, 0, 1, k1, k2⟩

theorem witness_SieveUnits :
    at1 Blk.reset (fun k => (pget k.svUnits 31).isNone) ∧ at1 (unitBlk .col none (.line 7 0)) (fun k => unitCan k && (k.unitDescs ⟨0, 0, 0, 0, 0, [], none, some .col, 4, []⟩)[0]?.isSome) ∧
    at1 (unitBlk (.set 0 7) none (.line 7 0)) unitCan ∧ at1 (unitBlk (.nulls 0) none (.line 7 0)) unitCan ∧ at1 (unitBlk .col none (.bad 1)) unitCan ∧
    at1 { unitBlk .col none (.line 7 0) with got := [] } (fun k => (k.gotOf (.sieve 31 4 0)).isNone) ∧
    goodLine (.bad 1) = none ∧
    ((aDesc 3 1 2 3 0 (2 ^ 63) (2 ^ 64 - 1)).wlog < 4 ∧ (aDesc 3 1 2 3 0 (2 ^ 63) (2 ^ 64 - 1)).k2 < 2 ^ (8 * (aDesc 3 1 2 3 0 (2 ^ 63) (2 ^ 64 - 1)).width)) ∧
    ((aDesc 0 0 1 5 0 255 0).k1 < 2 ^ (8 * (aDesc 0 0 1 5 0 255 0).width)) ∧
    ((aDesc 1 0 3 1 0 0 0).pkind = 3 ∧ (aDesc 1 0 3 1 0 0 0).param < 2 ∧ (4095 : Int) - 0 ≤ 4095) ∧
    ((aDesc 2 2 1 1 0 0x7FC00000 0).float = true ∧ (aDesc 2 2 1 1 0 0x7FC00000 0).fmt.isNan ((aDesc 2 2 1 1 0 0x7FC00000 0).fmt.parts 0x7FC00000) = true) ∧
    ((aDesc 3 3 2 0 0 0 0).float = true ∧ (aDesc 3 3 2 0 0 0 0).fmt.isNan ((aDesc 3 3 2 0 0 0 0).fmt.parts 0x7FF0000000000001) = true) ∧
    ((65535 : Nat) / 65536 = (65535 + 1 - 1) / 65536 ∧ (0 : Nat) < 1 ∧ (2 : Nat) < 3) ∧ (∀ b i, pget State.reset.blk.bmErr (bmKey b i) = none) ∧
    ((aDesc 3 1 0 0 12 0 0).float = false ∧ (aDesc 3 1 0 0 12 0 0).asks 2 = true ∧ SvAcc.zero.mn = none ∧ SvAcc.zero.mx = none ∧ (2 ^ 64 - 1 < 2 ^ 64)) := by
  and_intros <;> first | exact fun _ _ => rfl | decide +kernel

/-- A block whose segment 0 is of the compressed tier, and a tier operation of context 0 on it. -/
def tierBlk (w0 : Word) : Blk := withRegs (blkWith [(F.BM_STAT_READY 0, 1)]) [(segOff 0 0, w0)]
def tierOp (loc : BitVec 30) (slen : BitVec 6) (entry : BitVec 64) : TierOp := ⟨0, 0, 7, loc, slen, entry⟩
/-- A tier operation under way. -/
def tierRun (kind : TierKind) (ph : TierPhase) (left : Nat) : TierRun := ⟨kind, tierOp 0x200000 0 0, 0, left, [], ph, false, 0, 0, 0⟩
@[inherit_doc tierRun] def tierRunBlk (t : TierRun) : Blk := { tierBlk 0x90F00000 with dms := [(4, { dmOp 3 with tier := some t })], opNo := 5 }
/-- A TIER command of an option whose turn it is. -/
def tierWaits (opt : Nat) : DmOp := { dmOp 3 with cmd := (dmOp 3).cmd + BitVec.ofNat 64 opt, started := false }
@[inherit_doc tierWaits] def tierTurn (kind : TierKind) : Bool :=
  let k := { ((tierBlk 0x90F00000).pass 0) with dms := [(4, tierWaits (tierOpt kind))] }
  match k.dms.find? fun x => x.2.ctx == ctxKey c0 && !x.2.started with
  | some (_, op) => (dmCmd op.cmd).op == 3 && (dmCmd op.cmd).opt == tierOpt kind && k.moverRuns 0 && k.live && (dmCmd op.cmd).bline == 0
  | none => false

/-- Segment 0 is usable for tier operations. -/
def tierUsable (k : Blk) : Bool := k.segOk 0 && segCOMP (k.segWord 0 0) && !segREMOTE (k.segWord 0 0) && k.moverRuns 0 && decide (k.moverUse 0 < 8) &&
  2 ^ (30 - segCHLOG (k.segWord 0 1)) == 2 ^ 30

/-- A line made of words has each word in its place. -/
theorem wordsLine_bit (l : List Half) (i : Nat) (h : i < 512) : (wordsLine l).getLsbD i = (l.getD (i / 16) 0).getLsbD (i % 16) := by
  induction l generalizing i with
  | nil => simp [wordsLine]
  | cons w l ih =>
    have hc : wordsLine (w :: l) = (wordsLine l <<< 16) ||| w.setWidth 512 := rfl
    rw [hc, BitVec.getLsbD_or, BitVec.getLsbD_shiftLeft, BitVec.getLsbD_setWidth]
    by_cases h16 : i < 16
    · have h0 : i / 16 = 0 := by omega
      have h1 : i % 16 = i := by omega
      simp [h, h16, h0, h1]
    · have h0 : i / 16 = (i - 16) / 16 + 1 := by omega
      have h1 : i % 16 = (i - 16) % 16 := by omega
      have hw : w.getLsbD i = false := BitVec.getLsbD_of_ge _ _ (by omega)
      rw [ih _ (by omega)]
      simp [h, h16, h0, h1, hw]

/-- Any words stand in some memory. -/
theorem words_exist (b n : Nat) (f : Nat → Half) : ∃ s : State, s.blk = tierBlk 0x90F00000 ∧ ∀ w, w < n → s.peek b w = f w := by
  induction n with
  | zero => exact ⟨stateOf (tierBlk 0x90F00000), rfl, fun _ h => absurd h (by omega)⟩
  | succ n ih =>
    obtain ⟨s, hb, h⟩ := ih
    refine ⟨s.poke b n (f n), hb, fun w hw => ?_⟩
    by_cases e : w = n
    · rw [e, State.peek_poke]
    · rw [State.peek_poke_ne _ _ e, h w (by omega)]

theorem check_word_pois (x : BitVec 24) : mPois (x ++ 0#8 : Word) = false ∧ mCheck (x ++ 0#8 : Word) = x := by
  refine ⟨?_, check_word x⟩
  have h := BitVec.getLsbD_append (x := x) (y := 0#8) (i := 1)
  simp at h
  exact h

/-- The hypothesis `sound` of TSTORE: 64 lines with their metadata stand in bay memory, from line 0 up. -/
theorem witness_Tiers_sound : ∃ s : State, s.blk = tierBlk 0x90F00000 ∧
    let at_ (i : Nat) : Line := wordsLine ((List.range 32).map fun j => s.peek 0 (32 * (0 + i) + j))
    let mta (i : Nat) : Word := (at_ (64 + i / 16)).extractLsb' (32 * (i % 16)) 32
    ∀ i, i < 64 → mPois (mta i) = false ∧ mCheck (mta i) = mint (at_ i) (pageAddr (s.blk.segWord 0 1) 0 0 7 i) 0 := by
  let zeros : Line := wordsLine (List.replicate 32 0)
  let m (i : Nat) : Word := mint zeros (pageAddr ((tierBlk 0x90F00000).segWord 0 1) 0 0 7 i) 0 ++ 0#8
  obtain ⟨s, hb, h⟩ := words_exist 0 2176 fun w => if w < 2048 then 0 else (m ((w - 2048) / 2)).extractLsb' (16 * ((w - 2048) % 2)) 16
  refine ⟨s, hb, fun i hi => ?_⟩
  have hz : wordsLine ((List.range 32).map fun j => s.peek 0 (32 * (0 + i) + j)) = zeros := by
    have : ((List.range 32).map fun j => s.peek 0 (32 * (0 + i) + j)) = List.replicate 32 0 := by
      rw [List.eq_replicate_iff]
      refine ⟨by simp, fun x hx => ?_⟩
      obtain ⟨j, hj, rfl⟩ := List.mem_map.mp hx
      have := List.mem_range.mp hj
      have hm : 0 + i = i := by omega
      rw [hm, h _ (by omega), if_pos (by omega)]
    rw [this]
  have hm : (wordsLine ((List.range 32).map fun j => s.peek 0 (32 * (0 + (64 + i / 16)) + j))).extractLsb' (32 * (i % 16)) 32 = m i := by
    apply BitVec.eq_of_getLsbD_eq
    intro q hq
    have hn : 0 + (64 + i / 16) = 64 + i / 16 := by omega
    rw [BitVec.getLsbD_extractLsb', wordsLine_bit _ _ (by omega), hn]
    have hlt : (32 * (i % 16) + q) / 16 < 32 := by omega
    rw [List.getD_eq_getElem?_getD, List.getElem?_map, List.getElem?_range hlt]
    simp only [Option.map_some, Option.getD_some]
    rw [h _ (by omega), if_neg (by omega)]
    have e1 : (32 * (64 + i / 16) + (32 * (i % 16) + q) / 16 - 2048) / 2 = i := by omega
    have e2 : (32 * (64 + i / 16) + (32 * (i % 16) + q) / 16 - 2048) % 2 = q / 16 := by omega
    rw [e1, e2, BitVec.getLsbD_extractLsb']
    have e3 : 16 * (q / 16) + (32 * (i % 16) + q) % 16 = q := by omega
    rw [e3]
    simp [hq, Nat.mod_lt]
  have := check_word_pois (mint zeros (pageAddr ((tierBlk 0x90F00000).segWord 0 1) 0 0 7 i) 0)
  dsimp only
  rw [hm, hz, hb]
  exact this

/-- Streams that another encoder of RFC 1951 makes of a page: fixed codes for zeros, dynamic codes for a period of five bytes. -/
def fixedStream : List Byte :=
  [0x63, 0x60, 0x18, 0x05, 0xA3, 0x60, 0x14, 0x8C, 0x82, 0x51, 0x30, 0x0A, 0x46, 0xC1, 0x28, 0x18, 0x05, 0xA3, 0x60, 0x14, 0x8C, 0x82, 0x51, 0x30, 0x0A, 0x46, 0xC1, 0x70, 0x07, 0x00]
@[inherit_doc fixedStream] def dynamicStream : List Byte :=
  [0xED, 0xC4, 0x49, 0x11, 0x00, 0x00, 0x08, 0x04, 0xA0, 0x6C, 0xEB, 0xD1, 0xBF, 0x92, 0x3D, 0x1C, 0x78, 0x90, 0xDE, 0x9A, 0x48, 0x92, 0x24, 0x49, 0x92, 0xA4, 0xCF, 0x1D]
theorem test_inflate : streamOf (List.replicate 4096 0) fixedStream = true ∧
    streamOf ((List.range 4096).map fun i => BitVec.ofNat 8 (i * 7 % 5 + 65)) dynamicStream = true ∧
    (match inflate fixedStream.dropLast with | .error _ => true | .ok _ => false) = true := by decide +kernel

theorem witness_Tiers :
    ((tierBlk 0).pass 0).live = true ∧ tierUsable ((tierBlk 0).pass 0) = false ∧ ((tierBlk 0x90F00000).pass 0).live = true ∧
    tierUsable ((tierBlk 0x90F00000).pass 0) = true ∧ ((tierBlk 0).pass 0).moverRuns 0 = true ∧
    ([.read, .put, .zero, .store, .fetch].all tierTurn) = true ∧ (1 : Nat) ≤ 56 ∧ (2 ^ 30 - 60) % 4 = 0 ∧
    ((tierOp 0x200000 0 0).loc.toNat % 64 = 0 ∧ 2 ^ 30 / 512 ≤ (tierOp 0x200000 0 0).loc.toNat) ∧ ((tierOp 4 0 0).loc.toNat < 2 ^ 30 / 512) ∧
    ((tierOp (2 ^ 30 - 60) 56 0).loc.toNat + 4 + (tierOp (2 ^ 30 - 60) 56 0).slen.toNat ≤ 2 ^ 30) ∧ (tierOp 4 57 0).slen.toNat > 56 ∧
    (pageEntry 0x8000000000000000 (2 ^ 30)).ok = true ∧ (pageEntry 0xC000000000000000 (2 ^ 30)).ok = false ∧
    mPois ((wordsLine ((List.range 32).map fun j => (({ stateOf (tierBlk 0x90F00000) with mem := [(4096, 2)] } : State).peek 0 (32 * 64 + j)))).extractLsb' 0 32) = true ∧
    at1 (tierRunBlk (tierRun .store .lane 0)) (fun k => (pget k.dms 4).any (fun op => op.tier == some (tierRun .store .lane 0)) && k.onLane (tierRun .store .lane 0)) ∧
    at1 (tierRunBlk (tierRun .fetch .lane 0)) (fun k => (pget k.dms 4).any (fun op => op.tier == some (tierRun .fetch .lane 0)) && k.onLane (tierRun .fetch .lane 0)) ∧
    (tierRun .store .lane 0).op.loc.toNat + 4 + 56 ≤ 2 ^ 30 ∧ (List.replicate 3585 (0 : Byte)).length > 3584 ∧ (List.replicate 3584 (0 : Byte)).length ≤ 3584 ∧
    (let r := { tierRun .fetch .lane 0 with op := tierOp 0x200000 1 0, lines := [(4, BitVec.ofNat 512 (fixedStream.foldr (fun b n => 256 * n + b.toNat) 0))] }
     at1 (tierRunBlk r) (fun k => (pget k.dms 4).any (fun op => op.tier == some r) && k.onLane r && k.jobs.isEmpty && k.ans.isEmpty && k.fin.isEmpty &&
       k.tgot.isEmpty && k.ready.isNone && k.lost.isEmpty && match inflate (lineBytes [(pget r.lines 4).getD 0]) with
       | .ok page => page.length == 4096
       | .error _ => false)) ∧
    ([.table, .writing, .reading].all fun ph => (pget (tierRunBlk (tierRun .put ph 1)).dms 4).any fun op => op.tier == some (tierRun .put ph 1)) = true ∧
    (∀ x : BitVec 24, mCheck (x ++ 0#8 : Word) = x) ∧
    at1 { Blk.reset with crypt := [(4, ⟨31, aReq true (.job 2)⟩)], jobs := [(2, aJob .nobody .wr .write)] } (fun k => (pget k.crypt 4).isSome && (k.job 2).isSome) ∧
    at1 { Blk.reset with crypt := [(4, ⟨31, aReq false (.job 2)⟩)], jobs := [(2, aJob .nobody .rd .read)] } (fun k => (pget k.crypt 4).isSome && (k.job 2).isSome) ∧
    at1 (segBlk 0x80F00000 []) (fun k => k.segOk 0 && !segREMOTE (k.segWord 0 0)) ∧ at1 (segBlk 0xC0F00000 []) (fun k => segREMOTE (k.segWord 0 0)) ∧
    at1 Blk.reset (fun k => k.jobs.isEmpty) ∧
    ([.rd, .wr].all fun op => at1 { Blk.reset with jobs := [(2, aJob (.led 3 8191) op .remote)] } (fun k => (k.jobs.find? fun x => x.2.phase == .remote &&
      x.2.ref x.1 == (aJob (.led 3 8191) op .remote).ref 2).isSome)) = true := by
  and_intros <;> first | exact fun x => (check_word_pois x).2 | decide +kernel

/-- A pair state, with the Twin Port's own state and line accesses. -/
def twBlk (st side : Nat) (jobs : List (Nat × Job)) (f : Twin → Twin) : Blk :=
  { blkWith [(F.TW_STAT_STATE, st), (F.TW_STAT_SIDE, side)] with jobs := jobs, jobNo := 9, tw := f { Twin.reset with pin := ⟨true, false, true⟩ } }

theorem witness_TwinLink :
    ([2, 3, 4, 6].all fun st => at1 (twBlk st 1 [] id) (fun k => k.twState == st)) = true ∧ at1 (twBlk 0 0 [] id) (fun k => k.twState == 0) ∧
    at1 (twBlk 3 0 [] fun t => { t with verSince := some 4, frame0 := 7, misses := 1 }) (fun k => k.twState == 3 && k.tw.verSince == some 4 && k.tw.misses == 1) ∧
    at1 (twBlk 3 0 [] fun t => { t with verSince := none }) (fun k => k.tw.verSince.isNone) ∧
    at1 (twBlk 2 1 [] fun t => { t with shadow := [(ledKey 3 8191, ⟨goodCopy, false⟩)] }) (fun k => (pget k.tw.shadow (ledKey 3 8191)).isSome) ∧
    at1 (twBlk 2 1 [(2, { aJob (.led 3 8191) .wr .twin with stamp := 5 }), (3, aJob .rcpWrite .wr .write)] id) (fun k =>
      (k.jobs.find? fun y => y.2.phase == .twin && originRef y.1 y.2.owner == ⟨true, 3, 8191, none⟩).isSome && (k.job 2).any (fun j => j.stamp == 5)) ∧
    at1 (twBlk 2 1 [] fun t => { t with rejects := [(0, 2)], tx := [(0, .keep)], txNo := 1 }) (fun k => tget (fun _ => 0) k.tw.rejects 0 + 1 == 3) ∧
    at1 (twBlk 2 1 [] fun t => { t with tx := [(0, .keep)], txNo := 1 }) (fun k => (k.tw.tx.find? fun z => z.1 == 0).isSome) ∧
    ([1, 5].all fun st => at1 (twBlk st 1 [] id) (fun k => k.twState == st)) = true ∧
    ((twBlk 2 1 [(2, aJob (.led 3 8191) .wr .held)] id).jobOf (.led 3 8191)).any (fun y => y.2.phase == .held && !y.2.bad) = true ∧
    at1 (twBlk 2 1 [(2, { aJob (.pool 4) .wr .twin with stamp := 5, media := true })] id) (fun k => (k.jobs.find? fun y => y.2.phase == .twin &&
      originRef y.1 y.2.owner == ⟨true, 0, 0, some 2⟩).isSome) ∧
    at1 { segBlk 0xA0F00000 [(F.TW_STAT_STATE, 6)] with tw := { Twin.reset with rsy := [(0, ⟨0, 0⟩)] } } (fun k => k.twState == 6 && k.fld F.TW_STAT_LEAD == 0 &&
      (k.tw.rsy.find? fun y => (k.walkNext y.1 y.2).any (·.1 == 0)).isSome) ∧
    at1 { segBlk 0xA0F00000 [(F.TW_STAT_STATE, 6)] with tw := { Twin.reset with owed := [0x40] } } (fun k =>
      (k.tw.rsy.find? fun y => (k.walkNext y.1 y.2).any (·.1 == 0x40)).isNone && k.tw.owed.contains 0x40) ∧
    at1 (twBlk 2 1 [(2, { aJob (.led 3 8191) .wr .remote with bad := true })] id) (fun k => (k.jobs.find? fun y => y.2.phase == .remote && y.2.ref y.1 == 32770).isSome) ∧
    at1 (twBlk 2 1 [(2, aJob (.led 3 8191) .rd .mirRead)] id) (fun k => (k.job 2).any fun j => j.phase == .mirRead && j.addr == 0x40) ∧
    at1 (twBlk 2 1 [(2, aJob .vfyP .rd .mirRead)] id) (fun k => (k.job 2).any fun j => j.owner == .vfyP) ∧
    at1 (twBlk 2 1 [(2, aJob (.led 3 8191) .wr .mirGen)] id) (fun k => (k.job 2).any fun j => j.phase == .mirGen) ∧
    at1 (twBlk 2 1 [(2, { aJob (.led 3 8191) .rd .dual with loc := some none })] id) (fun k => (k.job 2).any fun j => j.phase == .dual && j.rmt.isNone && j.loc.isSome) ∧
    at1 (twBlk 2 1 [(2, aJob (.led 3 8191) .rd .dual)] id) (fun k => (k.job 2).any fun j => j.phase == .dual && j.rmt.isNone && j.loc.isNone) ∧
    at1 { segBlk 0x80F00000 [(F.TW_STAT_STATE, 2)] with jobs := [(2, aJob (.led 3 8191) .rd .remote)] } (fun k => k.twState == 2 && k.segOk 0) ∧
    -- mirrored writes
    at1 (twBlk 2 1 [(2, { aJob (.rem none goodReq) .ptl .genDone with gen := some (7, 0xF0) })] id) (fun k => (k.job 2).any fun j => j.phase == .genDone && !segCOMP j.w0) ∧
    at1 (twBlk 0 1 [(2, { aJob (.rem none goodReq) .ptl .genDone with gen := none })] id) (fun k => (k.job 2).any fun j => j.gen.isNone) ∧
    at1 { twBlk 2 1 [(2, aJob (.led 3 8191) .wr .genDone)] id with led := [(ledKey 3 8191, opnLed)] } (fun k => (k.job 2).any (fun j => j.owner == .led 3 8191) &&
      (k.ent 3 8191).st == .opn) ∧
    at1 (twBlk 2 1 [(2, aJob (.lcpy 3 8191) .wr .genDone)] fun t => { t with shadow := [(ledKey 3 8191, ⟨goodCopy, false⟩)] }) (fun k => (pget k.tw.shadow (ledKey 3 8191)).isSome) ∧
    ((((5 : Line), (0x10 : Word)).2.extractLsb' 4 4 - ((6 : Line), (0xA0 : Word)).2.extractLsb' 4 4).toNat = 7) ∧
    ((((5 : Line), (0xA0 : Word)).2.extractLsb' 4 4 - ((6 : Line), (0x10 : Word)).2.extractLsb' 4 4).toNat = 9) ∧
    ((((5 : Line), (0x90 : Word)).2.extractLsb' 4 4 - ((6 : Line), (0x10 : Word)).2.extractLsb' 4 4).toNat = 8) ∧
    (∀ n, pget (twBlk 2 1 [] id).tw.susp n = none) ∧
    (∃ n, (n, goodCopy.addr) ∈ (twBlk 2 1 [] fun t => { t with susp := [(63, 0x40)] }).tw.susp) := by
  and_intros <;> first | exact fun _ => rfl | exact ⟨63, by decide +kernel⟩ | decide +kernel

/-- A partner's HELLO that agrees with that of a chip after reset but for one point. -/
def hello (side : Bool) (pair : BitVec 4) (sum : Word) (frame : FrameIx) (st : BitVec 3) : HelloMsg := ⟨side, pair, false, 0, frame, sum, st⟩
def ownHello : HelloMsg := hello false 0 0 0 1

theorem witness_TwinPair :
    at1 (twBlk 1 0 [] id) (fun k => k.twState == 1 && k.tw.agreedAt.isNone && k.tw.helloTx.isNone) ∧
    at1 (twBlk 1 0 [] fun t => { t with helloTx := some ownHello }) (fun k => k.tw.helloTx == some ownHello && k.tw.agreedAt.isNone) ∧
    at1 (let b := twBlk 5 0 [] id
         b.setFld F.TW_CTRL_PAIR 1) (fun k => k.twState == 5 && k.fld F.TW_CTRL_PAIR == 1) ∧
    at1 (twBlk 1 0 [] fun t => { t with agreedAt := some 0 }) (fun k => k.tw.agreedAt.isSome) ∧ at1 (twBlk 2 0 [] id) (fun k => k.twState == 2) ∧
    [helloCheck ownHello (hello false 0 0 0 1), helloCheck ownHello (hello true 1 0 0 1), helloCheck ownHello (hello true 0 1 0 1),
     helloCheck ownHello (hello true 0 0 1 1), helloCheck ownHello (hello true 0 0 0 5), helloCheck ownHello (hello true 0 0 0 1)] =
      [some 0x30, some 0x31, some 0x32, some 0x33, some 0x34, none] ∧
    Blk.reset.takes .mailbox F.TW_CTRL_off = true ∧ (twBlk 0 0 [] id).tw.pin.pres = true ∧ (blkWith [(F.SC_TB_STAT_STATE, 2)]).fld F.SC_TB_STAT_STATE = 2 ∧
    (twBlk 2 0 [] id).fld F.TW_STAT_VFYBUSY = 0 ∧ (twBlk 3 0 [] id).fld F.TW_CTRL_LEAVE = 0 ∧
    (let u := twBlk 6 0 [] fun t => { t with slotNo := 17 }
     u.live = true ∧ u.twState = 6 ∧ u.tw.lastHb + 17 ≤ u.tw.slotNo ∧ u.tw.lastMsg + 17 ≤ u.tw.slotNo) ∧
    at1 (twBlk 2 0 [] fun t => { t with slotNo := 17, lastMsg := 1 }) (fun k => decide (k.tw.lastHb + 17 ≤ k.tw.slotNo) && decide (k.tw.slotNo < k.tw.lastMsg + 17) && !k.tw.hbFault) ∧
    (let u := twBlk 3 0 [] fun t => { t with slotNo := 17, lastHb := 1 }
     u.live = true ∧ u.twState = 3 ∧ u.tw.lastMsg + 17 ≤ u.tw.slotNo ∧ u.tw.slotNo < u.tw.lastHb + 17) ∧
    at1 (twBlk 6 0 [] id) (fun k => k.twState == 6 && k.fld F.TW_STAT_LEAD == 0 && k.tw.rsy.isEmpty && k.jobs.isEmpty) ∧
    at1 ((twBlk 6 0 [] id).setFld F.TW_STAT_LEAD 1) (fun k => k.fld F.TW_STAT_LEAD == 1 && k.tw.rsy.isEmpty) ∧
    (let s := twBlk 5 0 [] fun t => { t with agreedAt := some 0, helloRx := some ownHello, slotNo := 4 }
     s.twState = 5 ∧ s.tw.agreedAt = some 0 ∧ s.tw.helloRx = some ownHello ∧ 0 + 4 ≤ s.tw.slotNo) ∧
    (let s := (twBlk 1 0 [] fun t => { t with agreedAt := some 0, helloRx := some ownHello, slotNo := 4 }).setFld F.TW_CTRL_JOIN 1
     s.twState ≠ 5 ∧ s.fld F.TW_CTRL_JOIN = 1) ∧
    (let s := twBlk 1 0 [] fun t => { t with agreedAt := some 0, helloRx := some ownHello, slotNo := 3 }
     s.tw.slotNo < 0 + 4 ∧ s.fld F.TW_CTRL_JOIN = 0) ∧
    (let s := twBlk 6 0 [] id
     s.twState = 6 ∧ s.fld F.TW_STAT_RSYBUSY = 0 ∧ pget s.asked 65 ≠ some s.tb.bndAt ∧ s.tw.owed = []) ∧
    (let s := { twBlk 6 0 [] id with asked := [(65, 0)] }
     pget s.asked 65 = some s.tb.bndAt) ∧
    ((twBlk 2 0 [] id).tw.failOut = false ∧ (twBlk 1 0 [] fun t => { t with pin := ⟨false, true, false⟩ }).tw.pin.pres = false) ∧
    (segREMOTE ((segBlk 0xC0F00000 []).segWord 0 0) = true ∧ segHOMEPAIR ((segBlk 0xC0F00000 []).segWord 0 0) = (segBlk 0xC0F00000 []).fld F.TW_CFG_PAIRID) ∧
    segREMOTE (Blk.reset.segWord 0 0) = false := by
  and_intros <;> decide +kernel

/-- A context that a local interrupt waits for, at a level with a stack. -/
def irqCtx (sp : Half) (st : CtxSt) : Ctx := { onStack 1 sp with sw := 0xA000, pend := 2, en := 6, st := st }
/-- The conditions of its entry. -/
def irqReady (k : Blk) : Bool :=
  let x := k.ctx 0
  (x.pend &&& x.en) == 2 && x.sw.getLsbD 15 && (List.range 8).all (fun o => !(k.ctx o).lock) && k.executes 0 && !k.stepsEngine 0 &&
    !k.holdsIrq 0 && !k.haltAsked 0 && (k.eng 0).entry.all (fun t => decide (t + 7 ≤ k.now)) && (x.st == .run || x.st == .ready || x.st == .wait)
/-- A bay in which a move runs. -/
def moveBlk (kind : MoveKind) (at_ now : Nat) (l : List (Fld × Nat)) : Blk := { blkWith l with moves := [(31, ⟨7, 8, 7, 3, kind, at_, false⟩)], now := now }

theorem witness_EngineCommands :
    at1 Blk.reset (fun k => k.deliverable 0 == false && (k.ctx 0).pend == 0) ∧
    at1 (zBlk (irqCtx 0x200 .run)) (fun k => irqReady k && !k.deliverable 0) ∧ at1 (zBlk (irqCtx 0x1FF .ready)) irqReady ∧
    at1 { zBlk (irqCtx 0x200 .run) with engs := [(0, { Eng.reset with entry := some 1 })], now := 7 } irqReady ∧
    at1 { zBlk { irqCtx 0x200 .wait with waitFor := some .pool } with pools := [(4, poolOp true false)] } (fun k => irqReady k && (k.ctx 0).st == .wait &&
      (k.pools.find? fun o => o.2.ctx == 0 && !o.2.retired).isSome) ∧
    ({ irqCtx 0x200 .run with u := { Micro.reset with issued := true } } : Ctx).u.issued = true ∧
    (irqCtx 0x200 .run).stackValid 1 = true ∧ (irqCtx 0x200 .run).pushRoom 1 8 = true ∧ (irqCtx 0x101 .run).pushRoom 1 8 = false ∧
    (let y := { irqCtx 0x101 .run with sys := (irqCtx 0x101 .run).sys ++ [(0x10, 1), (0x11, 0x401), (0x12, 0x300), (0x13, 0x402)] }
     y.stackValid 1 = true ∧ y.stackValid 2 = true ∧ y.pushRoom 2 8 = true ∧ y.df = false) ∧
    ({ irqCtx 0 .run with sys := [(0x0D, 7)] } : Ctx).stackValid 1 = false ∧
    at1 (let b := zBlk (irqCtx 0x200 .run)
         { b with ev := { b.ev with offer := [(0, 5)], released := [(0, ())] } }) (fun k => k.deliverable 0 && k.supervisor 0 == 0 && (k.ctx 0).sw.getLsbD 15) ∧
    -- moves
    at1 Blk.reset (fun k => (pget k.moves 31).isNone && k.moveQ.isEmpty) ∧ at1 (moveBlk .failure 0 2272 []) (fun k => decide (k.now < 0 + 2274)) ∧
    ([.failure, .retire, .swap].all fun m => at1 (moveBlk m 0 2273 []) (fun k => decide (0 + 2274 ≤ k.now) && k.moveQ.isEmpty)) = true ∧
    at1 (moveBlk .failure 0 32 [(⟨F.EA_SLOT_STAT_off 31, 0, 3⟩, 1)]) (fun k => decide (0 + 33 ≤ k.now) && k.fld ⟨F.EA_SLOT_STAT_off 31, 0, 3⟩ == 1) ∧
    at1 (moveBlk .failure 0 32 [(⟨F.EA_SLOT_STAT_off 31, 24, 3⟩, 2)]) (fun k => (List.range 8).all fun d => k.fld ⟨F.EA_SLOT_STAT_off 31, 3 * d, 3⟩ != 1) ∧
    (let u := { Blk.reset with moveQ := [(31, 7, 2040, .retire)] }
     (u.moveQ.find? fun q => q.1 == 31) = some (31, 7, 2040, .retire) ∧ u.onSlot 31 7 = some 255) ∧
    (let u := { Blk.reset with asked := [(62, 5)] }
     pget u.asked (2 * 31) ≠ some u.tb.bndAt ∧ pget { u with asked := [(62, 0)] }.asked (2 * 31) = some u.tb.bndAt) ∧
    (let g : Ctx := { Ctx.reset with gErr := [(63, .double)] }
     g.gErr.any (fun x => x.2 == .double) = true) ∧
    -- registers
    ((List.range 9).all fun sl => Blk.reset.takes .mailbox (F.EA_ENG_CTRL_off 31 sl) && Blk.reset.takes .mailbox (F.EA_CTX_LIRQ_off 31 sl 7)) = true ∧
    Blk.reset.takes .mailbox (F.EA_SWAP_off 31) = true ∧ Blk.reset.takes .mailbox (F.EA_BAY_CTRL_off 31) = true ∧ Blk.reset.onSlot 31 8 = none ∧
    Blk.reset.onSlot 31 0 = some 248 ∧ Blk.reset.fld ⟨F.EA_SLOT_STAT_off 31, 0, 3⟩ = 0 ∧
    (let u := withRegs (blkWith [(F.EA_SWAP_PEND 31, 1)]) [(F.EA_MAP_NEXT_off 31, 0x86543210)]
     u.fld (F.EA_SWAP_PEND 31) = 1 ∧ u.fld ⟨F.EA_SLOT_STAT_off 31, 3 * 8, 3⟩ = 1 ∧ (u.rd (F.EA_MAP_off 31)).toNat / 16 ^ 7 % 16 = 7 ∧
     (u.rd (F.EA_MAP_NEXT_off 31)).toNat / 16 ^ 7 % 16 = 8 ∧ u.fld ⟨F.EA_SLOT_STAT_off 31, 3 * 7, 3⟩ = 0) ∧
    (let u := withRegs (blkWith [(F.EA_SWAP_PEND 31, 1)]) [(F.EA_MAP_NEXT_off 31, 0x66543210)]
     (u.rd (F.EA_MAP_NEXT_off 31)).toNat / 16 ^ 7 % 16 = (u.rd (F.EA_MAP_NEXT_off 31)).toNat / 16 ^ 6 % 16) ∧
    at1 (zBlk mCtx) (fun k => !(k.ctx 0).tim.due k.now) ∧ at1 (zBlk { mCtx with tim := ⟨1, 0, true⟩ }) (fun k => (k.ctx 0).tim.due k.now) := by
  and_intros <;> decide +kernel

/-- A counter with one cycle left. -/
def oneLeft : Wd := ⟨1, 0, true⟩

theorem witness_WatchdogsAndClocks :
    at1 Blk.reset (fun k => !(k.ctx 2047).wd.due k.now && !(k.engWdOf 31 8).due k.now && !(k.bayWdOf 31).due k.now && !k.blkWd.due k.now) ∧
    at1 { Blk.reset with ctxs := [(2047, { Ctx.reset with wd := oneLeft })] } (fun k => (k.ctx 2047).wd.due k.now && k.fld ⟨F.EV_CWD_STAT_off 31 (k.slotOf 255), 7, 1⟩ == 0) ∧
    at1 { Blk.reset with ctxs := [(2040, { Ctx.reset with wd := oneLeft })] } (fun k => (k.ctx 2040).wd.due k.now) ∧
    at1 { Blk.reset with engWd := [(9 * 31 + 8, oneLeft)] } (fun k => (k.engWdOf 31 8).due k.now) ∧
    at1 { Blk.reset with bayWd := [(31, oneLeft)] } (fun k => (k.bayWdOf 31).due k.now) ∧ at1 { Blk.reset with blkWd := oneLeft } (fun k => k.blkWd.due k.now) ∧
    Blk.reset.takes .mailbox (F.EV_BWD_KICK_off 31) = true ∧ Blk.reset.takes .mailbox F.EV_BLK_KICK_off = true ∧ Blk.reset.takes .mailbox F.EV_BLK_WD_off = true ∧
    Blk.reset.takes .mailbox F.EV_BAYCLK_off = true ∧ (0xA5C3 : Word).toNat % 2 ^ 16 = 0xA5C3 ∧ (blkWith [(F.EV_BLK_WD_ARMED, 1)]).fld F.EV_BLK_WD_ARMED = 1 ∧
    Blk.reset.fld F.EV_BLK_WD_ARMED = 0 ∧
    at1 { withRegs Blk.reset [(F.EV_BAYCLK_off, 0x80000000)] with now := 255 } (fun k => k.rbit F.EV_BAYCLK_off 31 && !k.rbit F.EV_BAYSTOP_off 31 &&
      decide ((pget k.idleAt 31).getD k.relAt + 256 ≤ k.now) && k.ctxs.isEmpty && k.dms.isEmpty && k.moves.isEmpty && k.cops.isEmpty && k.pools.isEmpty &&
      k.fld (F.SV_UNIT_STAT_BUSY 31) == 0) ∧
    at1 { withRegs Blk.reset [(F.EV_BAYSTOP_off, 0x80000000)] with latch := [(31, 0)], now := 23 } (fun k => k.rbit F.EV_BAYSTOP_off 31 &&
      (pget k.latch 31).any fun a => decide (a + 24 ≤ k.now)) := by
  and_intros <;> decide +kernel

/-- A microword with fields at their lowest bits; sources and destination are none where not given. -/
def uw (l : List (Nat × Nat)) : BitVec 160 :=
  let has (lo : Nat) : Bool := l.any fun (x : Nat × Nat) => x.1 == lo
  let w := ((if has 120 then [] else [(120, 0x3F)]) ++ (if has 114 then [] else [(114, 0x3F)]) ++ (if has 94 then [] else [(94, 0x3F)]) ++ l).foldl
    (fun (a : BitVec 160) (x : Nat × Nat) => a ||| (BitVec.ofNat 160 x.2 <<< x.1)) 0
  w ||| ((mecc w).setWidth 160 <<< 152)
/-- A context at a microaddress. -/
def uCtx (pc : BitVec 14) (f : Micro → Micro) : Ctx := { faultCtx 0 with u := f { Micro.reset with pc := pc } }
/-- The microword executes at the microaddress 0x100 of context 0, and a condition on it holds. -/
def uruns (x : Ctx) (l : List (Nat × Nat)) (p : Blk → UWord → Bool) : Bool :=
  let w := uword (uw l)
  at1 (zBlk x) fun u => u.executes 0 && x.st == .run && u.bmReady 0 && u.td.step.isNone && decide (x.u.pc.toNat < 0x2000) &&
    (List.range 64).all (fun n => u.fld (F.CS_MATCH_ADDR_EN 0 n) == 0) && meccCheck (storedWord (uw l)) == some (uw l, false) && !u.uillegal 0 x w &&
    (x.uwrites w).all (fun i => !u.pendingReg 0 i) && !u.injects 0 && p u w
/-- No field but ALU, destination, flags and sequencing acts. -/
def ubare (w : UWord) : Bool := w.xop == 0 && w.mop == 0 && w.dmv == 0 && w.cop == 0 && w.evt == 0 && w.ctx == 0 && w.cnt == 0 && w.tim == 0 && w.sch == 0 && w.imc == 0

theorem witness_Microwords :
    at1 Blk.reset (fun u => !u.executes 0) ∧
    ([0x2400, 0x2000, 0x23FF, 0].all fun pc => at1 (zBlk (uCtx pc id)) fun u => u.executes 0 && (u.ctx 0).st == .run && u.bmReady 0 && (u.ctx 0).u.pc == pc) = true ∧
    at1 { zBlk (uCtx 0x23FF id) with patchBad := [(0x3FF, ())] } (fun u => (pget u.patchBad 0x3FF).isSome) ∧
    at1 { zBlk (uCtx 0x23FF id) with patchRam := [(0x3FF, uw [])] } (fun u => (pget u.patchRam 0x3FF).isSome) ∧
    at1 ((((zBlk (uCtx 0x100 id)).setFld (F.CS_MATCH_ADDR_EN 0 63) 1).setFld (F.CS_MATCH_ADDR_ENGMASK 0 63) 1).setFld (F.CS_MATCH_ADDR_ROMADDR 0 63) 0x100 |>.setFld
      (F.CS_MATCH_ADDR_KIND 0 63) 1) (fun u => u.fld (F.CS_MATCH_ADDR_EN 0 63) == 1 && (u.fld (F.CS_MATCH_ADDR_ENGMASK 0 63)).testBit 0 &&
      u.fld (F.CS_MATCH_ADDR_ROMADDR 0 63) == 0x100 && (List.range 63).all (fun n => u.fld (F.CS_MATCH_ADDR_EN 0 n) == 0)) ∧
    meccCheck (storedWord (uw []) ^^^ 3) = none ∧ (zBlk mCtx).uillegal 0 mCtx (uword (uw [(0, 1)])) = true ∧
    -- the sequencer
    ([0, 1, 2, 5, 9].all fun q => uruns (uCtx 0x100 id) [(134, q), (138, 0x1FFF)] fun _ w => w.seq == q && ubare w) = true ∧
    uruns (uCtx 0x100 id) [(134, 3), (138, 0x10)] (fun _ w => w.seq == 3 && ubare w) ∧ uruns (uCtx 0x100 fun m => { m with stack := [5] }) [(134, 4)] (fun _ w => w.seq == 4 && ubare w) ∧
    uruns (uCtx 0x100 fun m => { m with stack := List.replicate 8 5 }) [(134, 3)] (fun _ w => w.seq == 3) ∧ uruns (uCtx 0x100 id) [(134, 4)] (fun _ w => w.seq == 4) ∧
    uruns (uCtx 0x100 id) [(134, 10), (74, 0x40)] (fun _ w => w.seq == 10 && ubare w) ∧
    uruns (uCtx 0x100 fun m => { m with loop := 1 }) [(134, 7)] (fun _ w => w.seq == 7 && ubare w) ∧ uruns (uCtx 0x100 id) [(134, 7)] (fun _ w => w.seq == 7) ∧
    uruns { uCtx 0x100 id with pend := 4, en := 4 } [(134, 6)] (fun u w => w.seq == 6 && ubare w && u.irqOf 0 == some 0x43) ∧
    (let b := zBlk (uCtx 0x100 id)
     ({ b with ev := { b.ev with offer := [(0, 5)], released := [(0, ())] } } : Blk).irqOf 0 = some 0x40) ∧
    -- the other fields
    uruns (uCtx 0x100 id) [(58, 1), (62, 3), (68, 1)] (fun _ w => w.xop == 1 && w.aop == 0 && ubare { w with xop := 0 } && w.xdst != 1 && w.xdst != 2 &&
      (w.xval ((uCtx 0x100 id).uaddr 0 0 w.xsrc) 0).isSome) ∧
    ([1, 2, 3, 4, 5].all fun q => uruns (uCtx 0x100 id) [(22, q)] fun _ w => w.ctx == q && ubare { w with ctx := 0 }) = true ∧
    ([1, 2, 3, 4].all fun q => uruns (uCtx 0x100 id) [(18, q)] fun _ w => w.cnt == q && ubare { w with cnt := 0 }) = true ∧
    ([1, 2, 3].all fun q => uruns (uCtx 0x100 id) [(14, q)] fun _ w => w.tim == q && ubare { w with tim := 0 }) = true ∧
    ([2, 3].all fun q => uruns (uCtx 0x100 id) [(8, q)] fun _ w => w.imc == q && ubare { w with imc := 0 }) = true ∧
    uruns (uCtx 0x100 id) [(22, 6)] (fun _ w => w.ctx == 6 && ubare { w with ctx := 0 }) ∧
    ([1, 2, 3, 4, 5].all fun q => uruns (uCtx 0x100 id) [(10, q)] fun _ w => w.sch == q && ubare { w with sch := 0 }) = true ∧
    ([1, 5].all fun q => uruns (uCtx 0x100 id) [(44, q), (94, 1), (109, 1)] fun _ w => w.mop == q && w.dst == 1 && w.aop == 1 && w.msz == 0 &&
      ubare { w with mop := 0 }) = true ∧
    ([2, 4].all fun q => uruns (uCtx 0x100 id) [(44, q), (109, 1)] fun _ w => w.mop == q && w.dst == 0x3F && w.aop == 1 && w.msz != 2 && ubare { w with mop := 0 }) = true ∧
    uruns (uCtx 0x100 id) [(44, 3)] (fun _ w => w.mop == 3 && w.asrc == 0x3F && ubare { w with mop := 0 }) ∧ codeAt (faultCtx 0).cb.toNat (faultCtx 0).pc.toNat = true ∧
    ([2, 3, 6].all fun q => uruns (uCtx 0x100 id) [(25, q)] fun _ w => w.evt == q && ubare { w with evt := 0 }) = true ∧
    uruns (uCtx 0x100 id) [(29, 8), (94, 1), (74, 0x00)] (fun u w => w.cop == 8 && (copShape 0 0).isSome && u.unitThere 0 && decide (u.portUse 0 < 4) &&
      (uregs (uCtx 0x100 id).u.ir w.dst).isSome && ubare { w with cop := 0 }) ∧
    uruns (uCtx 0x100 id) [(134, 8)] (fun u w => w.seq == 8 && ubare w && u.fld (F.EA_ENG_CTRL_COMPAT 0 0) == 0) ∧
    (blkWith [(F.EA_ENG_CTRL_COMPAT 0 0, 1)]).fld (F.EA_ENG_CTRL_COMPAT 0 0) = 1 ∧
    ([(1, 0), (2, 0), (3, 0), (4, 0), (5, 0), (7, 0), (8, 0), (0x40, 0), (0xFF, 0)].all fun t => uruns (uCtx 0x100 fun m => { m with trap := some t }) [(22, 7)] fun _ w =>
      w.ctx == 7 && ubare { w with ctx := 0 }) = true ∧
    (let w := uword (uw [(109, 2), (94, 31), (90, 3)])
     w.fmt = 0 ∧ w.shf = 0 ∧ w.dst < 0x20 ∧ w.aop = 2 ∧ w.flg = 3 ∧ w.cop < 8 ∧ w.mop = 0) := by
  and_intros <;> decide +kernel

/-- The patch loader in a state. -/
def patchBlk (st : Nat) (l : List (Fld × Nat)) : Blk := blkWith ((F.CS_PATCH_STAT_STATE, st) :: l)
/-- A well-formed image of one microword and no match entry (R258): 64 + 20 + 16 + 96 bytes. -/
def patchWords_ : List (Nat × Word) := [(0, 0x54504150 - 5), (1, 1), (2, 7), (3, 1), (4, 1), (5, 3), (9, 20)]
def loadBlk (l : List (Fld × Nat)) (w : List (Nat × Word)) : Blk := { patchBlk 1 ((F.CS_PATCH_LEN_LEN, 196) :: l) with patchWin := w }
/-- Register 63 of bay 31 patches an address. -/
def mBlk (n kind rom : Nat) : Blk := blkWith [(F.CS_MATCH_ADDR_EN 31 n, 1), (F.CS_MATCH_ADDR_KIND 31 n, kind), (F.CS_MATCH_ADDR_ROMADDR 31 n, rom)]

theorem witness_PatchesAndMatches :
    Blk.reset.takes .mailbox F.CS_PATCH_CTRL_off = true ∧ F.CS_PATCH_CTRL_ACT.get 2 = 1 ∧ F.CS_PATCH_CTRL_GO.get 1 = 1 ∧ F.CS_PATCH_CTRL_ACT.get 1 = 0 ∧
    (blkWith [(F.CS_PATCH_STAT_STATE, 2), (F.EA_BAY_CTRL_EN 31, 1)]).fld (F.EA_BAY_CTRL_EN 31) = 1 ∧
    (let u := { patchBlk 2 [] with patch := some ⟨List.replicate 64 (0, 0), 1⟩ }
     u.fld F.CS_PATCH_STAT_STATE = 2 ∧ (List.range 32).all (fun b => u.fld (F.EA_BAY_CTRL_EN b) == 0) = true ∧ (u.patch.any fun p => p.entries.length == 64) = true) ∧
    (let u := { patchBlk 3 [] with patch := some ⟨List.replicate 64 (0, 0), 1⟩, asked := [(64, 5)] }
     u.fld F.CS_PATCH_STAT_STATE = 3 ∧ pget u.asked 64 ≠ some u.tb.bndAt ∧ u.patchNow = none ∧ pget { u with asked := [(64, 0)] }.asked 64 = some u.tb.bndAt) ∧
    ([5, 6].all fun n => let u := { patchBlk 2 [] with patch := some ⟨[], 1⟩, patchNow := some 5, now := n }
     u.patchNow == some 5 && (decide (u.now ≤ 5) == (n == 5)) && u.patch.isSome) = true ∧
    ({ mBlk 63 0 5 with matchOld := [(0, 3, 0)], now := 3 } : Blk).matchOld.all (fun x => decide (x.2.1 ≤ 3)) = true ∧
    ([0, 1, 3, 4, 5].all fun st => (patchBlk st []).fld F.CS_PATCH_STAT_STATE == st) = true ∧ (blkWith [(F.BLK_STAT_FUSEDONE, 1)]).fld F.BLK_STAT_FUSEDONE = 1 ∧
    Blk.reset.fld F.BLK_STAT_FUSEDONE = 0 ∧ (mBlk 63 1 0x1FFF).fld (F.CS_MATCH_ADDR_ROMADDR 31 63) = 0x1FFF ∧
    -- a load: an image that is no patch, one with a good header and a revoked key, and with a key beyond 3
    at1 (patchBlk 0 []) (fun k => k.fld F.CS_PATCH_STAT_STATE == 0) ∧ at1 (loadBlk [] []) (fun k => k.patchImage.take 4 != [0x4B, 0x41, 0x50, 0x54]) ∧
    at1 (let b := loadBlk [(F.TD_LIFE_LIFE, 1)] patchWords_
         { b with td := { b.td with fuses := { b.td.fuses with revoke := 8 } } }) (fun k => (patchHead k.patchImage).2 && leAt k.patchImage 20 4 == 3 &&
           k.td.fuses.revoke.getLsbD 3) ∧
    at1 (loadBlk [(F.TD_LIFE_LIFE, 0)] patchWords_) (fun k => (patchHead k.patchImage).2 && k.fld F.TD_LIFE_LIFE == 0) ∧
    at1 (loadBlk [(F.TD_LIFE_LIFE, 1)] patchWords_) (fun k => (patchHead k.patchImage).2 && decide (leAt k.patchImage 20 4 < 4) && k.td.fuses.revoke == 0) ∧
    -- match registers: a patch stands, a patch is asked for, a breakpoint at an address that is patched, one that is not
    Blk.reset.takes .mailbox (F.CS_MATCH_ADDR_off 31 63) = true ∧ (mBlk 63 0 5).fld (F.CS_MATCH_ADDR_EN 31 63) = 1 ∧
    (F.CS_MATCH_ADDR_EN 31 63).get 0x80000005 = 1 ∧ (F.CS_MATCH_ADDR_KIND 31 63).get 0x80000005 = 0 ∧
    (F.CS_MATCH_ADDR_KIND 31 0).get 0xC0000005 = 1 ∧ (F.CS_MATCH_ADDR_ROMADDR 31 0).get 0xC0000005 = (mBlk 63 0 5).fld (F.CS_MATCH_ADDR_ROMADDR 31 63) := by
  and_intros <;> decide +kernel

/-- A column entry of array 4 in use. -/
def repairBlk (n : Nat) : Blk := { withRegs Blk.reset [(F.BM_REPAIR_off 31 4, [0, 0x80, 0x8180, 0x828180, 0x83828180].getD n 0)] with bistAt := [(31, 0)], now := 614399 }

/-- A transfer of the last Exchange line by agent 5, and the Exchange word that port A has written in this cycle. -/
def portX (wr : Bool) : PortB := ⟨5, wr, 1023, 0, 28, false, false⟩
@[inherit_doc portX] def portState (o : Option Half) : State := stateOf { blkWith [(F.BM_STAT_READY 31, 1)] with
  ports := ⟨0, [], (o.map fun v => (bmKey 31 0x7FFFF, v)).toList⟩, xfer := [(30, portX true), (31, portX true)] }

theorem witness_BayMemories :
    (F.BM_XBUF_OWN_KIND 31 63).get 0x80 = 2 ∧ (portX true).line < 1024 ∧ (portX false).wr = false ∧ 0x78000 + 32 * 1023 + 31 = 0x7FFFF ∧
    ([none, some 7].all fun o => pget (portState o).blk.portsNow.wrote (bmKey 31 0x7FFFF) == o) = true ∧ pget (portState none).blk.bmErr (bmKey 31 0x7FFFF) = none ∧
    (portState none).blk.xfer = [(30, portX true)] ++ (31, portX true) :: [] ∧ (portState none).blk.bmReady 31 = true ∧ (portX true).agent < 6 ∧
    (portState none).blk.portsNow.given = [] ∧
    Blk.reset.takes .mailbox (F.BM_CTRL_off 31) = true ∧ (blkWith [(F.BM_CTRL_OFF 31, 1)]).fld (F.BM_CTRL_OFF 31) = 1 ∧ Blk.reset.fld (F.BM_CTRL_OFF 31) = 0 ∧
    Blk.reset.fld (F.EA_BAY_CTRL_EN 31) = 0 ∧ Blk.reset.fld (F.SV_UNIT_STAT_BUSY 31) = 0 ∧ ((List.range 64).all fun i => Blk.reset.fld (F.BM_XBUF_OWN_KIND 31 i) == 0) = true ∧
    (blkWith [(F.BM_XBUF_OWN_KIND 31 63, 1)]).fld (F.BM_XBUF_OWN_KIND 31 63) ≠ 0 ∧ Blk.reset.takes .mailbox (F.BM_XBUF_OWN_off 31 63) = true ∧
    (F.BM_XBUF_OWN_KIND 31 63).get 0 = 0 ∧ (F.BM_XBUF_OWN_KIND 31 63).get 0x40 = 1 ∧ (F.BM_XBUF_OWN_KIND 31 63).get 0xC0 = 3 ∧
    (blkWith [(F.BM_XBUF_OWN_KIND 31 63, 1), (F.BM_XBUF_OWN_ID 31 63, 9)]).fld (F.BM_XBUF_OWN_ID 31 63) = (F.BM_XBUF_OWN_ID 31 63).get 9 ∧
    (blkWith [(F.BM_STAT_CLEARING 31, 1)]).fld (F.BM_STAT_CLEARING 31) = 1 ∧ Blk.reset.fld (F.BM_STAT_CLEARING 31) = 0 ∧
    at1 { Blk.reset with bmErr := [(bmKey 31 0x7FFFF, .found)] } (fun k => pget k.bmErr (bmKey 31 0x7FFFF) == some .found) ∧
    at1 Blk.reset (fun k => (pget k.clearAt 31).isNone && (pget k.bistAt 31).isNone) ∧
    at1 { Blk.reset with clearAt := [(31, 0)], now := 61439 } (fun k => (pget k.clearAt 31).any fun a => decide (a + 61440 ≤ k.now)) ∧
    at1 { Blk.reset with clearAt := [(31, 0)], now := 61438 } (fun k => (pget k.clearAt 31).any fun a => decide (k.now < a + 61440)) ∧
    -- self-test: no bad column or one that is replaced, a free entry, no free entry
    at1 (repairBlk 1) (fun k => (pget k.bistAt 31).any (fun a => decide (a + 614400 ≤ k.now)) && k.fld ⟨F.BM_REPAIR_off 31 4, 7, 1⟩ == 1 &&
      k.fld ⟨F.BM_REPAIR_off 31 4, 0, 6⟩ == 0) ∧
    at1 (repairBlk 3) (fun k => k.fld ⟨F.BM_REPAIR_off 31 4, 31, 1⟩ == 0 && [0, 1, 2].all (fun i => k.fld ⟨F.BM_REPAIR_off 31 4, 8 * i + 7, 1⟩ == 1)) ∧
    at1 (repairBlk 4) (fun k => [0, 1, 2, 3].all (fun i => k.fld ⟨F.BM_REPAIR_off 31 4, 8 * i + 7, 1⟩ == 1 && k.fld ⟨F.BM_REPAIR_off 31 4, 8 * i, 6⟩ != 43)) := by
  and_intros <;> decide +kernel

/-- A source that is pending for a target. -/
def evBlk (l : List (Nat × Word)) (f : EvState → EvState) : Blk :=
  let b := withRegs Blk.reset l
  { b with ev := f b.ev }
def offered (t n : Nat) (c : Nat) (e : EvState) : EvState := { e with offer := [(t, n)], waitFrom := [(t, c)] }

theorem witness_EventController :
    at1 (evBlk [] (offered 33 7 0)) (fun k => pget k.ev.offer 33 == some 7 && pget k.dawn.ev.offer 33 == some 7) ∧ at1 (evBlk [] (offered 0 249 0)) (fun k => k.fld (F.EV_TMOD_HOLD 0) == 0) ∧
    at1 (evBlk [] fun e => { e with bad := [(749, ())] }) (fun k => pget k.ev.bad (3 * 249 + 2) == some () && (pget k.ev.bad 0).isNone) ∧
    -- nothing lets it pass: HOLD at its most, no urgency, no count, a busy target, no time
    at1 (evBlk [(F.EV_TMOD_off 32, 0xFFFFFFFF), (F.EV_GCTL_off, 0)] fun e => { offered 32 249 0 e with t32Done := some 0 }) (fun k => pget k.ev.offer 32 == some 249 &&
      decide (0 < k.fld (F.EV_TMOD_HOLD 32)) && k.fld F.EV_GCTL_EN == 0 && k.fld F.EV_GCTL_URG == 0 && decide (k.now < k.fld (F.EV_TMOD_HOLD 32) * 16)) ∧
    Blk.reset.phase = .running ∧ pget Blk.reset.ev.offer 33 = none ∧ pget (evBlk [] (offered 33 249 0)).ev.offer 33 = some 249 ∧
    Blk.reset.takes .mailbox (F.EV_DONE_off 33) = true ∧ Blk.reset.takes .mailbox (F.EV_ROUTE_HI_off 249) = true ∧ pget (evBlk [] fun e => { e with active := [(33, 7)] }).ev.active 33 = some ((F.EV_DONE_SOURCE 33).get 7) ∧
    pget Blk.reset.ev.active 33 ≠ some ((F.EV_DONE_SOURCE 33).get 7) ∧ Blk.reset.takes .mailbox F.EV_FRZ_off = true ∧
    (evBlk [] fun e => { e with frozen := true, frzOwner := 5 }).ev.frozen = true ∧ (F.EV_FRZ_ID.get (force F.EV_FRZ_FRZ 0 1)) ≠ 5 ∧
    F.EV_FRZ_ID.get (BitVec.ofNat 32 (5 * 2 ^ F.EV_FRZ_ID.lo)) = 5 ∧ Blk.reset.ev.frozen = false ∧
    at1 Blk.reset (fun k => !k.ev.frozen) ∧ at1 { evBlk [] (fun e => { e with frozen := true, frzAt := 0, frzLimit := 1 }) with now := 15 } (fun k =>
      k.ev.frozen && decide (k.ev.frzAt + k.ev.frzLimit * 16 ≤ k.now)) ∧
    ((List.range 8).all fun i => Blk.reset.takes .mailbox (F.EV_MASK_off i) && Blk.reset.takes (.engine 31) (F.EV_PEND_off i)) = true ∧
    (blkWith [(F.EV_STAT_FRZTO, 1)]).fld F.EV_STAT_FRZTO = 1 ∧ Blk.reset.fld F.EV_STAT_FRZTO = 0 := by
  and_intros <;> decide +kernel

/-- Pin engine 31 in its tick, with an instruction at its place 31 and a state. -/
def pinBlk (w : Half) (f : PinEng → PinEng) (l : List (Fld × Nat)) : Blk :=
  let b := withRegs (blkWith ((F.SB_PE_CTRL_EN 31, 1) :: l)) [(0x4800 + 0x40 * 31 + 4 * 15, (w.setWidth 32) <<< 16)]
  { b with pes := [(31, f { PinEng.reset with pc := 31 })] }
/-- The condition of the statement's rows, and another. -/
def pinAt (w : Half) (f : PinEng → PinEng) (l : List (Fld × Nat)) (p : PinEng → Blk → Bool) : Bool :=
  at1 (pinBlk w f l) fun k => k.fld (F.SB_PE_CTRL_EN 31) == 1 && decide ((k.pe 31).tick ≤ k.now) && (k.pe 31).pc.toNat == 31 &&
    (k.rd (0x4800 + 0x40 * 31 + 4 * 15)).extractLsb' 16 16 == w && p (k.pe 31) k

theorem witness_PinInstructions :
    at1 Blk.reset (fun k => k.fld (F.SB_PE_CTRL_EN 31) == 0) ∧
    -- BR: legal and taken, not taken, illegal; HOLD by pad, flag and trigger
    ([(0x0000, true), (0x0400, true), (0x0800, false), (0x0DE0, true), (0x1200, true), (0x1600, false), (0x1A00, true), (0x1C00, true), (0x0020, true)].all fun x =>
      pinAt (BitVec.ofNat 16 x.1) (fun p => { p with ca := 1, cb := 0 }) [] fun p _ => p.ca == 1 && p.cb == 0 && p.tx.isEmpty) = true ∧
    ([0x2000, 0x2400, 0x2800, 0x2C00, 0x3400, 0x2001].all fun w => pinAt w id [] fun _ k => (pget k.peTrig 31).isNone) = true ∧
    at1 { pinBlk 0x3400 id [] with peTrig := [(31, 1)], now := 7 } (fun k => (pget k.peTrig 31).any fun c => decide (c < k.now / 4)) ∧
    at1 { pinBlk 0x3400 id [] with peTrig := [(31, 2)], now := 7 } (fun k => (pget k.peTrig 31).any fun c => decide (k.now / 4 ≤ c)) ∧
    ([some 2, some 1].all fun c => at1 { pinBlk 0xE600 id [] with pins := { Pins.reset with padAt := c }, now := 7 } fun k => (k.pins.padAt == some (k.now / 4)) == (c == some 2)) = true ∧
    -- PAUSE: illegal, over, running
    pinAt 0x5000 id [] (fun _ _ => true) ∧ pinAt 0x4000 id [] (fun p _ => p.pause == 0) ∧ pinAt 0x4FFF id [] (fun p _ => decide (p.pause < 0xFFF)) ∧
    -- SHIN and SHOUT
    ([0x6000, 0x681F, 0x7001, 0x7800, 0x67E0].all fun w => pinAt w id [(F.SB_PE_PINS_PWID 31, 16)] fun _ _ => true) = true ∧
    ([0x8000, 0x841F, 0x8801, 0x8C10, 0x9000, 0x8020].all fun w => pinAt w id [] fun _ _ => true) = true ∧
    -- FIFO: words and room, none, with NB, the conditional forms
    ([0xA000, 0xA400, 0xA001, 0xB000].all fun w => pinAt w id [] fun p _ => p.tx.isEmpty && p.bc == 0) = true ∧
    ([0xA000, 0xB000].all fun w => pinAt w (fun p => { p with tx := [7], bc := 32 }) [] fun p _ => !p.tx.isEmpty && p.bc == 32) = true ∧
    ([0xA800, 0xB800].all fun w => pinAt w (fun p => { p with bc := 32 }) [] fun p _ => decide (p.rx.length < 8)) = true ∧
    ([0xA800, 0xAC00, 0xB800].all fun w => pinAt w (fun p => { p with rx := List.replicate 8 0, bc := 32 }) [] fun p _ => p.rx.length == 8) = true ∧
    -- PUT and MISC
    ([0xC000, 0xC4FC, 0xCBFC, 0xC001, 0xD7FF, 0xDFFF].all fun w => pinAt w id [] fun _ _ => true) = true ∧
    ([0xE000, 0xE00A, 0xE068, 0xE09C, 0xE0E0, 0xE120, 0xE001, 0xE150, 0xE006].all fun w => pinAt w id [] fun _ _ => true) = true ∧
    ([0xE200, 0xE28F, 0xE30F, 0xE38F, 0xE210, 0xE400, 0xE5EF, 0xE410, 0xE600, 0xE601, 0xEA00, 0xE800, 0xE801].all fun w => pinAt w id [] fun _ _ => true) = true ∧
    Blk.reset.peFlags.cyc ≠ 7 ∧ Blk.reset.peFlags.cyc = 0 := by
  and_intros <;> decide +kernel

theorem witness_PinEngineRegisters :
    ((List.range 32).all fun n => Blk.reset.takes .mailbox (F.SB_PE_CTRL_off n) && Blk.reset.takes .mailbox (F.SB_PE_TX_off n) &&
      Blk.reset.takes .mailbox (0x4800 + 0x40 * n + 0x3C)) = true ∧
    ([F.SB_PE_GSTART_off, F.SB_PE_FSET_off, F.SB_PE_FCLR_off, F.SB_PAD_OWN_off 127].all fun o => Blk.reset.takes .monitor o) = true ∧
    (let u := blkWith [(F.SB_PE_CTRL_FARB 30, 1)]
     (9 : Word).getLsbD 3 = true ∧ u.fld (F.SB_PE_CTRL_FARB 30) = 1 ∧ (List.range 30).all (fun j => u.fld (F.SB_PE_CTRL_FARB j) == 0) = true) ∧
    (blkWith [(F.SB_PE_CTRL_EN 31, 1)]).fld (F.SB_PE_CTRL_EN 31) = 1 ∧ Blk.reset.fld (F.SB_PE_CTRL_EN 31) = 0 ∧ Blk.reset.fld (F.SB_PE_CTRL_FARB 31) = 0 ∧
    (blkWith [(F.SB_PE_CTRL_FARB 31, 1)]).fld (F.SB_PE_CTRL_FARB 31) = 1 ∧ (Blk.reset.pe 31).tx.length < 8 ∧
    (let u := { Blk.reset with pes := [(31, { PinEng.reset with tx := List.replicate 8 0, rx := [7] })] }
     8 ≤ (u.pe 31).tx.length ∧ (u.pe 31).rx = [7] ∧ u.phase = .running) ∧ Blk.reset.phase = .running ∧ (Blk.reset.pe 31).rx = [] ∧
    Blk.reset.fld (F.SB_PAD_OWN_KIND 127) = 0 ∧ (0xC0 : Word).toNat / 2 ^ 6 % 4 = 3 ∧ (0x5F : Word).toNat / 2 ^ 6 % 4 = 1 ∧
    (let u := blkWith [(F.SB_PAD_OWN_KIND 127, 1), (F.SB_PAD_OWN_ID 127, 31)]
     u.fld (F.SB_PAD_OWN_KIND 127) = 1 ∧ u.fld (F.SB_PAD_OWN_ID 127) = (0x5F : Word).toNat % 2 ^ 5 ∧
       u.fld (F.SB_PAD_OWN_ID 127) = (0x1F : Word).toNat % 2 ^ 5 ∧ u.fld (F.SB_PAD_OWN_ID 127) ≠ (0x5E : Word).toNat % 2 ^ 5) := by
  and_intros <;> decide +kernel

/-- The power arbiter with fields and its own state; slot 15 is asked for. -/
def pwrBlk (l : List (Fld × Nat)) (f : PwrArb → PwrArb) (now : Nat) : Blk :=
  let b := blkWith l
  { b with pwr := f b.pwr, now := now }
def slotBlk (l : List (Fld × Nat)) : Blk := pwrBlk ((F.SB_SLOT_CFG_STATE 15, 1) :: l) id 0
def slotTurn (k : Blk) : Bool := k.fld (F.SB_SLOT_CFG_STATE 15) == 1 && (List.range 15).all (fun j => k.fld (F.SB_SLOT_CFG_STATE j) == 0) && k.pwr.slotAt.isNone
def slotPasses (k : Blk) : Bool := decide (k.fld (F.SB_SLOT_CFG_ILIM 15) * k.fld F.SB_PWR_VLIM_VHIGH * k.fld (F.SB_SLOT_CFG_TTRIP 15) ≤ k.fld F.SB_SLOT_ELIM_ELIM * 100000)

theorem witness_PowerArbiter :
    at1 (pwrBlk [(F.SB_PWR_CTRL_POLLEN, 1)] id 19999999) (fun k => k.fld F.SB_PWR_CTRL_POLLEN == 1 && decide (k.pwr.pollAt + 20000000 ≤ k.now)) ∧
    at1 Blk.reset (fun k => k.fld F.SB_PWR_CTRL_POLLEN == 0 && (List.range 32).all (fun n => k.fld (F.SB_PE_CTRL_FARB n) == 0) && k.pwr.cur.isNone) ∧
    (let b : Blk := { blkWith [(F.SB_PE_CTRL_FARB 31, 1)] with pes := [(31, { PinEng.reset with rx := [0xFFFF] })] }
     at1 b (fun k => k.fld (F.SB_PE_CTRL_FARB 31) == 1 && (List.range 31).all (fun j => k.fld (F.SB_PE_CTRL_FARB j) == 0) && (k.pe 31).rx == [0xFFFF]) ∧
     at1 { b with pwr := { b.pwr with cur := some (.iin, 0) } } (fun k => k.pwr.cur == some (.iin, 0) && (0xFFFF : Word).toNat / 2 ^ 24 == 0 && decide (k.now ≤ 2000000))) ∧
    at1 (pwrBlk [] (fun p => { p with cur := some (.slot 15 2, 0) }) 2000000) (fun k => k.pwr.cur == some (.slot 15 2, 0) && decide (0 + 2000000 < k.now)) ∧
    at1 (pwrBlk [] (fun p => { p with cur := some (.slot 15 2, 0) }) 1999999) (fun k => decide (k.now ≤ 0 + 2000000)) ∧
    at1 (blkWith [(F.SB_PWR_STAT_ALERT, 1)]) (fun k => k.fld F.SB_PWR_STAT_ALERT == 1) ∧ at1 Blk.reset (fun k => k.fld F.SB_PWR_STAT_ALERT == 0) ∧
    Blk.reset.takes .mailbox F.SB_SLOT_REQ_off = true ∧ Blk.reset.takes .mailbox F.SB_SLOT_OFF_off = true ∧
    (blkWith [(F.SB_SLOT_CFG_STATE 15, 3)]).fld (F.SB_SLOT_CFG_STATE 15) = 3 ∧ (0xFFFF : Word).getLsbD 15 = true ∧
    at1 Blk.reset (fun k => !slotTurn k) ∧ at1 (slotBlk [(F.SB_PWR_STAT_PMFAIL, 1)]) (fun k => slotTurn k && k.fld F.SB_PWR_STAT_PMFAIL == 1) ∧
    at1 (slotBlk [(F.SB_SLOT_CFG_ILIM 15, 1023), (F.SB_SLOT_CFG_TTRIP 15, 4095)]) (fun k => slotTurn k && !slotPasses k && k.fld F.SB_PWR_STAT_UV == 0 &&
      k.fld F.SB_PWR_STAT_OV == 0 && k.fld F.SB_PWR_STAT_PMFAIL == 0) ∧
    at1 (slotBlk []) (fun k => slotTurn k && slotPasses k && k.fld F.SB_PWR_STAT_UV == 0 && k.fld F.SB_PWR_STAT_OV == 0 && k.fld F.SB_PWR_STAT_PMFAIL == 0) ∧
    ([0x3044, 0x3030, 0x3080 + 4 * 15].all fun o => Blk.reset.takes .mailbox o) = true ∧
    (let u := blkWith [(F.SB_SLOT_CFG_STATE 15, 3), (F.SB_SLOT_CFG_ILIM 15, 1), (F.SB_SLOT_CFG_TTRIP 15, 1)]
     u.fld (F.SB_SLOT_CFG_STATE 15) ≠ 0 ∧ ¬ (1 * u.fld F.SB_PWR_VLIM_VHIGH * 1 ≤ (0 : Word).toNat % 2 ^ 16 * 100000)) ∧
    (pwrBlk [] (fun p => { p with short := true, alerts := [0], uvOff := some 1 }) 5).pwr.alerts.any (fun c => decide (c < 5)) = true := by
  and_intros <;> decide +kernel

/-- R481: an energy at the limit, and one above: 5 A in tenths, 7.5 V in hundredths, 100 ms, against 3.75 J. -/
theorem test_energy : let u := (blkWith [(F.SB_SLOT_CFG_ILIM 0, 50), (F.SB_SLOT_CFG_TTRIP 0, 100), (F.SB_SLOT_ELIM_ELIM, 37)]).setFld F.SB_PWR_VLIM_VHIGH 740
    50 * 740 * 100 ≤ 37 * 100000 ∧ u.fld (F.SB_SLOT_CFG_ILIM 0) = 50 ∧ u.fld F.SB_PWR_VLIM_VHIGH = 740 ∧ u.fld F.SB_SLOT_ELIM_ELIM = 37 := by
  and_intros <;> decide +kernel

/-- R452: a source with a parity error is not offered until the entry is rewritten. -/
def parityBlk (l : List (Fin 250 × Fin 3)) : State :=
  after (exec (.offerAssign 1 l) (stateOf (withRegs (blkWith [(F.EV_GCTL_EN, 1)]) [(F.EV_PEND_off 7, 1), (F.EV_MASK_off 7, 0), (F.EV_ROUTE_HI_off 224, 2)])))
@[inherit_doc parityBlk] def offerOf (s : State) : Option Nat := pget (s.pass 1).blk.ev.offer 33
theorem test_event_parity : offerOf (parityBlk []) = some 224 ∧ offerOf (parityBlk [(224, 2)]) = none ∧
    offerOf (after (exec (.offerAssign 1 []) (after (exec (.registerWrite .mailbox (BitVec.ofNat 22 (F.EV_ROUTE_HI_off 224)) 32 2) (parityBlk [(224, 2)]))))) = some 224 := by
  and_intros <;> decide +kernel

/-- The block with its trust and debug state. -/
def tdBlk (l : List (Fld × Nat)) (f : Trust → Trust) : Blk :=
  let b := blkWith l
  { b with td := f b.td }
/-- Fuses as read, with the fields of a set unread (R486). -/
def anImage (bad : BitVec 8) : FuseImage := ⟨{ FuseCopy.zero with life := 1 }, { FuseCopy.zero with life := 2 }, bad⟩

theorem witness_FusesAndIdentity :
    at1 (blkWith [(F.BLK_STAT_FUSEDONE, 1)]) (fun k => k.fld F.BLK_STAT_FUSEDONE == 1 && k.fld F.BLK_STAT_TDKEYS == 0) ∧
    at1 (tdBlk [] fun d => { d with goHeld := true }) (fun k => k.fld F.BLK_STAT_FUSEDONE == 0 && k.td.goHeld) ∧ at1 Blk.reset (fun k => !k.td.goHeld && !k.td.rbgBad) ∧
    at1 (blkWith [(F.BLK_STAT_FUSEDONE, 1), (F.BLK_STAT_TDKEYS, 1)]) (fun k => k.fld F.BLK_STAT_TDKEYS == 1) ∧ (anImage 0).bad = 0 ∧
    ((List.range 8).all fun i => (List.range 8).all fun j => (anImage (1 <<< i)).bad.getLsbD j == decide (j = i)) = true ∧
    Blk.reset.takes .mailbox F.TD_CERT_CTRL_off = true ∧ (tdBlk [(F.TD_LIFE_LIFE, 1)] fun d => { d with ident := some (0, 0) }).td.ident = some (0, 0) ∧
    Blk.reset.fld F.TD_CERT_CTRL_OK = 0 ∧ (blkWith [(F.TD_CERT_CTRL_OK, 1)]).fld F.TD_CERT_CTRL_OK = 1 ∧ Blk.reset.fld F.TD_LIFE_LIFE = 0 := by
  and_intros <;> decide +kernel

/-- A responder past fuse load, and one with a request in progress. -/
def spdmBlk (f : Trust → Trust) : Blk := tdBlk [(F.TD_LIFE_LIFE, 1)] f
def asked : SpdmReq := .measurements 0xFF 0

theorem witness_SpdmResponder :
    at1 Blk.reset (fun k => k.fld F.TD_LIFE_LIFE == 0) ∧ at1 (spdmBlk fun d => { d with spdm := some asked }) (fun k => k.fld F.TD_LIFE_LIFE != 0 && k.td.spdm.isSome) ∧
    at1 (spdmBlk id) (fun k => k.fld F.TD_LIFE_LIFE != 0 && k.td.spdm.isNone && k.td.chain.isNone && k.td.ident.isNone && !k.td.rbgBad && k.patch.isNone) ∧
    at1 (spdmBlk fun d => { d with chain := some [7], ident := some (0, 0) }) (fun k => k.td.chain == some [7] && k.td.ident.isSome && k.td.spdm.isNone) ∧
    at1 (spdmBlk fun d => { d with rbgBad := true }) (fun k => k.td.rbgBad) ∧
    at1 { spdmBlk id with regs := ((spdmBlk id).setFld F.CS_PATCH_STAT_STATE 4).regs, patch := some ⟨[], 1⟩ } (fun k => k.patch.isSome && k.fld F.CS_PATCH_STAT_STATE == 4) ∧
    at1 (spdmBlk fun d => { d with spdm := some asked, ident := some (0, 0) }) (fun k => k.td.spdm == some asked && k.td.ident.isSome && !k.td.rbgBad) ∧
    at1 (spdmBlk fun d => { d with spdm := some (.challenge 1 0), ident := some (0, 0), rbgBad := true }) (fun k => k.td.spdm == some (.challenge 1 0) && k.td.rbgBad) ∧
    ((4 : Byte).toNat ≤ 4 ∧ 4 < (5 : Byte).toNat ∧ (5 : Byte) ≠ 0xFF) := by
  and_intros <;> decide +kernel

theorem witness_DebugAuthorisation :
    Blk.reset.takes .mailbox F.TD_DBG_CTRL_off = true ∧ Blk.reset.fld F.TD_LIFE_LIFE = 0 ∧
    (blkWith [(F.TD_LIFE_LIFE, 1)]).fld F.TD_DBG_STAT_LOCKOUT = 0 ∧ (blkWith [(F.TD_LIFE_LIFE, 1)]).fld F.TD_DBG_CTRL_AUTH = 0 ∧
    (blkWith [(F.TD_LIFE_LIFE, 1)]).fld F.TD_LIFE_LIFE = 1 ∧ (blkWith [(F.TD_DBG_STAT_LOCKOUT, 1)]).fld F.TD_DBG_STAT_LOCKOUT = 1 ∧
    at1 Blk.reset (fun k => k.td.auth.isNone) ∧ at1 (tdBlk [] fun d => { d with auth := some (true, some (3, 3)) }) (fun k => k.td.auth == some (true, some (3, 3))) ∧
    at1 (tdBlk [(F.TD_DBG_STAT_FAILS, 2)] fun d => { d with auth := some (false, none) }) (fun k => k.td.auth == some (false, none) && min 3 (k.fld F.TD_DBG_STAT_FAILS + 1) == 3) ∧
    at1 (tdBlk [] fun d => { d with auth := some (true, none) }) (fun k => k.td.auth == some (true, none) && decide (min 3 (k.fld F.TD_DBG_STAT_FAILS + 1) < 3)) := by
  and_intros <;> decide +kernel

/-- The monitor with a command and a level. -/
def monBlk (code level : Nat) (l : List (Fld × Nat)) (f : Trust → Trust) : Blk :=
  withRegs (tdBlk ((F.TD_MON_STAT_BUSY, 1) :: (F.TD_DBG_STAT_LEVEL, level) :: l) f) [(F.TD_MON_CMD_off 0, BitVec.ofNat 32 code)]
/-- It is the monitor's turn, at a level, and a condition holds. -/
def monAt (b : Blk) (code level : Nat) (p : Blk → Bool) : Bool := at1 b fun k =>
  k.fld F.TD_MON_STAT_BUSY == 1 && (k.rd (F.TD_MON_CMD_off 0)).toNat % 256 == code && k.td.step.isNone && k.fld F.TD_DBG_STAT_LEVEL == level && p k
/-- Engine 255 halted, with a context in HALT. -/
def haltL : List (Fld × Nat) := [(⟨F.TD_HSTAT_off 7, 31, 1⟩, 1), (F.EA_BAY_CTRL_EN 31, 1)]

theorem witness_MonitorCommands :
    Blk.reset.takes .mailbox F.TD_MON_DOOR_off = true ∧ (blkWith [(F.TD_MON_STAT_BUSY, 1)]).fld F.TD_MON_STAT_BUSY = 1 ∧ Blk.reset.fld F.TD_MON_STAT_BUSY = 0 ∧
    (Blk.reset.rd (F.TD_MON_CMD_off 0)).toNat % 256 ≤ 0x0D ∧ 0x0D < ((withRegs Blk.reset [(F.TD_MON_CMD_off 0, 0x10E)]).rd (F.TD_MON_CMD_off 0)).toNat % 256 ∧
    at1 Blk.reset (fun k => k.fld F.TD_MON_STAT_BUSY == 0) ∧ monAt (monBlk 0 0 [] id) 0 0 (fun _ => true) ∧
    ((List.range 14).all fun c => monAt (monBlk c 0 [] id) c 0 (fun _ => true) && monAt (monBlk c 3 [] id) c 3 (fun _ => true)) = true ∧
    -- registers: the first is good, the last is good, one off a word, one beyond the window
    pageOf 0x1000 ≠ none ∧ pageOf (0x3FFFFC % 0x200000) = none ∧ (0x1001 % 4 ≠ 0 ∧ (0x400000 : Nat) ≤ 0x3FFFFC + 4) ∧
    -- bay memory
    monAt (monBlk 3 3 [(F.BM_STAT_READY 31, 1)] id) 3 3 (fun k => k.fld (F.BM_STAT_READY 31) == 1 && k.bmErr.isEmpty) ∧
    monAt { monBlk 3 3 [(F.BM_STAT_READY 31, 1)] id with bmErr := [(bmKey 31 0x7FFFE, .single), (bmKey 31 0x7FFFF, .double)] } 3 3 (fun k =>
      pget k.bmErr (bmKey 31 0x7FFFE) == some .single && pget k.bmErr (bmKey 31 0x7FFFF) == some .double && decide (0x7FFFE + 2 ≤ 2 ^ 19)) ∧
    monAt (monBlk 4 3 [] id) 4 3 (fun k => k.fld (F.BM_STAT_READY 31) == 0) ∧
    -- contexts
    ([8, 9].all fun c => monAt (monBlk c 3 haltL id) c 3 (fun k => k.halted 255 && !k.pendingReg 2047 0 && !k.pendingReg 2047 0x3F)) = true ∧
    ([8, 9].all fun c => monAt (monBlk c 3 [] id) c 3 (fun k => !k.halted 255)) = true ∧
    -- breakpoints
    monAt { mBlk 63 0 5 with td := { Trust.reset with brk := [(0, ())] }, regs := (monBlk 0x0A 3 [(F.CS_MATCH_ADDR_EN 31 63, 1), (F.CS_MATCH_ADDR_ROMADDR 31 63, 5)] id).regs }
      0x0A 3 (fun k => k.fld (F.CS_MATCH_ADDR_EN 31 63) == 1 && k.fld (F.CS_MATCH_ADDR_KIND 31 63) == 0 && k.fld (F.CS_MATCH_ADDR_ROMADDR 31 63) == 5) ∧
    monAt (monBlk 0x0A 3 [] id) 0x0A 3 (fun k => (List.range 64).all fun m => k.fld (F.CS_MATCH_ADDR_EN 31 m) == 0) ∧
    monAt (monBlk 0x0C 1 [] fun d => { d with sage := List.range 15 }) 0x0C 1 (fun k => k.td.sage.length == 15) ∧
    -- fuses: nothing to burn, not at the programming voltage, in a bay that executes, all well, burnt before
    monAt (monBlk 0x0D 3 [] id) 0x0D 3 (fun k => k.fld ⟨F.BM_REPAIR_off 31 4, 30, 1⟩ == 0) ∧
    monAt (withRegs (monBlk 0x0D 3 [] id) [(F.BM_REPAIR_off 31 4, 0xEB000000)]) 0x0D 3 (fun k => k.fld ⟨F.BM_REPAIR_off 31 4, 30, 1⟩ == 1 &&
      k.fld (F.EA_BAY_CTRL_EN 31) == 0 && !(k.td.fuses.rep ||| k.burnt).getLsbD (7 * (20 * 31 + 4 * 4 + 3) + 6)) ∧
    monAt (withRegs (monBlk 0x0D 3 [(F.EA_BAY_CTRL_EN 31, 1)] id) [(F.BM_REPAIR_off 31 4, 0xEB000000)]) 0x0D 3 (fun k => k.fld (F.EA_BAY_CTRL_EN 31) == 1) ∧
    monAt { monBlk 0x0D 3 [] id with burnt := 1 <<< 4479 } 0x0D 3 (fun k => (k.td.fuses.rep ||| k.burnt).getLsbD (7 * (20 * 31 + 4 * 4 + 3) + 6)) := by
  and_intros <;> decide +kernel

/-- A context of engine 255 that a halt holds. -/
def heldCtx (u : CtxSt) : Ctx := { Ctx.reset with st := .halt, under := u }

theorem witness_HaltsAndSteps :
    (let u := tdBlk [] fun d => { d with asks := [(.engine 255, true), (.bay 31, false), (.block, true)], pulses := [7] }
     u.td.asks ≠ [] ∧ u.td.pulses ≠ [] ∧ (.engine 255, true) ∈ u.td.asks ∧ (.bay 31, false) ∈ u.td.asks ∧ (.block, true) ∈ u.td.asks ∧ 7 ∈ u.td.pulses) ∧
    Blk.reset.td.asks = [] ∧ Blk.reset.td.pulses = [] ∧
    (let u := tdBlk [] (fun d => { d with defer := [(255, ())] })
     { u with dawn := { u.dawn with locks := [2047] } }.dawn.locks = [8 * 255 + 7] ∧ u.dawn.locks = []) ∧
    ([5, 6, 7].all fun c => monAt (monBlk c 2 [] id) c 2 (fun k => !k.halted 255 && k.fld F.TD_HSTATX_BLOCK == 0)) = true ∧
    ([5, 6, 7].all fun c => monAt (monBlk c 2 haltL id) c 2 (fun k => k.halted 255)) = true ∧
    ((monBlk 6 2 [(F.TD_HSTATX_BLOCK, 1)] id).pass 1).phase = .running ∧ ((monBlk 6 2 [(F.TD_HSTATX_BLOCK, 1)] id).pass 1).fld F.TD_HSTATX_BLOCK = 1 ∧
    monAt (withRegs (monBlk 5 2 [] id) [(F.TD_HSTATB_off, 0x80000000)]) 5 2 (fun k => k.rbit F.TD_HSTATB_off 31) ∧
    ([.ready, .run].all fun u => monAt { monBlk 7 2 haltL id with ctxs := [(2047, heldCtx u)] } 7 2 (fun k => k.fld F.TD_HSTATX_BLOCK == 0 &&
      (k.ctx 2047).st == .halt && (k.ctx 2047).under == u && k.halted 255 && k.fld (F.EA_BAY_CTRL_EN 31) == 1 &&
      k.fld ⟨F.EA_SLOT_STAT_off 31, 3 * k.slotOf 255, 3⟩ == 0 && !k.rbit F.EV_BAYSTOP_off 31 && k.cops.isEmpty)) = true ∧
    monAt { monBlk 7 2 haltL id with ctxs := [(2047, heldCtx .wait)] } 7 2 (fun k => (k.ctx 2047).under == .wait) ∧
    at1 { tdBlk [] (fun d => { d with defer := [(255, ())], deferBlk := true }) with ctxs := [(2047, { Ctx.reset with lock := true })] } (fun k => k.td.defer == [(255, ())] &&
      k.td.deferBlk && k.ctxs.any fun x => x.2.lock) ∧
    at1 (tdBlk [] fun d => { d with defer := [(255, ())], deferBlk := true }) (fun k => k.td.deferBlk && k.ctxs.isEmpty) ∧
    (withRegs Blk.reset [(F.TD_XT_ENG_off 7 7, 0x80000000)]).rbit (F.TD_XT_ENG_off 7 7) 31 = true ∧ (blkWith [(F.TD_XT_CTL_BLOCK 7, 1)]).fld (F.TD_XT_CTL_BLOCK 7) = 1 ∧
    Blk.reset.fld (F.TD_XT_CTL_BLOCK 7) = 0 ∧ (withRegs Blk.reset [(F.TD_XT_BAY_off 7, 0x80000000)]).rbit (F.TD_XT_BAY_off 7) 31 = true := by
  and_intros <;> decide +kernel

/-- Bay 31 with its supervisor's context 0 in RUN, a descriptor in the scratch registers, and a boot run. -/
def bootBlk (w1 w3 : Word) (r : List (Nat × BootRun)) (got : List (Owner × JobOut)) : Blk :=
  { withRegs (blkWith [(F.EA_BAY_CTRL_EN 31, 1), (F.BM_STAT_READY 31, 1)]) [(F.BLK_SCRATCH_off 1, w1), (F.BLK_SCRATCH_off 3, w3)] with
    ctxs := [(8 * 248, { Ctx.reset with st := .run })], boots := r, got := got }
/-- The program runs. -/
def booting (k : Blk) : Bool := k.executes (248 + k.fld (F.EA_BAY_CTRL_SUPV 31)) && (k.ctx (8 * (248 + k.fld (F.EA_BAY_CTRL_SUPV 31)))).st == .run
def oneLine (sum : Word) : BootRun := ⟨0, 1, sum, 6, 0, true, false⟩

theorem witness_BootAndManagement :
    at1 Blk.reset (fun k => !booting k && (pget k.boots 31).isNone) ∧ at1 (bootBlk 0 0 [] []) (fun k => booting k && (pget k.boots 31).isNone) ∧
    at1 (bootBlk 0x38010000 0xB0060000 [(31, { oneLine 0 with busy := false })] []) (fun k => booting k && decide (k.now < 0 + 1024)) ∧
    at1 (bootBlk 0x38010000 0xB0060000 [] []) (fun k => booting k && (k.rd (F.BLK_SCRATCH_off 3)).toNat / 2 ^ 24 == 0xB0 && decide (14336 < (k.rd (F.BLK_SCRATCH_off 1)).toNat / 2 ^ 16)) ∧
    at1 (bootBlk 0x38000000 0xB0060000 [] []) (fun k => booting k && (k.rd (F.BLK_SCRATCH_off 3)).toNat / 2 ^ 24 == 0xB0 &&
      (k.rd (F.BLK_SCRATCH_off 1)).toNat / 2 ^ 16 == 14336 && (k.rd (F.BLK_SCRATCH_off 3)).toNat / 2 ^ 16 % 2 ^ 8 == 6) ∧
    at1 (bootBlk 0 0 [(31, oneLine 0)] []) (fun k => booting k && k.moverRuns 31 && (k.gotOf (.boot 31 0)).isNone) ∧
    at1 (bootBlk 0 0 [(31, oneLine 0)] [(.boot 31 0, .bad 1)]) (fun k => k.gotOf (.boot 31 0) == some (.bad 1) && goodLine (.bad 1) == Option.none) ∧
    at1 (bootBlk 0 0 [(31, oneLine (crc32c (bytesLE 64 (0 : Line))))] [(.boot 31 0, .line 0 0)]) (fun k => k.gotOf (.boot 31 0) == some (.line 0 0) &&
      goodLine (.line 0 0) == some 0 && booting k && k.moverRuns 31) := by
  and_intros <;> decide +kernel

theorem witness_StepRunsTheFront : State.reset.pending = [] ∧ (stateOf Blk.reset).pending = [] := by decide
theorem witness_MemoryStaysCanonical : Memory.wf (zState mCtx).mem = true ∧ Memory.wf [(0x1E, 0xCD), (0x1F, 0xAB)] = true ∧
    (match step State.reset with | .next t => t.blk.now == 1 | _ => false) = true := by and_intros <;> decide +kernel

theorem witness_WindowAccess :
    -- a refused write: a closed path, and a page that another requester holds
    (blkWith [(F.BLK_CTRL_MBXWR, 0)]).pathClosed .mailbox = true ∧ (blkWith [(F.BLK_CTRL_I3CWR, 0)]).pathClosed .i3c = true ∧ Blk.reset.pathClosed .mailbox = false ∧
    writeOf (.tbEnable .mailbox 1) = some (.mailbox, F.SC_TB_CTRL_off, 1) ∧ (pageOf F.SC_TB_CTRL_off).isSome = true ∧ Blk.reset.phase = .running ∧
    (let p := (pageOf F.SC_TB_CTRL_off).getD ⟨.blk, 0, 0, 0⟩
     p.kind ≠ .segTable ∧ p.kind ≠ .slotTable ∧ p.kind ≠ .patchWin ∧ p.base ≠ 0 ∧
     (blkWith [(F.PAGE_LOCK_KIND p.base, 1), (F.PAGE_LOCK_ID p.base, 31)]).lockedOut .mailbox p.base = true) ∧
    (writeOf (.segmentTableWrite .mailbox 1023 3 0)).isSome = true ∧
    -- registers of the kinds named
    ([F.BLK_SCRATCH_off 0, F.CS_PATCH_LEN_off].all fun o => (regRow o).isSome && (pageOf o).any (fun p => decide (0x20 ≤ o - p.base) &&
      (p.kind == .blk || p.kind == .cs)) && Blk.reset.takes .mailbox o) = true ∧
    (regRow F.SC_TB_STAT_off).isSome = true ∧ ((pageOf 0x1FFFFC).isNone) = true ∧ (0x1FFFFC : Nat) % 4 = 0 := by
  and_intros <;> decide +kernel

end Sys2Proof.Tests
end

section
/-! SUPPORT. Proofs about the field and bit instructions of R308 and the CRC folds of R314. -/

namespace Sys2Proof.Machine

/-! ### Results with the flags of code L -/

theorem signBit_toNat {w : Nat} (x : BitVec w) : signBit w x.toNat = x.msb := by
  rw [BitVec.msb_eq_getLsbD_last, ← BitVec.testBit_toNat, Nat.testBit_eq_decide_div_mod_eq]
  rfl

theorem signBit_iff_le {w r : Nat} (hr : r < 2 ^ w) : signBit w r = true ↔ 2 ^ (w - 1) ≤ r := by
  have h := signBit_toNat (BitVec.ofNat w r)
  rw [BitVec.msb_eq_decide, BitVec.toNat_ofNat, Nat.mod_eq_of_lt hr] at h
  rw [h, decide_eq_true_iff]

theorem logicFlags_holds {w r : Nat} (hr : r < 2 ^ w) (old : Nzcv) : LogicFlags w r old (logicFlags w r old) :=
  ⟨⟨signBit_iff_le hr, beq_iff_eq⟩, rfl, rfl⟩

/-- An instruction whose result, of one word or two, is computed from the operands before and sets the flags of code L (R296). -/
theorem logicResult_runs {s : State} {c : CtxRef} {f : ZFmt} {regs : ZRegs} (h : s.runs c (fmtLen f) true regs = true) (cyc d : Nat) {m : Nat}
    (hm : m = 1 ∨ m = 2) (op : (Nat → Nat → Nat) → Nat) (hlt : op (s.ctxOf c).val < 2 ^ (16 * m)) :
    ∃ t, s.pure c f true true regs cyc (fun k => (k.put d m (op k.val)).setFlags (logicFlags (16 * m) (op k.val) k.flags)) = .next t ∧
      (t.ctxOf c).val d m = op (s.ctxOf c).val ∧ LogicFlags (16 * m) (op (s.ctxOf c).val) (s.ctxOf c).flags (t.ctxOf c).flags ∧
      s.Retires t c (fmtLen f) cyc (regsOf d m) := by
  obtain ⟨y, t, ht, hy, hval, hfl, hret⟩ := pure_runs h cyc
    (fun k => (k.put d m (op k.val)).setFlags (logicFlags (16 * m) (op k.val) k.flags))
    fun k => (k.writes_put d m _).trans (Ctx.writes_setFlags _ _ _)
  obtain ⟨_, _, hyfl, hyval, _⟩ := hy.same
  have hv : y.val = (s.ctxOf c).val := funext fun r => funext (hyval r)
  rw [hv, hyfl] at hval hfl
  refine ⟨t, ht, ?_, ?_, hret⟩
  · rw [hval, Ctx.val_setFlags, Ctx.val_put _ _ (by omega) hlt]
  · rw [hfl, Ctx.flags_setFlags]
    exact logicFlags_holds hlt _

theorem regsOf_one {r : Nat} (hr : r < 32) : regsOf r 1 = [r] := by
  simp [regsOf, Nat.mod_eq_of_lt hr]

/-! ### Fields -/

/-- A field instruction on `n` words, where it can execute, gives what its operation makes of the operands before. -/
theorem field_gives {i : Instr} {s : State} {c : CtxRef} {minor fn : BitVec 6} {ra rb p : BitVec 5} {n : Nat} {ins : Bool}
    {op : (w p wd old b : Nat) → Nat} {x : BitVec (16 * n)} (hi : exec i s = s.field c (.lrrr minor ra false rb p fn) minor n ins op)
    (hn : n = 1 ∨ n = 2) (hfn : fn.toNat < 32) (hp : p.toNat + (fn.toNat + 1) ≤ 16 * n)
    (hx : op (16 * n) p.toNat (fn.toNat + 1) ((s.ctxOf c).val ra.toNat n) ((s.ctxOf c).val rb.toNat n) = x.toNat) :
    Gives i s c 2 1 ⟨(rb.toNat, n) :: (if ins then [(ra.toNat, n)] else []), [(ra.toNat, n)]⟩ (regsOf ra.toNat n)
      (fun t => (t.ctxOf c).val ra.toNat n = x.toNat) (LogicFlags (16 * n) x.toNat) := by
  intro hrun
  obtain ⟨t, ht, hval, hfl, hret⟩ := logicResult_runs (f := .lrrr minor ra false rb p fn) hrun 1 ra.toNat hn
    (fun v => op (16 * n) p.toNat (fn.toNat + 1) (v ra.toNat n) (v rb.toNat n)) (hx ▸ x.isLt)
  have hlegal : ¬ (32 ≤ fn.toNat ∨ 16 * n < p.toNat + (fn.toNat % 32 + 1)) := by omega
  refine ⟨t, ?_, hval.trans hx, hx ▸ hfl, hret⟩
  simp only [hi, State.field, rrrOf, and_self, if_true, if_neg hlegal]
  rw [Nat.mod_eq_of_lt hfn]
  exact ht

theorem fldExt_eq {w p wd b : Nat} (old : Nat) (hb : b < 2 ^ w) (hw : p + wd ≤ w) :
    fldExt w p wd old b = (((BitVec.ofNat w b).extractLsb' p wd).setWidth w).toNat := by
  have hlt : b / 2 ^ p % 2 ^ wd < 2 ^ w := Nat.lt_of_lt_of_le (Nat.mod_lt _ (Nat.two_pow_pos _)) (Nat.pow_le_pow_right (by decide) (by omega))
  rw [BitVec.toNat_setWidth, BitVec.extractLsb'_toNat, BitVec.toNat_ofNat, Nat.mod_eq_of_lt hb, Nat.shiftRight_eq_div_pow, Nat.mod_eq_of_lt hlt]
  rfl

/-- Sign extension of the model is that of bit vectors. -/
theorem sextTo_toNat {w v : Nat} (x : BitVec w) (hv : w ≤ v) : sextTo w v x.toNat = (x.signExtend v).toNat := by
  rw [sextTo, signBit_toNat x, BitVec.toNat_signExtend, BitVec.toNat_setWidth_of_le hv]
  split <;> rfl

theorem fldExts_eq {w p wd b : Nat} (old : Nat) (hb : b < 2 ^ w) (hw : p + wd ≤ w) :
    fldExts w p wd old b = (((BitVec.ofNat w b).extractLsb' p wd).signExtend w).toNat := by
  rw [← sextTo_toNat _ (by omega), BitVec.extractLsb'_toNat, BitVec.toNat_ofNat, Nat.mod_eq_of_lt hb, Nat.shiftRight_eq_div_pow]
  rfl

/-- An insertion keeps the bits above and below the field. -/
theorem fldIns_split (w p wd old b : Nat) :
    fldIns w p wd old b = 2 ^ p * (2 ^ wd * (old / 2 ^ p / 2 ^ wd) + b % 2 ^ wd) + old % 2 ^ p := by
  have h1 := Nat.div_add_mod old (2 ^ p)
  have h2 := Nat.div_add_mod (old / 2 ^ p) (2 ^ wd)
  have hold : old = 2 ^ p * (2 ^ wd * (old / 2 ^ p / 2 ^ wd)) + (old / 2 ^ p % 2 ^ wd) * 2 ^ p + old % 2 ^ p := by
    rw [Nat.mul_comm (_ % _), ← Nat.mul_add, h2, h1]
  have hsub : old - (old / 2 ^ p % 2 ^ wd) * 2 ^ p = 2 ^ p * (2 ^ wd * (old / 2 ^ p / 2 ^ wd)) + old % 2 ^ p := by omega
  rw [fldIns, hsub, Nat.mul_add, Nat.mul_comm (b % _)]
  omega

theorem testBit_fldIns (w p wd old b i : Nat) :
    (fldIns w p wd old b).testBit i = if p ≤ i ∧ i < p + wd then b.testBit (i - p) else old.testBit i := by
  rw [fldIns_split, Nat.testBit_two_pow_mul_add _ (Nat.mod_lt _ (Nat.two_pow_pos _)),
    Nat.testBit_two_pow_mul_add _ (Nat.mod_lt _ (Nat.two_pow_pos _))]
  by_cases hlo : i < p
  · rw [if_pos hlo, if_neg (by omega), Nat.testBit_mod_two_pow, decide_eq_true hlo, Bool.true_and]
  · by_cases hin : i - p < wd
    · rw [if_neg hlo, if_pos hin, if_pos (by omega), Nat.testBit_mod_two_pow, decide_eq_true hin, Bool.true_and]
    · rw [if_neg hlo, if_neg hin, if_neg (by omega), Nat.testBit_div_two_pow, Nat.testBit_div_two_pow]
      congr 1; omega

theorem fldIns_eq {w p wd old b : Nat} (ho : old < 2 ^ w) (hw : p + wd ≤ w) :
    let mask := (BitVec.allOnes wd).setWidth w <<< p
    fldIns w p wd old b = ((BitVec.ofNat w old &&& ~~~ mask) ||| ((BitVec.ofNat w b <<< p) &&& mask)).toNat := by
  refine Nat.eq_of_testBit_eq fun i => ?_
  rw [testBit_fldIns, BitVec.testBit_toNat]
  simp only [BitVec.getLsbD_or, BitVec.getLsbD_and, BitVec.getLsbD_not, BitVec.getLsbD_shiftLeft, BitVec.getLsbD_ofNat, BitVec.getLsbD_setWidth,
    BitVec.getLsbD_allOnes]
  by_cases hi : i < w
  · by_cases hin : p ≤ i ∧ i < p + wd
    · have h1 : ¬ i < p := by omega
      have h2 : i - p < wd := by omega
      have h3 : i - p < w := by omega
      simp [hin, hi, h1, h2, h3]
    · by_cases hlo : i < p
      · simp [hin, hi, hlo]
      · have h2 : ¬ i - p < wd := by omega
        simp [hin, hi, hlo, h2]
  · have hout : ¬ (p ≤ i ∧ i < p + wd) := by omega
    have htop : old.testBit i = false := Nat.testBit_lt_two_pow (Nat.lt_of_lt_of_le ho (Nat.pow_le_pow_right (by decide) (by omega)))
    simp [hout, hi, htop]

/-! ### Bits -/

/-- A bit instruction on `n` words, where it can execute, gives what its operation makes of the operand before. -/
theorem bitOp_yields {i : Instr} {s : State} {c : CtxRef} {minor : BitVec 6} {ra rb : BitVec 5} {n m : Nat} {wide : Bool} {cyc : Nat → Nat}
    {op : (w b : Nat) → Nat} {post : State → Prop}
    (hi : exec i s = s.bitOp c (.lrrr minor ra false rb 0 (BitVec.ofNat 6 (n - 1))) minor wide cyc op)
    (hn : n = 1 ∨ n = 2) (hm : m = if wide then n else 1) (hlt : op (16 * n) ((s.ctxOf c).val rb.toNat n) < 2 ^ (16 * m))
    (hpost : ∀ t : State, (t.ctxOf c).val ra.toNat m = op (16 * n) ((s.ctxOf c).val rb.toNat n) →
      LogicFlags (16 * m) ((t.ctxOf c).val ra.toNat m) (s.ctxOf c).flags (t.ctxOf c).flags → post t) :
    Yields i s c 2 (cyc n) ⟨[(rb.toNat, n)], [(ra.toNat, m)]⟩ (regsOf ra.toNat m) post := by
  intro hrun
  have hm2 : m = 1 ∨ m = 2 := by subst hm; split <;> omega
  obtain ⟨t, ht, hval, hfl, hret⟩ := logicResult_runs (f := .lrrr minor ra false rb 0 (BitVec.ofNat 6 (n - 1))) hrun (cyc n) ra.toNat hm2
    (fun v => op (16 * n) (v rb.toNat n)) hlt
  have hfn : (BitVec.ofNat 6 (n - 1)).toNat = n - 1 := by rw [BitVec.toNat_ofNat]; omega
  have hlegal : ¬ ((0 : BitVec 5).toNat ≠ 0 ∨ 2 ≤ n - 1) := by have h0 : (0 : BitVec 5).toNat = 0 := rfl; omega
  refine ⟨t, ?_, hpost t hval (hval ▸ hfl), trivial, hret⟩
  simp only [hi, State.bitOp, rrrOf, and_self, if_true, hfn, if_neg hlegal]
  rw [Nat.sub_add_cancel (by omega), ← hm]
  exact ht

/-- The fold of `parity` counts the set bits at the places of a list modulo 2. -/
theorem parity_fold (a : Nat) (l : List Nat) (r : Nat) :
    l.foldl (fun r i => (r + a / 2 ^ i % 2) % 2) (r % 2) = (r + (l.filter a.testBit).length) % 2 := by
  induction l generalizing r with
  | nil => simp
  | cons i l ih =>
    rw [List.foldl_cons, Nat.mod_add_mod, ih, ← Nat.toNat_testBit, List.filter_cons]
    cases a.testBit i with
    | false => simp
    | true => simp [Nat.add_comm, Nat.add_left_comm]

theorem parity_eq (w a : Nat) : parity w a = ((List.range w).filter a.testBit).length % 2 := by
  simpa [parity] using parity_fold a (List.range w) 0

theorem revBits_succ (w a : Nat) : revBits (w + 1) a = 2 * revBits w a + a / 2 ^ w % 2 := by
  simp [revBits, List.range_succ]

theorem revBits_lt (w a : Nat) : revBits w a < 2 ^ w := by
  induction w with
  | zero => exact Nat.one_pos
  | succ w ih => rw [revBits_succ, Nat.pow_succ]; omega

theorem testBit_revBits {w i : Nat} (a : Nat) (hi : i < w) : (revBits w a).testBit i = a.testBit (w - 1 - i) := by
  induction w generalizing i with
  | zero => omega
  | succ w ih =>
    rw [revBits_succ]
    cases i with
    | zero => rw [Nat.testBit_zero, Nat.mul_add_mod, Nat.mod_mod, Nat.add_sub_cancel, Nat.sub_zero, Nat.testBit_eq_decide_div_mod_eq]
    | succ i =>
      rw [Nat.testBit_succ, show (2 * revBits w a + a / 2 ^ w % 2) / 2 = revBits w a by omega, ih (by omega)]
      congr 1; omega

theorem leadZeros_le (w a : Nat) : leadZeros w a ≤ w := by
  unfold leadZeros
  split <;> omega

theorem testBit_of_leadZeros_le {w a i : Nat} (hi : w - leadZeros w a ≤ i) (hw : i < w) : a.testBit i = false := by
  unfold leadZeros at hi
  split at hi
  next h0 => rw [h0, Nat.zero_testBit]
  next h0 => exact Nat.testBit_lt_two_pow ((Nat.log2_lt h0).1 (by omega))

theorem testBit_below_leadZeros {w a : Nat} (ha : a < 2 ^ w) (h : leadZeros w a < w) : a.testBit (w - 1 - leadZeros w a) = true := by
  unfold leadZeros at h ⊢
  split at h
  next => omega
  next h0 =>
    have hlog := (Nat.log2_lt h0).2 ha
    rw [if_neg h0, show w - 1 - (w - 1 - a.log2) = a.log2 by omega]
    exact Nat.testBit_log2 h0

/-! ### CRC folds (R314) -/

theorem toNat_and_crcMask {w : Nat} (hw : w ≤ 32) (x : BitVec 32) : (x &&& crcMask w).toNat = x.toNat % 2 ^ w := by
  have hpow : 2 ^ w ≤ 2 ^ 32 := Nat.pow_le_pow_right (by decide) hw
  have hpos := Nat.two_pow_pos w
  rw [crcMask, BitVec.toNat_and, BitVec.toNat_ofNat, Nat.mod_eq_of_lt (by omega), Nat.and_two_pow_sub_one_eq_mod]

/-- One bit of a fold, in either order, is that of R314 on numbers. -/
theorem toNat_crcBitMsb {c : CrcPoly} (hw : c.w ≤ 32) (rev : Nat) (st : BitVec 32) (d : Bool) :
    (crcBitMsb c st d).toNat = foldBit c.w c.poly.toNat rev true st.toNat d := by
  have hshift : ((st <<< 1) &&& crcMask c.w).toNat = st.toNat * 2 % 2 ^ c.w := by
    rw [toNat_and_crcMask hw, BitVec.toNat_shiftLeft, Nat.shiftLeft_eq, Nat.pow_one, Nat.mod_mod_of_dvd _ (Nat.pow_dvd_pow 2 hw)]
  unfold crcBitMsb foldBit
  simp only [if_true, ← BitVec.testBit_toNat]
  split
  · rw [BitVec.toNat_xor, hshift]
  · exact hshift
@[inherit_doc toNat_crcBitMsb] theorem toNat_crcBitLsb (c : CrcPoly) (poly : Nat) (st : BitVec 32) (d : Bool) :
    (crcBitLsb c st d).toNat = foldBit c.w poly (reverseLow c.w c.poly).toNat false st.toNat d := by
  unfold crcBitLsb foldBit
  simp only [Bool.false_eq_true, if_false, ← BitVec.testBit_toNat]
  split
  · rw [BitVec.toNat_xor, BitVec.toNat_ushiftRight, Nat.shiftRight_eq_div_pow, Nat.pow_one]
  · rw [BitVec.toNat_ushiftRight, Nat.shiftRight_eq_div_pow, Nat.pow_one]

/-- A fold over bits on words is the fold on numbers that agrees with it on every bit. -/
theorem toNat_foldl {f : BitVec 32 → Bool → BitVec 32} {g : Nat → Bool → Nat} (h : ∀ st d, (f st d).toNat = g st.toNat d) (d : Byte)
    (l : List Nat) (st : BitVec 32) :
    (l.foldl (fun a i => f a (d.getLsbD i)) st).toNat = l.foldl (fun a i => g a (d.toNat.testBit i)) st.toNat := by
  induction l generalizing st with
  | nil => rfl
  | cons i l ih => rw [List.foldl_cons, List.foldl_cons, ih, h, BitVec.testBit_toNat]

theorem toNat_crcByte {c : CrcPoly} (hw : c.w ≤ 32) (st : BitVec 32) (d : Byte) :
    (crcByte c st d).toNat = foldByte c.w c.poly.toNat (reverseLow c.w c.poly).toNat c.msb (st.toNat % 2 ^ c.w) d.toNat := by
  unfold crcByte foldByte
  cases c.msb with
  | true => simp only [if_true]; rw [toNat_foldl (toNat_crcBitMsb hw _), toNat_and_crcMask hw]
  | false => simp only [Bool.false_eq_true, if_false]; rw [toNat_foldl (toNat_crcBitLsb c c.poly.toNat), toNat_and_crcMask hw]

theorem foldBit_lt {w poly rev st : Nat} (msb d : Bool) (hp : poly < 2 ^ w) (hr : rev < 2 ^ w) (hs : st < 2 ^ w) :
    foldBit w poly rev msb st d < 2 ^ w := by
  have hleft : st * 2 % 2 ^ w < 2 ^ w := Nat.mod_lt _ (Nat.two_pow_pos _)
  have hright : st / 2 < 2 ^ w := by omega
  unfold foldBit
  cases msb with
  | true =>
    simp only [if_true]
    split
    · exact Nat.xor_lt_two_pow hleft hp
    · exact hleft
  | false =>
    simp only [Bool.false_eq_true, if_false]
    split
    · exact Nat.xor_lt_two_pow hright hr
    · exact hright

/-- A fold of a byte keeps the state within its width. -/
theorem foldByte_lt {w poly rev st : Nat} (msb : Bool) (d : Nat) (hp : poly < 2 ^ w) (hr : rev < 2 ^ w) (hs : st < 2 ^ w) :
    foldByte w poly rev msb st d < 2 ^ w := by
  unfold foldByte
  generalize (if msb then _ else _ : List Nat) = l
  induction l generalizing st with
  | nil => exact hs
  | cons i l ih => exact ih (foldBit_lt msb _ hp hr hs)

/-- The polynomials of the model are the rows of R313, each with its reversal. -/
theorem polyOf_eq {p : Nat} (hp : p < 8) : polyOf p =
    ((crcPoly p).w, (crcPoly p).poly.toNat, (reverseLow (crcPoly p).w (crcPoly p).poly).toNat, (crcPoly p).msb) := by
  revert p; decide

theorem crcPoly_bounds {p : Nat} (hp : p < 8) : (crcPoly p).w ≤ 32 ∧ (crcPoly p).poly.toNat < 2 ^ (crcPoly p).w ∧
    (reverseLow (crcPoly p).w (crcPoly p).poly).toNat < 2 ^ (crcPoly p).w := by
  revert p; decide

/-- The fold of CRCW is that of R314. -/
theorem crcFold_eq {p st : Nat} (hp : p < 8) (hst : st < 2 ^ 32) (x : Half) (one : Bool) : crcFold p st x one = foldWord p st x.toNat one := by
  obtain ⟨hw, hpoly, hrev⟩ := crcPoly_bounds hp
  have hlow : (x.setWidth 8).toNat = x.toNat % 256 := BitVec.toNat_setWidth 8 x
  have hhigh : (x.extractLsb' 8 8).toNat = x.toNat / 256 := by
    have := x.isLt
    rw [BitVec.extractLsb'_toNat, Nat.shiftRight_eq_div_pow]; omega
  have hfirst : ∀ d : Byte, (crcByte (crcPoly p) (BitVec.ofNat 32 st &&& crcMask (crcPoly p).w) d).toNat =
      foldByte (crcPoly p).w (crcPoly p).poly.toNat (reverseLow (crcPoly p).w (crcPoly p).poly).toNat (crcPoly p).msb (st % 2 ^ (crcPoly p).w)
        d.toNat := by
    intro d
    rw [toNat_crcByte hw, toNat_and_crcMask hw, BitVec.toNat_ofNat, Nat.mod_eq_of_lt hst, Nat.mod_mod]
  unfold crcFold foldWord
  rw [polyOf_eq hp]
  cases one with
  | true => simp only [crcBytes, if_true, List.foldl_cons, List.foldl_nil]; rw [hfirst, hlow]
  | false =>
    simp only [crcBytes, Bool.false_eq_true, if_false, List.foldl_cons, List.foldl_nil]
    rw [toNat_crcByte hw, hfirst, hlow, hhigh,
      Nat.mod_eq_of_lt (foldByte_lt _ _ hpoly hrev (Nat.mod_lt _ (Nat.two_pow_pos _)))]

theorem crcFold_lt (p st : Nat) (x : Half) (one : Bool) : crcFold p st x one < 2 ^ 32 := BitVec.isLt _

theorem Ctx.val_one (x : Ctx) (r : Nat) : x.val r 1 = (x.gr r).toNat := by
  simp [Ctx.val, regsOf]

theorem crcw_gives {s : State} {c : CtxRef} {ra rb : BitVec 5} {p : Nat} (one : Bool) (hp : p < 8) :
    Gives (.zCrcw c (.lrrr 0x08 ra false rb 0 (BitVec.ofNat 6 (p + 8 * one.toNat)))) s c 2 1 ⟨[(rb.toNat, 1), (ra.toNat, 2)], [(ra.toNat, 2)]⟩
      (regsOf ra.toNat 2)
      (fun t => (t.ctxOf c).val ra.toNat 2 = foldWord p ((s.ctxOf c).val ra.toNat 2) ((s.ctxOf c).val rb.toNat 1) one)
      fun old new => new = old := by
  intro hrun
  have hone := one.toNat_le
  have hfn : (BitVec.ofNat 6 (p + 8 * one.toNat)).toNat = p + 8 * one.toNat := by rw [BitVec.toNat_ofNat]; omega
  have hlegal : ¬ ((0 : BitVec 5).toNat ≠ 0 ∨ 16 ≤ p + 8 * one.toNat) := by have h0 : (0 : BitVec 5).toNat = 0 := rfl; omega
  have hpoly : (p + 8 * one.toNat) % 8 = p := by omega
  have hlow : decide (8 ≤ p + 8 * one.toNat) = one := by cases one <;> simp [hp]
  obtain ⟨y, t, ht, hy, hval, hfl, hret⟩ := pure_runs (f := .lrrr 0x08 ra false rb 0 (BitVec.ofNat 6 (p + 8 * one.toNat))) hrun 1
    (fun k => k.put ra.toNat 2 (crcFold p (k.val ra.toNat 2) (k.gr rb.toNat) one)) fun k => k.writes_put _ _ _
  obtain ⟨_, _, hyfl, hyval, _⟩ := hy.same
  refine ⟨t, ?_, ?_, ?_, hret⟩
  · simp only [exec_zCrcw, execZCrcw, rrrOf, and_self, if_true, hfn, if_neg hlegal, hpoly, hlow]
    exact ht
  · dsimp only
    rw [hval, Ctx.val_put _ _ (by decide) (crcFold_lt _ _ _ _), crcFold_eq hp (y.val_lt _), ← Ctx.val_one, hyval, hyval]
  · rw [hfl, Ctx.flags_put, hyfl]

/-- Settles O6. Each instruction is the shared form of its kind (`field_gives`, `bitOp_yields`, `crcw_gives`) with the lemma that reads its operation as
the spec does: R308 for fields and bits, R314 for the folds. -/
theorem fieldsAndBits : Obligations.FieldsAndBits := by
  unfold Obligations.FieldsAndBits
  refine ⟨fun s c ra rb p fn n hn hfn hp => ?_, fun s c ra rb n hn => ?_, fun s c ra rb p one hp => crcw_gives one hp⟩
  · have hold : (s.ctxOf c).val ra.toNat n < 2 ^ (16 * n) := Ctx.val_lt _ _
    have hb : (s.ctxOf c).val rb.toNat n < 2 ^ (16 * n) := Ctx.val_lt _ _
    have hext := fldExt_eq ((s.ctxOf c).val ra.toNat n) hb hp
    have hexts := fldExts_eq ((s.ctxOf c).val ra.toNat n) hb hp
    have hins := fldIns_eq (b := (s.ctxOf c).val rb.toNat n) hold hp
    refine ⟨fun h1 => ?_, fun h2 => ?_⟩
    · subst h1
      exact ⟨field_gives (exec_zExt s) hn hfn hp hext, field_gives (exec_zExts s) hn hfn hp hexts, field_gives (exec_zIns s) hn hfn hp hins⟩
    · subst h2
      exact ⟨field_gives (exec_zExtp s) hn hfn hp hext, field_gives (exec_zExtsp s) hn hfn hp hexts, field_gives (exec_zInsp s) hn hfn hp hins⟩
  · have hb : (s.ctxOf c).val rb.toNat n < 2 ^ (16 * n) := Ctx.val_lt _ _
    have hdst := regsOf_one ra.isLt
    refine ⟨?_, ?_, ?_⟩
    · rw [← hdst]
      refine bitOp_yields (exec_zParw s) hn rfl ?_ fun t hr hfl => ⟨?_, hfl⟩
      · rw [parity_eq]; omega
      · rw [hr, parity_eq]
    · refine bitOp_yields (exec_zBrev s) hn rfl (revBits_lt _ _) fun t hr hfl => ⟨fun i hi => ?_, hfl⟩
      rw [hr, testBit_revBits _ hi]
    · rw [← hdst]
      refine bitOp_yields (exec_zClz s) hn rfl ?_ fun t hr hfl => ?_
      · have := leadZeros_le (16 * n) ((s.ctxOf c).val rb.toNat n)
        omega
      · simp only [hr] at hfl ⊢
        exact ⟨leadZeros_le _ _, fun i => testBit_of_leadZeros_le, testBit_below_leadZeros hb, hfl⟩

end Sys2Proof.Machine
end

section
/-! SUPPORT. What the raise of an event source leaves (R425, R426, R428, R523 to R525), and the writes of the control window that reach their
register (R527, R531). -/

namespace Sys2Proof.Machine

/-! ### Fields as numbers -/

theorem Fld.get_eq {f : Fld} (hw : f.w ≤ 32) (v : Word) : f.get v = v.toNat / 2 ^ f.lo % 2 ^ f.w := by
  have hp : 2 ^ f.w ≤ 2 ^ 32 := Nat.pow_le_pow_right (by decide) hw
  have hm : 2 ^ f.w - 1 < 2 ^ 32 := by have := Nat.two_pow_pos f.w; omega
  rw [Fld.get, lowMask, BitVec.toNat_and, BitVec.toNat_ushiftRight, BitVec.toNat_ofNat, Nat.mod_eq_of_lt hm, Nat.and_two_pow_sub_one_eq_mod,
    Nat.shiftRight_eq_div_pow]

theorem Fld.get_bit (off i : Nat) (v : Word) : Fld.get ⟨off, i, 1⟩ v = (v.getLsbD i).toNat := by
  rw [Fld.get_eq (Nat.le_of_ble_eq_true rfl), BitVec.getLsbD, Nat.toNat_testBit, Nat.pow_one]

theorem Blk.fld_bit (s : Blk) (off i : Nat) : s.fld ⟨off, i, 1⟩ = (s.rbit off i).toNat := Fld.get_bit off i _

theorem Blk.bit_eq_rbit (s : Blk) (off i : Nat) : s.bit ⟨off, i, 1⟩ = s.rbit off i := by
  rw [Blk.bit_eq, Blk.fld_bit]; cases s.rbit off i <;> rfl

theorem Fld.put_word (off n : Nat) (v : Word) : Fld.put ⟨off, 0, 32⟩ v n = BitVec.ofNat 32 n := by
  have h : lowMask 32 = BitVec.allOnes 32 := by decide
  simp only [Fld.put, h, BitVec.shiftLeft_zero, BitVec.and_allOnes, BitVec.not_allOnes, BitVec.and_zero, BitVec.zero_or]

/-! ### Updates of a field by hardware -/

theorem Blk.fld_hw2 (s : Blk) {f : Fld} {n : Nat} (m : Nat) (hw : f.lo + f.w ≤ 32) (hn : n < 2 ^ f.w) : (s.hw2 f n m).fld f = n :=
  (congrArg f.get (s.rd_hwPut _ _ _)).trans (Fld.get_put _ hw hn)

theorem Blk.fld_hw2_ne (s : Blk) {f g : Fld} (n m : Nat) (h : g.off ≠ f.off ∨ g.lo + g.w ≤ f.lo ∨ f.lo + f.w ≤ g.lo) :
    (s.hw2 f n m).fld g = s.fld g := s.fld_setFld_ne n h

/-! ### What a raise may change -/

theorem Blk.alikeButRegs.trans {s t u : Blk} (h : s.alikeButRegs t) (g : t.alikeButRegs u) : s.alikeButRegs u := by
  unfold Blk.alikeButRegs at *
  calc { u with regs := s.regs, ev := s.ev, fresh := s.fresh }
    _ = { ({ u with regs := t.regs, ev := t.ev, fresh := t.fresh } : Blk) with regs := s.regs, ev := s.ev, fresh := s.fresh } := rfl
    _ = s := by rw [g, h]

/-- Nothing changes but the registers listed, the record of the cycle and the Event Controller's own state. -/
def Blk.touches (s t : Blk) (l : List Nat) : Prop := s.keepsRegs t l ∧ s.alikeButRegs t

theorem Blk.touches_refl (s : Blk) (l : List Nat) : s.touches s l := ⟨fun _ _ => rfl, rfl⟩

theorem Blk.touches.trans {s t u : Blk} {l : List Nat} (h : s.touches t l) (g : t.touches u l) : s.touches u l :=
  ⟨fun o ho => (g.1 o ho).trans (h.1 o ho), h.2.trans g.2⟩

theorem Blk.touches.mono {s t : Blk} {l m : List Nat} (h : s.touches t l) (hl : l ⊆ m) : s.touches t m :=
  ⟨fun o ho => h.1 o fun hm => ho (hl hm), h.2⟩

theorem Blk.touches.hw2 {s t : Blk} {l : List Nat} (h : s.touches t l) {f : Fld} (n m : Nat) (hf : f.off ∈ l) : s.touches (t.hw2 f n m) l :=
  h.trans ⟨fun _ ho => t.rd_hwPut_ne _ _ fun e => ho (e ▸ hf), rfl⟩

theorem Blk.touches.hwSet {s t : Blk} {l : List Nat} (h : s.touches t l) (f : Fld) (hf : f.off ∈ l) : s.touches (t.hwSet f) l := h.hw2 _ _ hf

theorem Blk.touches.setFld {s t : Blk} {l : List Nat} (h : s.touches t l) {f : Fld} (n : Nat) (hf : f.off ∈ l) : s.touches (t.setFld f n) l :=
  h.trans ⟨fun _ ho => t.rd_setFld_ne _ fun e => ho (e ▸ hf), rfl⟩

theorem Blk.touches.setEv {s t : Blk} {l : List Nat} (h : s.touches t l) (x : EvState) : s.touches { t with ev := x } l :=
  h.trans ⟨fun _ _ => rfl, rfl⟩

/-! ### The raise of a source -/

/-- A raise writes CODE: ERRLAST, or no code is held (R523). -/
def Blk.errPut (s : Blk) (page : Nat) : Bool := s.bit (F.PAGE_CTRL_ERRLAST page) || s.fld (F.ERR_CODE_CODE page) == 0

/-- A raise with an error code as updates by hardware: COUNT, then CODE and NOINFO, then ERR_INFO where nothing holds it (R523, R524). -/
theorem Blk.raiseErr_form (s : Blk) (page code info : Nat) : ∃ z n m,
    let t := ((s.bump (F.ERR_CODE_COUNT page)).hw2 (F.ERR_CODE_CODE page) (if s.errPut page then code else s.fld (F.ERR_CODE_CODE page)) z).hw2
      (F.ERR_CODE_NOINFO page) n m
    s.raiseErr page code info = if s.errPut page && !s.bit (F.PAGE_STAT_INFOHOLD page) then t.hw (F.ERR_INFO_INFO page) fun _ => info else t := by
  have hother : ∀ f : Fld, f.off ≠ page + 0x14 → (s.bump (F.ERR_CODE_COUNT page)).bit f = s.bit f := fun f hf => by
    rw [Blk.bit_eq, Blk.bit_eq, Blk.fld, Blk.fld, show (s.bump (F.ERR_CODE_COUNT page)).rd f.off = s.rd f.off from s.rd_hw_ne _ hf]
  have hcode : (s.bump (F.ERR_CODE_COUNT page)).fld (F.ERR_CODE_CODE page) = s.fld (F.ERR_CODE_CODE page) :=
    s.fld_hw2_ne (f := F.ERR_CODE_COUNT page) _ _ (.inr (.inl (by simp)))
  rw [Blk.errPut, ← hother (F.PAGE_CTRL_ERRLAST page) (by simp), ← hother (F.PAGE_STAT_INFOHOLD page) (by simp), ← hcode]
  exact ⟨_, _, _, rfl⟩

/-- It changes ERR_CODE and ERR_INFO of its page alone. -/
theorem Blk.touches.raiseErr {s t : Blk} {l : List Nat} (h : s.touches t l) (page code info : Nat) (hc : page + 0x14 ∈ l) (hi : page + 0x18 ∈ l) :
    s.touches (t.raiseErr page code info) l := by
  obtain ⟨z, n, m, hform⟩ := t.raiseErr_form page code info
  rw [hform]
  split
  · exact (((h.hw2 _ _ hc).hw2 _ _ hc).hw2 _ _ hc).hw2 _ _ hi
  · exact ((h.hw2 _ _ hc).hw2 _ _ hc).hw2 _ _ hc

/-- COUNT counts the raise. -/
theorem Blk.raiseErr_count (s : Blk) (page code info : Nat) :
    (s.raiseErr page code info).fld (F.ERR_CODE_COUNT page) = min 255 (s.fld (F.ERR_CODE_COUNT page) + 1) := by
  obtain ⟨z, n, m, h⟩ := s.raiseErr_form page code info
  have hcount : (s.bump (F.ERR_CODE_COUNT page)).fld (F.ERR_CODE_COUNT page) = min 255 (s.fld (F.ERR_CODE_COUNT page) + 1) := by
    rw [s.fld_bump 1 (by simp), Nat.min_comm]; rfl
  have hkeep : ∀ (b : Blk) (y : Nat), ((b.hw2 (F.ERR_CODE_CODE page) y z).hw2 (F.ERR_CODE_NOINFO page) n m).fld (F.ERR_CODE_COUNT page) =
      b.fld (F.ERR_CODE_COUNT page) := fun b y => by
    rw [Blk.fld_hw2_ne _ _ _ (.inr (.inr (by simp))), Blk.fld_hw2_ne _ _ _ (.inr (.inr (by simp)))]
  rw [h, ← hcount]
  split
  · exact (Blk.fld_hw2_ne _ _ _ (.inl (by simp))).trans (hkeep _ _)
  · exact hkeep _ _

/-- Where the raise writes CODE, it writes ERR_INFO too unless INFOHOLD holds it (R523, R524). -/
theorem Blk.raiseErr_code (s : Blk) (page info : Nat) {code : Nat} (hc : code < 256) (hput : s.errPut page = true) :
    (s.raiseErr page code info).fld (F.ERR_CODE_CODE page) = code ∧
      (s.bit (F.PAGE_STAT_INFOHOLD page) = false → (s.raiseErr page code info).rd (page + 0x18) = BitVec.ofNat 32 info) := by
  obtain ⟨z, n, m, h⟩ := s.raiseErr_form page code info
  rw [hput, if_pos rfl, Bool.true_and] at h
  have hnew : ∀ b : Blk, ((b.hw2 (F.ERR_CODE_CODE page) code z).hw2 (F.ERR_CODE_NOINFO page) n m).fld (F.ERR_CODE_CODE page) = code := fun b => by
    rw [Blk.fld_hw2_ne _ _ _ (.inr (.inl (by simp))), Blk.fld_hw2 _ _ (by simp) hc]
  rw [h]
  refine ⟨?_, fun hi => ?_⟩
  · split
    · exact (Blk.fld_hw2_ne _ _ _ (.inl (by simp))).trans (hnew _)
    · exact hnew _
  · rw [hi, Bool.not_false, if_pos rfl]
    exact (Blk.rd_hw _ (F.ERR_INFO_INFO page) _).trans (Fld.put_word _ _ _)

/-- The page's record of a raise, its error code, and EV_PEND (R425, R426, R523). -/
theorem Blk.touches.raiseCore {s t : Blk} {l : List Nat} (h : s.touches t l) (n : Nat) (err : Option (Nat × Nat))
    (hp : (srcPage n).1 + 0xC ∈ l) (hc : (srcPage n).1 + 0x14 ∈ l) (hi : (srcPage n).1 + 0x18 ∈ l) : s.touches (t.raiseCore n err) l := by
  have hpend := h.hwSet ⟨(srcPage n).1 + 0xC, n - (srcPage n).2, 1⟩ hp
  have hlater : ∀ u : Blk, s.touches u l →
      s.touches (if u.rbit ((srcPage n).1 + 0x10) (n - (srcPage n).2) then u else u.evLater false n) l := fun u hu => by
    split
    · exact hu
    · exact hu.setEv _
  cases err with
  | none => exact hlater _ hpend
  | some x => exact hlater _ (hpend.raiseErr _ _ _ hc hi)

/-- The registers that the storm guard writes when it masks a source (R428). -/
def stormRegs (n : Nat) : List Nat := [F.EV_STAT_off, F.EV_MASK_off (n / 32), 0x200C, 0x2014, 0x2018]

theorem Blk.touches.evMask {s t : Blk} {l : List Nat} (h : s.touches t l) (n : Nat) (hm : F.EV_MASK_off (n / 32) ∈ l) : s.touches (t.evMask n) l := by
  unfold Blk.evMask
  split
  · exact h.setEv _
  · exact (h.setFld _ hm).setEv _

/-- The storm guard's count changes nothing of a page (R428). -/
theorem Blk.raise_storm (s : Blk) (n : Nat) (err : Option (Nat × Nat)) : (s.raiseCore n err).touches (s.raise n err) (stormRegs n) := by
  have hstat : F.EV_STAT_off ∈ stormRegs n := by simp [stormRegs]
  have hmask : F.EV_MASK_off (n / 32) ∈ stormRegs n := by simp [stormRegs]
  unfold Blk.raise
  generalize s.raiseCore n err = c
  dsimp only
  split
  · exact ((((((c.touches_refl _).setEv _).evMask n hmask).hwSet _ hstat).setEv _).raiseCore 1 _ (by simp [stormRegs, srcPage])
      (by simp [stormRegs, srcPage]) (by simp [stormRegs, srcPage]))
  · exact (c.touches_refl _).setEv _

/-- The page of a source above the Event Controller's own lies below that page or above it and the mask's word. -/
theorem srcPage_apart {n : Nat} (hn : 2 ≤ n) : (srcPage n).1 = 0x1000 ∨ 0x3000 ≤ (srcPage n).1 ∧ 0x2060 + 4 * (n / 32) < (srcPage n).1 := by
  unfold srcPage
  repeat' split
  all_goals dsimp only; omega

theorem srcPage_notMem_stormRegs {n d : Nat} (hn : 2 ≤ n) (hd : d ≤ 0x18) : (srcPage n).1 + d ∉ stormRegs n := by
  have hpage := srcPage_apart hn
  simp only [stormRegs, F.EV_STAT_off, F.EV_MASK_off, List.mem_cons, List.not_mem_nil, or_false, not_or]
  omega

theorem srcPage_bit_lt (n : Nat) : n - (srcPage n).2 < 32 := by
  unfold srcPage
  repeat' split
  all_goals dsimp only; omega

theorem Blk.rd_raiseCore (s : Blk) (n code info o : Nat) : (s.raiseCore n (some (code, info))).rd o =
    ((s.hwBit ((srcPage n).1 + 0xC) (n - (srcPage n).2)).raiseErr (srcPage n).1 code info).rd o := by
  unfold Blk.raiseCore
  dsimp only
  split <;> rfl

/-- The record of a raise on its page: the source's bit of EVT_PEND, and ERR_CODE and ERR_INFO (R425, R523, R524). -/
theorem Blk.hwBit_raiseErr_records (s : Blk) (p info : Nat) {b code : Nat} (hb : b < 32) (hc : code < 256) :
    let t := (s.hwBit (p + 0xC) b).raiseErr p code info
    t.rbit (p + 0xC) b = true ∧ t.fld (F.ERR_CODE_COUNT p) = min 255 (s.fld (F.ERR_CODE_COUNT p) + 1) ∧
    ((s.bit (F.PAGE_CTRL_ERRLAST p) = true ∨ s.fld (F.ERR_CODE_CODE p) = 0) → t.fld (F.ERR_CODE_CODE p) = code ∧
      (s.bit (F.PAGE_STAT_INFOHOLD p) = false → t.rd (p + 0x18) = BitVec.ofNat 32 info)) := by
  have hrd : ∀ o, o ≠ p + 0xC → (s.hwBit (p + 0xC) b).rd o = s.rd o := fun o ho =>
    s.rd_hw_ne (f := ⟨p + 0xC, b, 1⟩) (fun _ => 1) ho
  have hset : (s.hwBit (p + 0xC) b).rbit (p + 0xC) b = true := by
    have h1 : (s.hwBit (p + 0xC) b).fld ⟨p + 0xC, b, 1⟩ = 1 :=
      s.fld_hwSet (f := ⟨p + 0xC, b, 1⟩) hb Nat.one_pos
    simpa [Blk.fld_bit] using h1
  have hput : (s.hwBit (p + 0xC) b).errPut p = s.errPut p := by simp [Blk.errPut, Blk.bit, Blk.fld, hrd]
  have hkeep := (((s.hwBit (p + 0xC) b).touches_refl [p + 0x14, p + 0x18]).raiseErr p code info (by simp) (by simp)).1 (p + 0xC) (by simp)
  refine ⟨?_, ?_, ?_⟩
  · rw [Blk.rbit, hkeep]; exact hset
  · rw [Blk.raiseErr_count, Blk.fld, hrd _ (by simp)]; rfl
  · intro hp
    have hcode := (s.hwBit (p + 0xC) b).raiseErr_code p info hc (hput.trans (by simpa [Blk.errPut] using hp))
    simpa [Blk.bit, Blk.fld, hrd] using hcode

/-- A source other than the Event Controller's own is raised with an error code (R425, R523, R524). -/
theorem Blk.raise_tells (s : Blk) {n code : Nat} (info : Nat) (hn : 2 ≤ n) (hc : code < 256) :
    s.tells (s.raise n (some (code, info))) n (some (code, info)) [] ∧ s.alikeButRegs (s.raise n (some (code, info))) := by
  obtain ⟨hkeep, hlike⟩ : s.touches (s.raise n (some (code, info))) (raiseRegs n) :=
    ((s.touches_refl _).raiseCore n _ (by simp [raiseRegs]) (by simp [raiseRegs]) (by simp [raiseRegs])).trans
      ((s.raise_storm n _).mono (by simp [stormRegs, raiseRegs]))
  have hafter : ∀ d, d ≤ 0x18 → (s.raise n (some (code, info))).rd ((srcPage n).1 + d) =
      ((s.hwBit ((srcPage n).1 + 0xC) (n - (srcPage n).2)).raiseErr (srcPage n).1 code info).rd ((srcPage n).1 + d) := fun d hd => by
    rw [(s.raise_storm n _).1 _ (srcPage_notMem_stormRegs hn hd), Blk.rd_raiseCore]
  obtain ⟨hpend, hrec⟩ := s.hwBit_raiseErr_records (srcPage n).1 info (srcPage_bit_lt n) hc
  refine ⟨⟨?_, ?_, by rwa [List.append_nil]⟩, hlike⟩
  · rw [Blk.rbit, hafter 0xC (by decide)]; exact hpend
  · simp only [Blk.fld, hafter 0x14 (by decide), hafter 0x18 (by decide)]
    exact hrec

/-- A write refused with a flag and a raise (R462, R465, R467, R468). -/
theorem Blk.hwSet_raise_tells (u : Blk) (f : Fld) {n code : Nat} (info : Nat) (hn : 2 ≤ n) (hc : code < 256) :
    (u.setFld f 1).tells ((u.hwSet f).raise n (some (code, info))) n (some (code, info)) [] ∧
      (u.setFld f 1).alikeButRegs ((u.hwSet f).raise n (some (code, info))) := by
  obtain ⟨htells, hlike⟩ := (u.hwSet f).raise_tells info hn hc
  generalize (u.hwSet f).raise n (some (code, info)) = t at htells hlike
  have hflag : (u.setFld f 1).alikeButRegs (u.hwSet f) := rfl
  exact ⟨htells, hflag.trans hlike⟩

/-! ### Writes of the control window -/

theorem Blk.rd_keepOld (s : Blk) (off o : Nat) : (s.keepOld off).rd o = s.rd o := by
  unfold Blk.keepOld
  split <;> rfl

theorem Blk.takes_iff (s : Blk) (req : Req) (off : Nat) : s.takes req off = true ↔
    s.phase = .running ∧ s.pathClosed req = false ∧ ∃ p, pageOf off = some p ∧
      (p.kind ≠ .segTable → p.kind ≠ .slotTable → p.kind ≠ .patchWin → s.lockedOut req p.base = false) := by
  unfold Blk.takes
  cases pageOf off with
  | none => simp
  | some p => cases hk : p.kind <;> simp [hk, and_assoc]

/-- A write that reaches its register acts on the block as it finds it (R520, R527, R531). -/
theorem Blk.gated_of_takes {s : Blk} {req : Req} {off : Nat} (h : s.takes req off = true) (f : Blk → Blk) :
    s.gated req off f = f (s.opened req off) := by
  obtain ⟨_, hpath, p, hp, hlock⟩ := (s.takes_iff req off).mp h
  have hopen : ({ s.keepOld off with winRsp := some ⟨req, 0, false⟩ } : Blk).lockedOut req p.base = s.lockedOut req p.base := by
    have hfld : ∀ g : Fld, ({ s.keepOld off with winRsp := some ⟨req, 0, false⟩ } : Blk).fld g = s.fld g := fun g =>
      congrArg g.get (s.rd_keepOld off g.off)
    simp only [Blk.lockedOut, hfld]
  unfold Blk.gated Blk.opened
  simp only [hpath, hp, hopen]
  cases hk : p.kind <;> simp_all

/-- A command whose arm is such a write performs it where it is taken. -/
theorem performs_of_gated {i : Instr} {s : State} {req : Req} {off : Nat} {f : Blk → Blk} {post : Blk → Blk → Prop}
    (hi : exec i s = s.reg fun b => b.gated req off f) (h : ∀ u, post u (f u)) : Performs i s req off post := by
  intro ht
  obtain ⟨hphase, _⟩ := (s.blk.takes_iff req off).mp ht
  refine ⟨{ s with blk := f (s.blk.opened req off) }, ?_, h _, rfl, rfl⟩
  rw [hi, State.reg, if_pos hphase, Blk.gated_of_takes ht]

/-- A word with the bits of a mask taken from another. -/
def mergeWord (m old v : Word) : Word := (old &&& ~~~m) ||| (v &&& m)

/-- A write of a register of RW fields alone (R8). -/
theorem Blk.plainWrite_of_row (s : Blk) {off : Nat} {r : RegRow} {m : Word} (v : Word) (h : regRow off = some r) (hm : BitVec.ofNat 32 r.rw = m)
    (hc : r.w1c = 0) (hs : r.w1s = 0) : s.plainWrite off v = s.wr off (mergeWord m (s.rd off) v) := by
  have hall : ∀ x : Word, x &&& ~~~(v &&& BitVec.ofNat 32 0) ||| (v &&& BitVec.ofNat 32 0) ||| (s.hwBits off &&& v &&& BitVec.ofNat 32 0) = x := fun x => by
    simp only [BitVec.and_zero, BitVec.not_zero, BitVec.or_zero, BitVec.and_allOnes]
  rw [Blk.plainWrite, h]
  simp only [hc, hs, hm, accessWrite, if_true, hall, mergeWord]

/-- A field within the mask holds its part of the word written. -/
theorem Fld.get_mergeWord {off lo w : Nat} {m : Word} (old v : Word) (hm : (m >>> lo) &&& lowMask w = lowMask w) :
    Fld.get ⟨off, lo, w⟩ (mergeWord m old v) = Fld.get ⟨off, lo, w⟩ v := by
  have hbits : (mergeWord m old v >>> lo) &&& lowMask w = (v >>> lo) &&& lowMask w := by
    refine BitVec.eq_of_getLsbD_eq fun i hi => ?_
    have hmi := congrArg (·.getLsbD i) hm
    simp only [mergeWord, BitVec.getLsbD_and, BitVec.getLsbD_ushiftRight, BitVec.getLsbD_or, BitVec.getLsbD_not] at hmi ⊢
    cases hl : (lowMask w).getLsbD i with
    | false => simp
    | true => rw [hl, Bool.and_true] at hmi; simp [hmi]
  simp only [Fld.get, hbits]

end Sys2Proof.Machine
end

section
/-! SUPPORT. The registers of the pin engines and of the pads' owners (R454, R461 to R463, R465, R467, R468). -/

namespace Sys2Proof.Machine

/-! ### Engines -/

@[simp] theorem Blk.pe_setPe_same (s : Blk) (n : Nat) (p : PinEng) : (s.setPe n p).pe n = p := by simp [Blk.pe, Blk.setPe]

theorem Blk.pe_setPe (s : Blk) (n i : Nat) (p : PinEng) : (s.setPe n p).pe i = if i = n then p else s.pe i := by
  split
  · next h => rw [h, Blk.pe_setPe_same]
  · next h => exact tget_tset_ne _ _ _ h

/-- Two blocks are equal in everything but registers and pin engines. -/
def Blk.alikeButPes (s t : Blk) : Prop := { t with regs := s.regs, pes := s.pes } = s

theorem Blk.alikeButPes.trans {s t u : Blk} (h : s.alikeButPes t) (g : t.alikeButPes u) : s.alikeButPes u := by
  unfold Blk.alikeButPes at *
  calc { u with regs := s.regs, pes := s.pes }
    _ = { ({ u with regs := t.regs, pes := t.pes } : Blk) with regs := s.regs, pes := s.pes } := rfl
    _ = s := by rw [g, h]

theorem Blk.alikeButPes.now {s t : Blk} (h : s.alikeButPes t) : t.now = s.now := by
  unfold Blk.alikeButPes at h
  rw [← h]

/-! ### SB_PE_CTRL -/

theorem regRow_peCtrl (n : Fin 32) : regRow (F.SB_PE_CTRL_off n) = some ⟨"SB_PE_CTRL", 0x100, 0x20, 32, 0x1f000d, 0, 0, 0, 0, 0, 0⟩ := by
  revert n; decide +kernel

theorem peCtrlEn_put_zero (n : Nat) (v : Word) : (F.SB_PE_CTRL_EN n).put v 0 = v &&& 0xFFFFFFFE := by
  have h1 : lowMask 1 = 1 := rfl
  simp [Fld.put, h1]

theorem peCtrlEn_put_one (n : Nat) (v : Word) : (F.SB_PE_CTRL_EN n).put v 1 = v ||| 1 := by
  have hput : (F.SB_PE_CTRL_EN n).put v 1 = (v &&& ~~~(lowMask 1 <<< 0)) ||| ((BitVec.ofNat 32 1 &&& lowMask 1) <<< 0) := rfl
  rw [hput, show lowMask 1 <<< 0 = 1 from rfl, show (BitVec.ofNat 32 1 &&& lowMask 1) <<< 0 = 1 from rfl]
  refine BitVec.eq_of_getLsbD_eq fun i hi => ?_
  simp only [BitVec.getLsbD_or, BitVec.getLsbD_and, BitVec.getLsbD_not]
  cases hb : (1 : Word).getLsbD i <;> simp [hi]

theorem or_one_of_bit {v : Word} (h : v.getLsbD 0 = true) : v ||| 1 = v := by
  refine BitVec.eq_of_getLsbD_eq fun i hi => ?_
  by_cases h0 : i = 0
  · subst h0; simp [h]
  · simp [h0]

/-- The start of a stopped engine sets EN. -/
theorem Blk.rd_peStart (s : Blk) (n o : Nat) : (s.peStart n).rd o = (s.setFld (F.SB_PE_CTRL_EN n) 1).rd o := by
  unfold Blk.peStart
  dsimp only
  split <;> rfl

theorem Blk.alikeButPes_peStart (s : Blk) (n : Nat) : s.alikeButPes (s.peStart n) := by
  unfold Blk.peStart
  dsimp only
  split <;> rfl

theorem Blk.pe_peStart (s : Blk) (n i : Nat) : (s.peStart n).pe i =
    if i = n then (s.pe n).begun s.now (s.fld (F.SB_PE_CTRL_START n)) (s.bit (F.SB_PE_CTRL_KEEP_SHIFT n)) else s.pe i := by
  have hstart : (s.setFld (F.SB_PE_CTRL_EN n) 1).fld (F.SB_PE_CTRL_START n) = s.fld (F.SB_PE_CTRL_START n) :=
    s.fld_setFld_ne 1 (.inr (.inr (by simp)))
  have hkeep : (s.setFld (F.SB_PE_CTRL_EN n) 1).fld (F.SB_PE_CTRL_KEEP_SHIFT n) = s.fld (F.SB_PE_CTRL_KEEP_SHIFT n) :=
    s.fld_setFld_ne 1 (.inr (.inr (by simp)))
  have hre : ∀ j, ((s.set1 (F.SB_PE_CTRL_EN n)).peRestart n).pe j =
      if j = n then { s.pe n with acc := 0, tick := 4 * (s.now / 4 + 1) } else s.pe j := fun j => Blk.pe_setPe _ n j _
  have hn := hre n
  rw [if_pos rfl] at hn
  unfold Blk.peStart PinEng.begun
  simp only [hn]
  by_cases hc : (s.pe n).changed = true
  · rw [if_pos hc, if_pos hc, Blk.pe_setPe, hre, ← hstart, Blk.bit_eq s, ← hkeep]
    split <;> rfl
  · rw [if_neg hc, if_neg hc]
    exact hre i

theorem Blk.farb_eq_some_iff (s : Blk) (i : Nat) :
    s.farb = some i ↔ i < 32 ∧ s.fld (F.SB_PE_CTRL_FARB i) = 1 ∧ ∀ j, j < i → s.fld (F.SB_PE_CTRL_FARB j) = 0 := by
  simp only [Blk.farb, List.find?_range_eq_some, Blk.bit_eq_rbit, Blk.fld_bit, List.mem_range, Bool.toNat_eq_one, Bool.toNat_eq_zero,
    Bool.not_eq_true']
  exact and_left_comm

/-- A write of SB_PE_CTRL that sets FARB, while another engine has it, is refused (R468). -/
def Blk.farbTaken (s : Blk) (n : Nat) (v : Word) : Prop :=
  v.getLsbD 3 = true ∧ ∃ i, i < 32 ∧ i ≠ n ∧ s.fld (F.SB_PE_CTRL_FARB i) = 1 ∧ ∀ j, j < i → s.fld (F.SB_PE_CTRL_FARB j) = 0

theorem Blk.farbTaken_iff (s : Blk) (n : Nat) (v : Word) : s.farbTaken n v ↔ (F.SB_PE_CTRL_FARB n).get v = 1 ∧ s.farb.any (· != n) = true := by
  rw [Fld.get_bit, Bool.toNat_eq_one, Option.any_eq_true]
  unfold Blk.farbTaken
  simp only [Blk.farb_eq_some_iff, bne_iff_ne]
  exact and_congr_right fun _ => exists_congr fun i =>
    ⟨fun ⟨hi, hne, hfarb⟩ => ⟨⟨hi, hfarb⟩, hne⟩, fun ⟨⟨hi, hfarb⟩, hne⟩ => ⟨hi, hne, hfarb⟩⟩

theorem Blk.wrPeCtrl_refused {u : Blk} {n : Nat} {v : Word} (h : u.farbTaken n v) :
    u.wrPeCtrl n v = (u.hwSet F.SB_PE_GSTAT_FARBCONF).raise 50 (some (0x02, n)) := if_pos ((u.farbTaken_iff n v).mp h)

/-- The block with the bits of a word that a write of SB_PE_CTRL takes. -/
def Blk.storeCtrl (u : Blk) (n : Nat) (v : Word) : Blk := u.wr (F.SB_PE_CTRL_off n) (mergeWord 0x1F000D (u.rd (F.SB_PE_CTRL_off n)) v)

theorem Blk.rd_storeCtrl (u : Blk) (n : Nat) (v : Word) :
    (u.storeCtrl n v).rd (F.SB_PE_CTRL_off n) = mergeWord 0x1F000D (u.rd (F.SB_PE_CTRL_off n)) v := Blk.rd_wr _ _ _

theorem Blk.storeCtrl_frame (u : Blk) (n : Nat) (v : Word) :
    u.keepsRegs (u.storeCtrl n v) [F.SB_PE_CTRL_off n] ∧ u.alikeButPes (u.storeCtrl n v) :=
  ⟨fun _ ho => Blk.rd_wr_ne _ _ (by simpa using ho), rfl⟩

theorem Blk.fld_storeCtrl (u : Blk) (n : Nat) (v : Word) {lo w : Nat} (hm : ((0x1F000D : Word) >>> lo) &&& lowMask w = lowMask w) :
    (u.storeCtrl n v).fld ⟨F.SB_PE_CTRL_off n, lo, w⟩ = Fld.get ⟨F.SB_PE_CTRL_off n, lo, w⟩ v :=
  (u.fld_wr ⟨F.SB_PE_CTRL_off n, lo, w⟩ _).trans (Fld.get_mergeWord _ _ hm)

theorem Blk.bit_storeCtrl (u : Blk) (n : Nat) (v : Word) {i : Nat} (hm : ((0x1F000D : Word) >>> i) &&& lowMask 1 = lowMask 1) :
    (u.storeCtrl n v).bit ⟨F.SB_PE_CTRL_off n, i, 1⟩ = v.getLsbD i := by
  rw [Blk.bit_eq, u.fld_storeCtrl n v hm, Fld.get_bit]; cases v.getLsbD i <;> rfl

/-- A write that is not refused stores the word and starts the engine where it sets EN of a stopped one (R461, R462). -/
theorem Blk.wrPeCtrl_stored {u : Blk} (n : Fin 32) {v : Word} (h : ¬ u.farbTaken n v) :
    u.wrPeCtrl n v = if v.getLsbD 0 = true ∧ u.fld (F.SB_PE_CTRL_EN n) = 0 then (u.storeCtrl n v).peStart n else u.storeCtrl n v := by
  have hw : u.plainWrite (F.SB_PE_CTRL_off n) v = u.storeCtrl n v := u.plainWrite_of_row v (regRow_peCtrl n) rfl rfl rfl
  have hcond : (v.getLsbD 0 && !u.bit (F.SB_PE_CTRL_EN n)) = true ↔ v.getLsbD 0 = true ∧ u.fld (F.SB_PE_CTRL_EN n) = 0 := by
    rw [Blk.bit_eq]; simp
  unfold Blk.wrPeCtrl
  rw [if_neg (mt (u.farbTaken_iff n v).mpr h)]
  dsimp only
  rw [hw, u.bit_storeCtrl n v (by decide)]
  simp only [hcond]

/-- The start of an engine by the word stored: EN is set in it already, and START and KEEP_SHIFT are those of the write (R462). -/
theorem Blk.storeCtrl_peStart (u : Blk) (n : Nat) {v : Word} (h : v.getLsbD 0 = true) :
    (∀ o, ((u.storeCtrl n v).peStart n).rd o = (u.storeCtrl n v).rd o) ∧
    ∀ i, ((u.storeCtrl n v).peStart n).pe i =
      if i = n then (u.pe n).begun u.now (v.toNat / 2 ^ 16 % 2 ^ 5) (v.getLsbD 2) else u.pe i := by
  have hone : (mergeWord 0x1F000D (u.rd (F.SB_PE_CTRL_off n)) v).getLsbD 0 = true := by simp [mergeWord, h]
  refine ⟨fun o => ?_, fun i => ?_⟩
  · rw [Blk.rd_peStart]
    by_cases ho : o = F.SB_PE_CTRL_off n
    · rw [ho, Blk.rd_setFld, peCtrlEn_put_one, Blk.rd_storeCtrl, or_one_of_bit hone]
    · exact Blk.rd_setFld_ne _ _ ho
  · rw [Blk.pe_peStart, u.fld_storeCtrl n v (by decide), Fld.get_eq (Nat.le_of_ble_eq_true rfl), u.bit_storeCtrl n v (by decide)]
    rfl

/-- The write of SB_PE_CTRL that is not refused (R461, R462). -/
theorem Blk.wrPeCtrl_takes {u : Blk} (n : Fin 32) {v : Word} (h : ¬ u.farbTaken n v) :
    let t := u.wrPeCtrl n v
    t.rd (F.SB_PE_CTRL_off n) = mergeWord 0x1F000D (u.rd (F.SB_PE_CTRL_off n)) v ∧ u.keepsRegs t [F.SB_PE_CTRL_off n] ∧
    u.alikeButPes t ∧
    ∀ i, t.pe i = if i = n.val then (if v.getLsbD 0 = true ∧ u.fld (F.SB_PE_CTRL_EN n) = 0 then
      (u.pe n).begun u.now (v.toNat / 2 ^ 16 % 2 ^ 5) (v.getLsbD 2) else u.pe n) else u.pe i := by
  obtain ⟨hkeep, hframe⟩ := u.storeCtrl_frame n v
  dsimp only
  rw [Blk.wrPeCtrl_stored n h]
  by_cases hs : v.getLsbD 0 = true ∧ u.fld (F.SB_PE_CTRL_EN n) = 0
  · obtain ⟨hrd, hpe⟩ := u.storeCtrl_peStart n hs.1
    rw [if_pos hs, if_pos hs]
    exact ⟨(hrd _).trans (u.rd_storeCtrl n v), fun o ho => (hrd o).trans (hkeep o ho), hframe.trans (Blk.alikeButPes_peStart _ n), hpe⟩
  · rw [if_neg hs, if_neg hs]
    refine ⟨u.rd_storeCtrl n v, hkeep, hframe, fun i => ?_⟩
    split
    · next hi => rw [hi]; rfl
    · rfl

/-! ### SB_PE_GSTART -/

/-- What a group start makes of an engine of the mask: one that runs has its divider restarted (R461). -/
def Blk.peGroup (u : Blk) (i : Nat) : PinEng :=
  if u.fld (F.SB_PE_CTRL_EN i) = 1 then { u.pe i with acc := 0, tick := 4 * (u.now / 4 + 1) }
  else (u.pe i).begun u.now (u.fld (F.SB_PE_CTRL_START i)) (u.fld (F.SB_PE_CTRL_KEEP_SHIFT i) = 1)

/-- A group start reaches engine `n`. -/
def Blk.groupStep (v : Word) (s : Blk) (n : Nat) : Blk :=
  if v.getLsbD n then (if s.bit (F.SB_PE_CTRL_EN n) then s.peRestart n else s.peStart n) else s

theorem Blk.wrPeGstart_eq (s : Blk) (v : Word) : s.wrPeGstart v = (List.range 32).foldl (Blk.groupStep v) s := rfl

theorem Blk.groupStep_spec (s : Blk) (v : Word) (n : Nat) :
    (∀ i, (s.groupStep v n).pe i = if i = n ∧ v.getLsbD n = true then s.peGroup n else s.pe i) ∧
    (s.groupStep v n).rd (F.SB_PE_CTRL_off n) = (if v.getLsbD n then s.rd (F.SB_PE_CTRL_off n) ||| 1 else s.rd (F.SB_PE_CTRL_off n)) ∧
    s.keepsRegs (s.groupStep v n) [F.SB_PE_CTRL_off n] ∧ s.alikeButPes (s.groupStep v n) := by
  unfold Blk.groupStep Blk.peGroup
  cases hv : v.getLsbD n with
  | false => exact ⟨fun i => by simp, rfl, fun _ _ => rfl, rfl⟩
  | true =>
    simp only [if_true, and_true, Blk.bit_eq_rbit, Blk.fld_bit, Bool.toNat_eq_one]
    cases hen : s.rbit (F.SB_PE_CTRL_off n) 0 with
    | true =>
      refine ⟨fun i => Blk.pe_setPe _ _ _ _, ?_, fun _ _ => rfl, rfl⟩
      exact (or_one_of_bit hen).symm
    | false =>
      refine ⟨fun i => ?_, ?_, fun o ho => ?_, Blk.alikeButPes_peStart _ _⟩
      · rw [if_neg Bool.false_ne_true, Blk.pe_peStart, Blk.bit_eq_rbit]; simp
      · rw [if_neg Bool.false_ne_true, Blk.rd_peStart, Blk.rd_setFld, peCtrlEn_put_one]
      · exact (Blk.rd_peStart _ _ _).trans (Blk.rd_setFld_ne _ _ (by simpa using ho))

/-- A group start has reached the engines below `k`. -/
structure Blk.GroupStarted (u t : Blk) (v : Word) (k : Nat) : Prop where
  engines : ∀ i, t.pe i = if i < k ∧ v.getLsbD i = true then u.peGroup i else u.pe i
  control : ∀ i, t.rd (F.SB_PE_CTRL_off i) = if i < k ∧ v.getLsbD i = true then u.rd (F.SB_PE_CTRL_off i) ||| 1 else u.rd (F.SB_PE_CTRL_off i)
  keeps   : u.keepsRegs t ((List.range k).map F.SB_PE_CTRL_off)
  alike   : u.alikeButPes t

theorem Blk.groupStarted_foldl (u : Blk) (v : Word) (k : Nat) : u.GroupStarted ((List.range k).foldl (Blk.groupStep v) u) v k := by
  induction k with
  | zero => exact ⟨fun i => by simp, fun i => by simp, fun _ _ => rfl, rfl⟩
  | succ k ih =>
    rw [List.range_succ, List.foldl_append]
    generalize (List.range k).foldl (Blk.groupStep v) u = t at ih
    obtain ⟨hpe, hctrl, hkeep, halike⟩ := ih
    obtain ⟨spe, sctrl, skeep, salike⟩ := t.groupStep_spec v k
    have hrd : t.rd (F.SB_PE_CTRL_off k) = u.rd (F.SB_PE_CTRL_off k) := by rw [hctrl, if_neg (by omega)]
    have hsame : t.pe k = u.pe k := by rw [hpe, if_neg (by omega)]
    have hfld : ∀ lo w, t.fld ⟨F.SB_PE_CTRL_off k, lo, w⟩ = u.fld ⟨F.SB_PE_CTRL_off k, lo, w⟩ := fun lo w => by rw [Blk.fld, Blk.fld, hrd]
    have hgroup : t.peGroup k = u.peGroup k := by
      rw [Blk.peGroup, Blk.peGroup, hfld 0 1, hfld 16 5, hfld 2 1, hsame, halike.now]
    refine ⟨fun i => ?_, fun i => ?_, fun o ho => ?_, halike.trans salike⟩
    · rw [List.foldl_cons, List.foldl_nil, spe, hpe, hgroup]
      by_cases hi : i = k
      · subst hi; simp
      · have : i < k + 1 ↔ i < k := by omega
        simp [hi, this]
    · by_cases hi : i = k
      · subst hi; rw [List.foldl_cons, List.foldl_nil, sctrl, hrd]; simp
      · have hlt : i < k + 1 ↔ i < k := by omega
        rw [List.foldl_cons, List.foldl_nil, skeep _ (by simp; omega), hctrl]
        simp only [hlt]
    · simp only [List.range_succ, List.map_append, List.mem_append, not_or] at ho
      exact (skeep o (by simpa using ho.2)).trans (hkeep o ho.1)

/-! ### Program memory and FIFOs -/

theorem Blk.wrPeProg_running {u : Blk} {n : Nat} (k : Nat) (v : Word) (h : u.fld (F.SB_PE_CTRL_EN n) = 1) :
    u.wrPeProg n k v = (u.hwSet (F.SB_PE_STAT_PWREF n)).raise 51 (some (0x03, peInfo n 0 0)) := if_pos (by rw [Blk.bit_eq, h]; rfl)

theorem Blk.wrPeProg_stopped {u : Blk} {n : Nat} (k : Nat) (v : Word) (h : u.fld (F.SB_PE_CTRL_EN n) = 0) :
    u.wrPeProg n k v = (u.wr (peProgOff n k) v).setPe n { u.pe n with changed := true } := if_neg (by rw [Blk.bit_eq, h]; decide)

theorem Blk.wrPeTx_given {u : Blk} {n : Nat} (v : Word) (h : u.fld (F.SB_PE_CTRL_FARB n) = 1) : u.wrPeTx n v = u :=
  if_pos (by rw [Blk.bit_eq, h]; rfl)

theorem Blk.wrPeTx_room {u : Blk} {n : Nat} (v : Word) (h : u.fld (F.SB_PE_CTRL_FARB n) = 0) (hroom : (u.pe n).tx.length < 8) :
    u.wrPeTx n v = u.setPe n { u.pe n with tx := (u.pe n).tx ++ [v] } :=
  (if_neg (by rw [Blk.bit_eq, h]; decide)).trans (if_pos hroom)

theorem Blk.wrPeTx_full {u : Blk} {n : Nat} (v : Word) (h : u.fld (F.SB_PE_CTRL_FARB n) = 0) (hfull : 8 ≤ (u.pe n).tx.length) :
    u.wrPeTx n v = (u.hwSet (F.SB_PE_STAT_TXOVF n)).raise 53 (some (0x05, peInfo n 0 0)) :=
  (if_neg (by rw [Blk.bit_eq, h]; decide)).trans (if_neg (by omega))

theorem Blk.popRx_none {u : Blk} {n : Nat} (h : u.fld (F.SB_PE_CTRL_FARB n) = 1 ∨ (u.pe n).rxBefore u.now = []) :
    u.popRx n = u ∧ u.peRx n = 0 := by
  unfold Blk.popRx Blk.peRx
  rcases h with h | h
  · rw [Blk.bit_eq, h]; exact ⟨rfl, rfl⟩
  · rw [h]; simp

theorem Blk.popRx_word {u : Blk} {n : Nat} {x : Word} {r : List Word} (h : ¬ u.fld (F.SB_PE_CTRL_FARB n) = 1)
    (hl : (u.pe n).rxBefore u.now = x :: r) : u.popRx n = u.setPe n { u.pe n with rx := (u.pe n).rx.tail } ∧ u.peRx n = x := by
  have hb : u.bit (F.SB_PE_CTRL_FARB n) = false := by
    rw [Blk.fld_bit, Bool.toNat_eq_one] at h
    rw [Blk.bit_eq_rbit]; simpa using h
  unfold Blk.popRx Blk.peRx
  rw [hl, hb]
  exact ⟨rfl, rfl⟩

theorem peRxRead_runs {s : State} (req : Req) (n : Fin 32) (h : s.blk.phase = .running) :
    exec (.peRxRead req n) s = .next { s with blk := { s.blk.popRx n with winRsp := some ⟨req, s.blk.peRx n, false⟩ } } := by
  rw [exec_peRxRead, execPeRxRead, State.reg, if_pos h]

/-! ### Owners of the pads -/

theorem regRow_padOwn (m : Fin 128) : regRow (F.SB_PAD_OWN_off m) = some ⟨"SB_PAD_OWN", 0x600, 0x4, 128, 0x7cdf, 0, 0, 0, 0x8000, 0, 0⟩ := by
  revert m; decide +kernel

/-- The word that a write of SB_PAD_OWN stores: a PULL of 3 counts as 0. -/
def padOwnWord (m : Nat) (v : Word) : Word := if (F.SB_PAD_OWN_PULL m).get v = 3 then (F.SB_PAD_OWN_PULL m).put v 0 else v

theorem mergeWord_padOwnWord (m : Nat) (old v : Word) : mergeWord 0x7CDF old (padOwnWord m v) =
    (old &&& 0xFFFF8320) ||| (v &&& (if (F.SB_PAD_OWN_PULL m).get v = 3 then 0x70DF else 0x7CDF)) := by
  have hnot : ~~~(0x7CDF : Word) = 0xFFFF8320 := by decide
  have hput : (F.SB_PAD_OWN_PULL m).put v 0 &&& 0x7CDF = v &&& 0x70DF := by
    have h2 : ~~~(lowMask 2 <<< 10) &&& (0x7CDF : Word) = 0x70DF := by decide
    rw [← h2, ← BitVec.and_assoc]
    simp [Fld.put]
  rw [mergeWord, padOwnWord, hnot]
  split
  · rw [hput]
  · rfl

theorem Blk.wrPadOwn_invalid {u : Blk} {m : Nat} {v : Word} (h : (F.SB_PAD_OWN_KIND m).get v = 3) : u.wrPadOwn m v = u.padRefuse m := if_pos h

theorem Blk.wrPadOwn_unowned {u : Blk} {m : Nat} {v : Word} (ho : u.fld (F.SB_PAD_OWN_KIND m) = 0) (h : (F.SB_PAD_OWN_KIND m).get v = 0) :
    u.wrPadOwn m v = u := by
  unfold Blk.wrPadOwn
  dsimp only
  rw [if_neg (by omega), if_pos ho, if_pos h]

/-- A claim of a free pad, and a write that leaves the owner, store the word (R465). -/
theorem Blk.wrPadOwn_takes {u : Blk} {m : Fin 128} {v : Word} (h3 : (F.SB_PAD_OWN_KIND m).get v ≠ 3)
    (h : u.fld (F.SB_PAD_OWN_KIND m) = 0 ∧ (F.SB_PAD_OWN_KIND m).get v ≠ 0 ∨
      u.fld (F.SB_PAD_OWN_KIND m) ≠ 0 ∧ (F.SB_PAD_OWN_ID m).get v = u.fld (F.SB_PAD_OWN_ID m) ∧
        (F.SB_PAD_OWN_KIND m).get v = u.fld (F.SB_PAD_OWN_KIND m)) :
    (u.wrPadOwn m v).rd (F.SB_PAD_OWN_off m) = (u.rd (F.SB_PAD_OWN_off m) &&& 0xFFFF8320) |||
        (v &&& (if (F.SB_PAD_OWN_PULL m).get v = 3 then 0x70DF else 0x7CDF)) ∧
      u.onlyRegs (u.wrPadOwn m v) [F.SB_PAD_OWN_off m] := by
  have hwrite : u.wrPadOwn m v = u.plainWrite (F.SB_PAD_OWN_off m) (padOwnWord m v) := by
    unfold Blk.wrPadOwn
    dsimp only
    rw [if_neg h3]
    rcases h with ⟨ho, hk⟩ | ⟨ho, hown⟩
    · rw [if_pos ho, if_neg hk]; rfl
    · rw [if_neg ho, if_pos hown]; rfl
  have hplain : u.plainWrite (F.SB_PAD_OWN_off m) (padOwnWord m v) =
      u.wr (F.SB_PAD_OWN_off m) (mergeWord 0x7CDF (u.rd (F.SB_PAD_OWN_off m)) (padOwnWord m v)) :=
    u.plainWrite_of_row _ (regRow_padOwn m) rfl rfl rfl
  rw [hwrite, hplain, mergeWord_padOwnWord]
  exact ⟨Blk.rd_wr _ _ _, rfl, fun o ho => Blk.rd_wr_ne _ _ (by simpa using ho)⟩

theorem getLsbD_padBit_false (v : BitVec 128) (p i : Nat) (hi : i < 128) : (padBit v p false).getLsbD i = (v.getLsbD i && !decide (i = p)) := by
  have hplace : (decide (i < p) || !decide (i - p = 0)) = !decide (i = p) := by
    rw [Bool.eq_iff_iff]
    simp only [Bool.or_eq_true, decide_eq_true_eq, Bool.not_eq_true', decide_eq_false_iff_not]
    omega
  simp [padBit, hi, hplace]

/-- A release by the owner frees the pad as an input (R465). -/
theorem Blk.wrPadOwn_releases {u : Blk} {m : Nat} {v : Word} (ho : u.fld (F.SB_PAD_OWN_KIND m) ≠ 0)
    (hid : (F.SB_PAD_OWN_ID m).get v = u.fld (F.SB_PAD_OWN_ID m)) (hk : (F.SB_PAD_OWN_KIND m).get v = 0) :
    let t := u.wrPadOwn m v
    t.rd (F.SB_PAD_OWN_off m) = 0 ∧ u.keepsRegs t [F.SB_PAD_OWN_off m] ∧
      (∀ i, i < 128 → t.pins.out.getLsbD i = (u.pins.out.getLsbD i && !decide (i = m)) ∧
        t.pins.dir.getLsbD i = (u.pins.dir.getLsbD i && !decide (i = m))) ∧
      { t with regs := u.regs, pins := u.pins } = u ∧ { t.pins with out := u.pins.out, dir := u.pins.dir } = u.pins := by
  have hfree : u.wrPadOwn m v =
      { u.wr (F.SB_PAD_OWN_off m) 0 with pins := { u.pins with out := padBit u.pins.out m false, dir := padBit u.pins.dir m false } } := by
    unfold Blk.wrPadOwn
    dsimp only
    rw [if_neg (by omega), if_neg ho, if_neg (by omega), if_pos ⟨hid, hk⟩]
  rw [hfree]
  exact ⟨Blk.rd_wr _ _ _, fun o hm => Blk.rd_wr_ne u 0 (by simpa using hm),
    fun i hi => ⟨getLsbD_padBit_false _ _ _ hi, getLsbD_padBit_false _ _ _ hi⟩, rfl, rfl⟩

theorem Blk.wrPadOwn_refused {u : Blk} {m : Nat} {v : Word} (ho : u.fld (F.SB_PAD_OWN_KIND m) ≠ 0)
    (h : (F.SB_PAD_OWN_ID m).get v ≠ u.fld (F.SB_PAD_OWN_ID m) ∨
      (F.SB_PAD_OWN_KIND m).get v ≠ u.fld (F.SB_PAD_OWN_KIND m) ∧ (F.SB_PAD_OWN_KIND m).get v ≠ 0) : u.wrPadOwn m v = u.padRefuse m := by
  by_cases h3 : (F.SB_PAD_OWN_KIND m).get v = 3
  · exact Blk.wrPadOwn_invalid h3
  · unfold Blk.wrPadOwn
    dsimp only
    rw [if_neg h3, if_neg ho, if_neg (by omega), if_neg (by omega)]

theorem Blk.padRefuse_tells (u : Blk) (m : Nat) :
    (u.setFld F.SB_PE_GSTAT_PADCONF 1).tells (u.padRefuse m) 50 (some (0x01, m * 2 ^ 8)) [] ∧
      (u.setFld F.SB_PE_GSTAT_PADCONF 1).alikeButRegs (u.padRefuse m) := by
  have hinfo : peInfo 0 m 0 = m * 2 ^ 8 := by simp [peInfo]
  rw [Blk.padRefuse, hinfo]
  exact u.hwSet_raise_tells _ _ (by decide) (by decide)

/-- Settles O33: each write reaches its register (`performs_of_gated`) and does there what the lemma of its case says; a refused one sets its flag
and raises its source (`Blk.hwSet_raise_tells`), by R468 a second FARB with source 50 and ERR_CODE 0x02. -/
theorem pinEngineRegisters : Obligations.PinEngineRegisters := by
  unfold Obligations.PinEngineRegisters
  intro s req n m k v ctrl engine stored second control
  have hcontrol : ∀ (w : Word) (u : Blk), w.getLsbD 3 = v.getLsbD 3 → control w u (u.wrPeCtrl n w) := by
    intro w u h3
    have hsecond : u.farbTaken n w ↔ second u := by rw [Blk.farbTaken, h3]
    refine ⟨fun h => ?_, fun h => Blk.wrPeCtrl_takes n (mt hsecond.mp h)⟩
    rw [Blk.wrPeCtrl_refused (hsecond.mpr h)]
    exact u.hwSet_raise_tells _ _ (by decide) (by decide)
  refine ⟨performs_of_gated (exec_peStart s) fun u => ?_, performs_of_gated (exec_peStopWrite s) fun u => ?_,
    performs_of_gated (exec_peFarbWrite s) fun u => hcontrol v u rfl, performs_of_gated (exec_peGroupStart s) fun u => ?_,
    performs_of_gated (exec_peProgramWrite s) fun u => ⟨fun hrun => ?_, fun hstop => ?_⟩, performs_of_gated (exec_flagSet s) fun u => ?_,
    performs_of_gated (exec_flagClear s) fun u => ?_, performs_of_gated (exec_peTxWrite s) fun u => ⟨Blk.wrPeTx_given v, fun h hr => ?_, fun h hf => ?_⟩,
    fun hphase => ?_, performs_of_gated (exec_padOwnWrite s) fun u => ?_⟩
  · rw [force, peCtrlEn_put_one]
    exact hcontrol _ u (by simp)
  · rw [force, peCtrlEn_put_zero]
    exact hcontrol _ u (by simp)
  · obtain ⟨hpes, hctrl, hkeep, hframe⟩ := u.groupStarted_foldl v 32
    rw [Blk.wrPeGstart_eq]
    refine ⟨fun i => ?_, fun i hi => ?_, hkeep, hframe⟩
    · by_cases hv : v.getLsbD i = true
      · exact (hpes i).trans ((if_pos ⟨BitVec.lt_of_getLsbD hv, hv⟩).trans (if_pos hv).symm)
      · exact (hpes i).trans ((if_neg fun h => hv h.2).trans (if_neg hv).symm)
    · rw [hctrl]; simp only [hi, true_and]
  · rw [Blk.wrPeProg_running _ _ hrun]
    exact u.hwSet_raise_tells _ _ (by decide) (by decide)
  · rw [Blk.wrPeProg_stopped _ _ hstop]
    exact ⟨Blk.rd_wr _ _ _, fun o ho => Blk.rd_wr_ne _ _ (by simpa using ho), fun i => Blk.pe_setPe _ _ _ _, rfl⟩
  · simp [Blk.flagOps]
  · simp [Blk.flagOps]
  · rw [Blk.wrPeTx_room _ h hr]
    exact ⟨fun i => Blk.pe_setPe _ _ _ _, rfl⟩
  · rw [Blk.wrPeTx_full _ h hf]
    exact u.hwSet_raise_tells _ _ (by decide) (by decide)
  · refine ⟨_, peRxRead_runs req n hphase, rfl, rfl, fun h => ?_, fun x r hg hl => ?_, ?_⟩
    · obtain ⟨hpop, hrx⟩ := Blk.popRx_none h
      rw [hpop, hrx]
      exact ⟨rfl, fun _ => rfl⟩
    · obtain ⟨hpop, hrx⟩ := Blk.popRx_word hg hl
      rw [hpop, hrx]
      exact ⟨rfl, fun i => Blk.pe_setPe _ _ _ _⟩
    · unfold Blk.popRx
      split <;> rfl
  · have hkind : (F.SB_PAD_OWN_KIND m).get v = v.toNat / 2 ^ 6 % 4 := Fld.get_eq (Nat.le_of_ble_eq_true rfl) v
    have hid : (F.SB_PAD_OWN_ID m).get v = v.toNat % 2 ^ 5 := (Fld.get_eq (Nat.le_of_ble_eq_true rfl) v).trans (by simp)
    have hpull : (F.SB_PAD_OWN_PULL m).get v = v.toNat / 2 ^ 10 % 4 := Fld.get_eq (Nat.le_of_ble_eq_true rfl) v
    rw [← hkind, ← hid, ← hpull]
    intro own his takes refused
    have hrefused : u.wrPadOwn m v = u.padRefuse m → refused := fun h => by
      have hr := u.padRefuse_tells m
      rwa [← h] at hr
    exact ⟨fun h3 => hrefused (Blk.wrPadOwn_invalid h3),
      fun ho => ⟨Blk.wrPadOwn_unowned ho, fun hk => Blk.wrPadOwn_takes (by omega) (.inl ⟨ho, by omega⟩)⟩,
      fun ho h3 => ⟨fun hi hk => Blk.wrPadOwn_takes h3 (.inr ⟨ho, hi, hk⟩), Blk.wrPadOwn_releases ho,
        fun h => hrefused (Blk.wrPadOwn_refused ho h)⟩⟩

end Sys2Proof.Machine
end
